-- ==== Sys2Proof/Word.lean ====
section
/-! DEFINITION. The word types of the TU1224: 32-bit registers (R360), bytes of packets, data RAM and journal
records, and the 64-bit tags and 128-bit keys of the cryptographic inputs (R98, R106). -/

namespace Sys2Proof

/-- One byte of a packet, of data RAM or of a journal record. -/
abbrev Byte := BitVec 8

/-- A register, an instruction word or a data RAM word (R360, R167). -/
abbrev Word := BitVec 32

/-- An AES-128 key or block (R98). -/
abbrev Block := BitVec 128

/-- A truncated CMAC tag (R106). -/
abbrev Tag := BitVec 64

/-- A car C0 to C11. -/
abbrev CarId := Fin 12

/-- A door D0 to D23. -/
abbrev DoorId := Fin 24

/-- A feedback interface F0 to F23. -/
abbrev FbkId := Fin 24

/-- A profile axis 0 to 35. -/
abbrev AxisId := Fin 36

/-- A loop instance 0 to 83. -/
abbrev LoopId := Fin 84

/-- A front-end channel X0 to X47. -/
abbrev FeId := Fin 48

/-- A safety chain tap S0 to S95. -/
abbrev TapId := Fin 96

/-- A thread T0 to T47. -/
abbrev ThreadId := Fin 48

/-- A session id 0 to 15. -/
abbrev SessionId := Fin 16

/-- A check-value channel CK0 to CK7, or a trace channel. -/
abbrev CkId := Fin 8

end Sys2Proof
end

