-- ==== Sys2Proof/Syntax.lean ====
section
/-! DEFINITION. The commands of the TU1224, one constructor per row of spec/opcode_table.json. An instruction row
carries who issues it and the fields of its word that the row leaves free (R167, R169); an event row carries what the
outside of the device supplies: frames, pin levels, samples, test outcomes, and the SCK cycle of the tick where a rule
needs a stamp. -/

namespace Sys2Proof

/-- A host packet (Table 3-3). The instruction word comes from the row; operands A, B and C stand as decrypted
(R169), and the gate forms the bytes on the wire from them again (R107, R108). -/
structure Packet where
  sid   : Byte
  flags : Byte
  kind  : BitVec 16
  seq   : Word
  a     : Word
  b     : Word
  c     : Word
  tag   : Tag
  deriving DecidableEq, Repr

/-- Who issues an instruction: a thread of a cluster, or a host packet in its session (R169). -/
inductive Issuer where
  | thread (t : ThreadId)
  | host (p : Packet)
  deriving DecidableEq, Repr

/-- The fields of an instruction word below the major opcode (Table 8-1). -/
structure Enc where
  d   : BitVec 4
  a   : BitVec 4
  m   : BitVec 2
  imm : BitVec 16
  deriving DecidableEq, Repr

/-- A word that holds a bit error (Table 2-4): memory 0 data RAM, 1 program store, 2 cam memory, 3 journal, 4 last-word area, 5 key store; `double`
where SECDED cannot correct it. A flaw of the last-word area makes its writes fail their verify (R357). -/
structure Flaw where
  memory : Fin 6
  word   : Nat
  double : Bool
  deriving DecidableEq, Repr

/-- Everything latched at cycle 0 of a tick (R18, Table 2-4) that the events of the tick before have not brought. -/
structure TickInputs where
  /-- DEV_TEMP, 0.01 °C signed (R87). -/
  temp      : BitVec 16
  /-- Slack of the sixteen timing monitors, in taps (R88, R89). -/
  slack     : Vector (BitVec 6) 16
  /-- Rail voltages in mV, in the order of Table 4-6. -/
  railMv    : Vector (BitVec 16) 5
  /-- Tap voltages in mV (R297). -/
  tapMv     : Vector (BitVec 16) 96
  /-- Raw codes SW_2, SW_1, SW_0 of the interfaces F(2k+1) (R228). -/
  switches  : Vector (BitVec 3) 12
  /-- Pad levels DRVEN, BRKEN, DOOREN from bit 0 (R307). -/
  pads      : Vector (BitVec 3) 12
  /-- Readbacks DRVRB, BRKRB, DOORRB from bit 0 (R309). -/
  readbacks : Vector (BitVec 3) 12
  /-- SAFE_PULSE_RB (R311). -/
  pulseRb   : Bool
  /-- Converted codes of D(d)_IU and D(d)_IV at the last PWM centre (R36, R275). -/
  current   : Vector (BitVec 12 × BitVec 12) 24
  /-- Bit errors that have struck the memories since the tick before (R342, R356). -/
  flaws     : List Flaw
  /-- DROPSEL_1, DROPSEL_0, which an entry to HUNT at this boundary samples (R53, R382). -/
  dropsel   : BitVec 2
  deriving DecidableEq, Repr

/-- A down-frame header with its SYNC (Table 3-1). -/
structure Header where
  sync    : BitVec 64
  frameNo : BitVec 40
  wall    : BitVec 48
  /-- Slot errors of drops 0 to 3, signed 1/16-cycle steps. -/
  err     : Vector (BitVec 8) 4
  flags   : BitVec 8
  crc     : BitVec 16
  deriving DecidableEq, Repr

/-- One 256-bit instruction packet as it stands on the wire. -/
abbrev WirePacket := BitVec 256

/-- A down frame as received (Table 3-1, R55): the header, the counts of the sections ahead of the own one, and the own
section with its count, its packets and its CRC. -/
structure DownFrame where
  header  : Header
  /-- Packet counts of the sections of the lower-numbered drops, in order. -/
  ahead   : List (BitVec 16)
  count   : BitVec 16
  packets : List WirePacket
  crc     : Word
  deriving DecidableEq, Repr

/-- What moves the TAP controller at an edge of TCK: TMS, and whether TRST_N is low at it; unconnected it is low (R140, R382). -/
structure TapControl where
  tms  : Bool
  trst : Bool
  deriving DecidableEq, Repr

/-- The three SYNCs that end HUNT (R53), with what the placement and equalisation searches chose (R66) and what is latched at
cycle 0 of the first ADMIT tick (R18, R87, R89). -/
structure HuntLock where
  h1 : Header
  h2 : Header
  h3 : Header
  spacing1 : BitVec 14
  spacing2 : BitVec 14
  rx0 : BitVec 7
  rx1 : BitVec 7
  eqSck : BitVec 4
  eqDn1 : BitVec 4
  eqDn0 : BitVec 4
  inputs : TickInputs
  deriving DecidableEq, Repr

/-- The encoders that are counted in quadrature: a feedback interface (R219), or the encoder of a STEPPER or BDC door
(R278). -/
inductive Encoder where
  | fbk (i : FbkId)
  | door (d : DoorId)
  deriving DecidableEq, Repr

/-- The three link receivers that carry a boost (R66). -/
inductive EqLane where
  | sck | dn1 | dn0
  deriving DecidableEq, Repr

/-- The outcome of the tests that an admission step runs (Table 4-3): nothing failed, or the first failure. The start-up test of the
entropy source is not among them: the command carries its bits. -/
inductive StepTest where
  | passed
  | islandTest (domain : BitVec 6) (item : Byte)
  | eccDouble (memory : BitVec 4) (address : BitVec 20)
  | journalFault (kind : BitVec 4) (address : BitVec 20) (expected got : Word)
  deriving DecidableEq, Repr

/-- A run of an admission step: the outcome of its tests, and the 4,096 raw bits of the start-up test of step 1, first bit highest
(Table 4-3, R115). -/
structure StepRun where
  test : StepTest
  bits : BitVec 4096
  deriving DecidableEq, Repr

/-- The deviation of the references in ppm in sixteen chopper periods that follow each other, and the cycle at which the last one ends
(R329). -/
structure ReferenceRun where
  ppm   : Vector (BitVec 20) 16
  cycle : BitVec 14
  deriving DecidableEq, Repr

/-- The outcome of the self-test of a car's islands (R91): item 0 is a pass. `zero` holds the zero codes of the four
current inputs of the car's doors, IU and IV of the front door first (R275); `lines` the levels A, B of the machine encoder and
`halls` the lines HC, HB, HA of the front and the rear door, highest bit first, at the first SCK edge with the islands on (R219). -/
structure IslandTest where
  item   : Byte
  domain : BitVec 6
  zero   : Vector (BitVec 12) 4
  lines  : BitVec 2
  halls  : Vector (BitVec 3) 2
  deriving DecidableEq, Repr

/-- Errors that a scrub visit meets: the words of the visit that hold a single-bit error, a word that holds an
uncorrectable one, and a correction that fails its verify (R342, R343, R356). -/
structure ScrubErrors where
  single     : List (BitVec 20)
  double     : Option (BitVec 20)
  verifyFail : Option (BitVec 20)
  deriving DecidableEq, Repr

/-- A reply on a drive port pair (R265, R267): the cycles from the end of the command frame's last stop bit to its start edge, and
for each of its 120 bit times the three samples, at centre - 1, centre and centre + 1 from bit 0. -/
structure DriveReply where
  turn    : BitVec 16
  samples : Vector (BitVec 3) 120
  deriving DecidableEq, Repr

/-- What a front-end channel meets in a chopper period (R315, R316, R320): in each half the voltage at the amplifier's input before its
trim, in pV, with the inputs as the chopper has them and a reversal of AC taken out; V(SNP) - V(SNN) in each half, in nV; lowest
and highest level at P, N, SNP and SNN, in mV; and the highest level at X_IX, in mV. -/
structure ChopSample where
  plus  : BitVec 48
  minus : BitVec 48
  sense : Vector (BitVec 40) 2
  pins  : Vector (BitVec 16 × BitVec 16) 4
  ixMv  : BitVec 16
  deriving DecidableEq, Repr

/-- What a self-test of the control core measures (Table 4-9). -/
inductive SelftestReading where
  /-- 04h and 10h measure with their own commands. -/
  | none
  /-- 03h: the longest run of chopper periods with a difference of the references above 0.1 %, and VANA as the front end
  measures it, in mV (R329). -/
  | reference (run : BitVec 11) (vanaMv : BitVec 16)
  /-- 11h: for each door of the car the readbacks of its six gates, in the order UH, UL, VH, VL, WH, WL from bit 0, with each
  gate driven alone, then with both gates of each leg U, V, W commanded (R295). -/
  | gates (alone : Vector (Vector (BitVec 6) 6) 2) (legs : Vector (Vector (BitVec 6) 3) 2)
  /-- 12h: the sense voltage V(SNP) - V(SNN) of steps 1 to 4 in mV, and the ratio in FE_RAW units at 2.5 V and at 5.0 V (R330). -/
  | bridge (sense : Vector (BitVec 16) 4) (low high : BitVec 32)
  deriving DecidableEq, Repr

/-- How the write steps of a journal record went (R351 to R357): every word verified, a word failed its verify (and the last-word area
its write, or not), or the writing stopped before the word with the given index of the seventeen was complete. -/
inductive RecordWrite where
  | verified
  | verifyFail (index : BitVec 5) (got : Word) (lastWordFails : Bool)
  | interrupted (index : BitVec 5)
  deriving DecidableEq, Repr

/-- The commands: one constructor per row of spec/opcode_table.json, in its order. -/
inductive Instr where
  -- thread ALU (R176 to R178)
  | add (t : ThreadId) (f : Enc)
  | sub (t : ThreadId) (f : Enc)
  | and (t : ThreadId) (f : Enc)
  | or (t : ThreadId) (f : Enc)
  | xor (t : ThreadId) (f : Enc)
  | shl (t : ThreadId) (f : Enc)
  | shr (t : ThreadId) (f : Enc)
  | sar (t : ThreadId) (f : Enc)
  | mul (t : ThreadId) (f : Enc)
  | mac (t : ThreadId) (f : Enc)
  | sat (t : ThreadId) (f : Enc)
  | cmp (t : ThreadId) (f : Enc)
  | ldi (t : ThreadId) (f : Enc)
  | ldih (t : ThreadId) (f : Enc)
  -- memory and flow (R179, R180)
  | ld (i : Issuer) (f : Enc)
  | st (i : Issuer) (f : Enc)
  | br (t : ThreadId) (f : Enc)
  | call (t : ThreadId) (f : Enc)
  | ret (t : ThreadId) (f : Enc)
  | yield (t : ThreadId) (f : Enc)
  | wait (t : ThreadId) (f : Enc)
  | assert (t : ThreadId) (f : Enc)
  -- register access (R181 to R183)
  | get (i : Issuer) (f : Enc)
  | put (i : Issuer) (f : Enc)
  -- motion (R184 to R186)
  | move (i : Issuer) (f : Enc)
  | moveq (i : Issuer) (f : Enc)
  | stop (i : Issuer) (f : Enc)
  | stopat (i : Issuer) (f : Enc)
  | resume (i : Issuer) (f : Enc)
  | flush (i : Issuer) (f : Enc)
  | limit (i : Issuer) (f : Enc)
  | camsetEngage (i : Issuer) (f : Enc)
  | camsetRelease (i : Issuer) (f : Enc)
  | home (i : Issuer) (f : Enc)
  -- islands and self-tests (R190 to R194)
  | islandOn (i : Issuer) (f : Enc)
  | islandOff (i : Issuer) (f : Enc)
  | selftestRamScrub (i : Issuer) (f : Enc)
  | selftestProgScrub (i : Issuer) (f : Enc)
  | selftestReference (i : Issuer) (f : Enc)
  | selftestEntropy (i : Issuer) (f : Enc)
  | selftestEnablePulse (i : Issuer) (f : Enc)
  | selftestGateDriver (i : Issuer) (f : Enc)
  | selftestBridgeExcitation (i : Issuer) (f : Enc)
  -- stops and interlock (R187 to R189)
  | callset (i : Issuer) (f : Enc)
  | callclr (i : Issuer) (f : Enc)
  | nextstop (i : Issuer) (f : Enc)
  | reach (i : Issuer) (f : Enc)
  | deoreq (i : Issuer) (f : Enc)
  -- engines (R190)
  | crcjob (i : Issuer) (f : Enc)
  | calZero (i : Issuer) (f : Enc)
  | calSpan (i : Issuer) (f : Enc)
  | trace (i : Issuer) (f : Enc)
  | log (i : Issuer) (f : Enc)
  -- stream (R195)
  | streamNone (i : Issuer) (f : Enc)
  | streamReplay (i : Issuer) (f : Enc)
  | streamTrace (i : Issuer) (f : Enc)
  | streamJournal (i : Issuer) (f : Enc)
  -- secrecy (R191)
  | chal (i : Issuer) (f : Enc)
  | sessionOpen (i : Issuer) (f : Enc)
  | sessionClose (i : Issuer) (f : Enc)
  | tbledit (i : Issuer) (f : Enc)
  | tblpress (i : Issuer) (f : Enc)
  | keysetPart0 (i : Issuer) (f : Enc)
  | keysetPart1 (i : Issuer) (f : Enc)
  | starch (i : Issuer) (f : Enc)
  | unstarch (i : Issuer) (f : Enc)
  | ploadBegin (i : Issuer) (f : Enc)
  | ploadData (i : Issuer) (f : Enc)
  | ploadSeal (i : Issuer) (f : Enc)
  | darn (i : Issuer) (f : Enc)
  -- PUTs with a row of their own (R183)
  | devAdmitGo (i : Issuer) (f : Enc)
  | keeperReadmit (i : Issuer) (f : Enc)
  | pwrIslandreqWrite (i : Issuer) (f : Enc)
  | secZeroize (i : Issuer) (f : Enc)
  | seatUnlock (i : Issuer) (f : Enc)
  | keeperSecWrite (i : Issuer) (f : Enc)
  | securemaskWrite (i : Issuer) (f : Enc)
  | tapctlWrite (i : Issuer) (f : Enc)
  | spsPut (i : Issuer) (f : Enc)
  | threadRestartCmd (i : Issuer) (f : Enc)
  | threadHaltCmd (i : Issuer) (f : Enc)
  | carReqOut (i : Issuer) (f : Enc)
  | carReqIn (i : Issuer) (f : Enc)
  | carReqInspect (i : Issuer) (f : Enc)
  | carReqClear (i : Issuer) (f : Enc)
  | landingTableLoad (i : Issuer) (f : Enc)
  | scheduleLoad (i : Issuer) (f : Enc)
  | doorReqReopen (i : Issuer) (f : Enc)
  | doorReqNudge (i : Issuer) (f : Enc)
  | doorReqClear (i : Issuer) (f : Enc)
  | sintabWrite (i : Issuer) (f : Enc)
  | learnGo (i : Issuer) (f : Enc)
  | camselHalf0 (i : Issuer) (f : Enc)
  | camselHalf1 (i : Issuer) (f : Enc)
  | loopIreset (i : Issuer) (f : Enc)
  | loopFaultClear (i : Issuer) (f : Enc)
  | cmpbaseArm (i : Issuer) (f : Enc)
  | polybaseLoad (i : Issuer) (f : Enc)
  | crcValWrite (i : Issuer) (f : Enc)
  | stickyClear (i : Issuer) (f : Enc)
  | registerWrite (i : Issuer) (f : Enc)
  -- time and link
  | tickStart (x : TickInputs)
  | downFrame (fr : DownFrame)
  | huntSyncLock (l : HuntLock)
  | upSlot (listen : BitVec 16)
  | linkDarkTrip (cycle : BitVec 14)
  | slotDeferTrip (cycle : BitVec 14)
  | eqTrial (lane : EqLane) (up : Bool) (before after : BitVec 16)
  | sckGapTrip (cycle : BitVec 14) (gapNs : BitVec 32)
  | sckResume
  | enableDecay (k : CarId) (which : BitVec 3)
  | rstNAssert (lowNs : BitVec 32)
  | leaveDark (railMv : Vector (BitVec 16) 5) (highEdges : BitVec 8) (dropsel : BitVec 2)
  | supplyPorLoss (rail : Fin 5) (mv : BitVec 16)
  | supplyWarning (rail : Fin 5) (mv : BitVec 16)
  | supplyWarningClear (rail : Fin 5) (mv : BitVec 16) (cycles : BitVec 8)
  | brownoutTrip (rail : Fin 5) (mv : BitVec 16) (cycles : BitVec 8) (cycle : BitVec 14)
  | overtempTrip (cycle : BitVec 14)
  | avsDecision
  | lockstepTrip (cluster : BitVec 2) (thread : BitVec 6) (cycle : BitVec 14)
  | entropyInterval (bits : BitVec 512)
  -- admission, islands, sessions
  | admissionStep (n : Fin 5) (run : StepRun)
  | enterRun
  | islandPowerupStart
  | islandPowerupDone (k : CarId) (test : IslandTest)
  | sessionIdleTimeout (sid : SessionId)
  | sessionMaclimit (sid : SessionId)
  | seatLockout (seat : Fin 7)
  | challengeExpiry (sid : SessionId)
  | witnessExpiry
  | auditedChangeEffect
  -- threads
  | threadSlot (t : ThreadId) (n : BitVec 14)
  | threadWake (t : ThreadId)
  | threadStall (t : ThreadId)
  | threadRestart (t : ThreadId)
  | threadHaltLimit (t : ThreadId)
  -- profile generators
  | profileAdvance (a : AxisId)
  | moveTake (a : AxisId)
  | homeReference (a : AxisId)
  -- feedback
  | quadEdge (e : Encoder) (ab : BitVec 2) (held : BitVec 8) (cycle : BitVec 14)
  | zIndex (e : Encoder) (held : BitVec 8) (cycle : BitVec 14)
  | ssiReadStart (i : FbkId) (ssidt : Bool)
  | ssiReadDone (i : FbkId) (bits : BitVec 64)
  | feedbackFault (i : FbkId)
  -- loops
  | loopRun (l : LoopId)
  | loopModelFault (l : LoopId)
  | loopSatFault (l : LoopId)
  -- cars and drive ports
  | driveCommand (k : CarId)
  | driveReply (k : CarId) (r : DriveReply)
  | driveReplyMissing (k : CarId)
  | driveportFault (k : CarId)
  | drivespeedFault (k : CarId)
  | carArrival (k : CarId)
  | runlimExpiry (k : CarId)
  -- doors
  | hallEdge (d : DoorId) (code : BitVec 3) (held : BitVec 8) (cycle : BitVec 14)
  | commutationFault (d : DoorId)
  | doorKeFault (d : DoorId)
  | opentExpiry (d : DoorId)
  | closetExpiry (d : DoorId)
  | doorStall (d : DoorId)
  -- interlocks
  | matrixEval (k : CarId)
  | readbackFault (k : CarId)
  | safePulseReadbackFault
  -- front ends
  | chopSample (x : FeId) (c : ChopSample)
  | offsetTrim (x : FeId)
  | feResult (x : FeId)
  | referenceTrip (run : ReferenceRun)
  | calStart (g : CarId)
  | calDecide (g : CarId)
  | calTimeout (g : CarId)
  -- scan, scrub and self-tests
  | scanJobStart
  | scanJobDone
  | scanJobTimeout
  | scrubVisit (m : Fin 3) (e : ScrubErrors)
  | scrubPassEnd (second : Bool)
  | selftestComplete (code : Byte) (k : CarId) (r : SelftestReading)
  | journalScrub (e : ScrubErrors)
  -- trace
  | traceCaptureStart (c : CkId)
  | traceSample (c : CkId)
  | traceComplete (c : CkId)
  | traceTimeout (c : CkId)
  -- journal
  | journalRecordStart
  | journalCommit (w : RecordWrite)
  | ploadSealDone
  | illegalPacket (p : Packet) (word : Word)
  | tapTck (rising : Bool) (control : TapControl) (tdi : Bool)
  deriving DecidableEq, Repr

end Sys2Proof
end

