-- ==== Sys2Proof/Decode.lean ====
section
/-! DEFINITION. The commands that the opcode table spells as words: none of its rows gives bits (DEDUCED, log entry 10). The words of
the thread instructions that the device itself fetches are decoded by `runWord`. -/

namespace Sys2Proof

/-- The command that a word of the opcode table spells: no row has bits. -/
def decodeTableWord (_nbits _w : Nat) : Option Instr := none

end Sys2Proof
end

