-- ==== Sys2Proof/Config.lean ====
section
/-! DEFINITION. What the silicon fixes and what the manual leaves open. A free value is an opaque constant applied to a
counter of the state or to the operands it depends on: nothing in Lean can evaluate it, so a claim holds whatever it
is. -/

namespace Sys2Proof

/-- An item of the input record of a tick (Table 2-4) that an event of the tick brings. -/
inductive InputItem where
  /-- A compare hit: interface, count, and the edge's stamp (R226). -/
  | compare (i : FbkId) (count : BitVec 32) (stamp : Nat)
  /-- A Z capture: encoder, count, and the pulse's stamp (R222). -/
  | capture (e : Encoder) (count : BitVec 32) (stamp : Nat)
  /-- The feedback count of an interface latched at cycle 0 (R224). -/
  | count (i : FbkId) (count : BitVec 32)
  /-- An SSI word latched at cycle 0 (R230). -/
  | ssi (i : FbkId) (bits : BitVec 64)
  /-- The hall or encoder lines of a door latched at cycle 0 (R276, R278). -/
  | hall (d : DoorId) (lines : BitVec 3)
  /-- A drive port reply received (R267). -/
  | reply (k : CarId) (bytes : List (BitVec 8))
  /-- A front-end result due (R318). -/
  | result (x : FeId) (raw : BitVec 24)
  /-- A corrected single-bit error (R342): memory as in `Flaw`, and word. -/
  | corrected (memory : Fin 6) (word : Nat)
  /-- A nonvolatile write-verify outcome (R343, R353, R356): memory as in `Flaw`, and word. -/
  | verify (memory : Fin 6) (word : Nat) (good : Bool)
  /-- A supply monitor result that takes effect within the tick (R86): rail, level in mV, and whether it begins a warning. -/
  | supply (rail : Fin 5) (mv : BitVec 16) (begins : Bool)
  /-- A trip cause that arises outside the digital core, or the gap detector (R37). -/
  | async (cause : BitVec 5) (syndrome : BitVec 32)
  deriving DecidableEq, Repr

/-- The input record of a tick (Table 2-4): what is latched at its cycle 0, the monitors among it, and the items that its events
bring, first first. -/
structure InputRecord where
  latched : Option TickInputs
  items : List InputItem
  deriving DecidableEq, Repr

end Sys2Proof

namespace Sys2Proof.Config

/-- The tap conversion error of R297, in codes; the caller takes it modulo 5 as -2 to +2 (DESIGN CHOICE, log entry 14). -/
opaque tapError : Nat → BitVec 8

/-- The over-voltage threshold of R298 above 5.15 V, in mV; the caller takes it modulo 101 (DESIGN CHOICE, log entry 14). -/
opaque tapOverVoltage : Nat → BitVec 8

/-- Whether an RST_N pulse shorter than 50 ns is taken (R374) (DESIGN CHOICE, log entry 15). -/
opaque shortResetTaken : Nat → Bool

/-- Whether a word write interrupted without clock or supply holds its new value (R352) (DESIGN CHOICE, log entry 16). -/
opaque interruptedWord : Nat → Bool

/-- Which of the values within two units of the exact function a curve gives, by the curve and its exact input (R322)
(DESIGN CHOICE, log entry 18). -/
opaque curveError : BitVec 4 → Int → BitVec 8

/-- The bytes of an input record (R46, Table 2-4): the manual gives its items and not its format
(DESIGN CHOICE, log entry 19). -/
opaque replayRecord : InputRecord → List (BitVec 8)

/-- TDO of the boundary-scan TAP while it shifts: its registers are not in the manual (R140)
(DESIGN CHOICE, log entry 20). -/
opaque tdo : Nat → Bool

/-- Receive placement: whether the transitions of the frame move a sampling point down, up or leave it (R66)
(DESIGN CHOICE, log entry 21). -/
opaque rxMove : Nat → BitVec 2

/-- SEC_KEYSTATE.KCV of a seat that holds no key: the manual gives it for a key alone (Table 5-4)
(DESIGN CHOICE, log entry 23). -/
opaque emptyKcv : BitVec 3 → BitVec 16

/-- A result that the manual does not state for some operands (a divisor that is unset, a value outside its field), by the
place of the computation and its exact operand (DESIGN CHOICE, log entry 24). -/
opaque openResult : Nat → Int → BitVec 32

/-- A value that the manual leaves open after an event, one for each value of the counter `free`
(DESIGN CHOICE, log entry 25). -/
opaque openWord : Nat → BitVec 32

end Sys2Proof.Config
end

