-- ==== Sys2Proof/Machine/State.lean ====
section
/-! DEFINITION. The state of the TU1224 as plain data: every register of the register index (R360) in the form its
chapter gives it, the state that the chapters name without a register, and the queue of waiting commands. Configuration
that an engine acts on only from the next tick boundary is held twice: as stored by the PUT and as acted on (R386).
Signed quantities are two's-complement bit vectors of the width the chapter gives. -/

namespace Sys2Proof.Machine

/-- Memory as (address, byte) pairs, addresses strictly rising, no byte listed that equals what an unlisted address reads
as (0). One list per memory: data RAM, program store, cam tables, journal (R147, R164, R213, R346). -/
abbrev Mem := List Host.Cell

/-! ### Threads (R142 to R158) -/

/-- FLAGS of a thread (R174). -/
structure Flags where
  z : Bool
  n : Bool
  c : Bool
  v : Bool
  lim : Bool
  deriving DecidableEq, Repr

/-- THR_STATE.STATE (Table 7-9). -/
inductive ThreadState where
  | unused | ready | waiting | dark | halted
  deriving DecidableEq, Repr

/-- THR_STATE.CMD accepted and waiting for the next tick boundary (R157, R158). -/
inductive ThreadCmd where
  | restart | halt
  deriving DecidableEq, Repr

/-- An engine queue of Table 7-6. -/
inductive QueueId where
  | moves (a : AxisId)
  | scan
  | cals (g : CarId)
  | journal
  | traces
  deriving DecidableEq, Repr

/-- A thread and its registers (R142, Table 7-9). -/
structure Thread where
  w : Vector Word 16
  acc : BitVec 40
  pc : BitVec 16
  flags : Flags
  /-- Call stack, latest return address first (R142). -/
  stack : List (BitVec 16)
  /-- Pending events, visible since cycle 0 (R153). -/
  pend : BitVec 16
  /-- Events raised in the present tick (R153). -/
  raised : BitVec 16
  st : ThreadState
  /-- Mask of the WAIT in progress. -/
  mask : BitVec 16
  /-- DEV_TICK at which the WAIT in progress elapses, where it has a limit (R180). -/
  deadline : Option (BitVec 48)
  budget : BitVec 14
  budgetAct : BitVec 14
  last : BitVec 14
  peak : BitVec 14
  entry : BitVec 16
  restart : BitVec 16
  /-- Halted with BUDGET at the start of RUN and not restarted since (R158). -/
  budgetHalt : Bool
  stallMax : BitVec 16
  stallMaxAct : BitVec 16
  stallCnt : BitVec 16
  /-- The thread executed YIELD or WAIT, or spent its slot WAITING, in the present tick (R155). -/
  progressed : Bool
  /-- The thread ran in the present tick (R155). -/
  ran : Bool
  /-- A fault has ended the slot: the thread restarts in its next slot (R156). -/
  mustRestart : Bool
  /-- DEV_TICK of the restarts of the last 1,024 ticks (R157). -/
  restarts : List (BitVec 48)
  restartTotal : BitVec 16
  faultPc : BitVec 16
  faultCode : BitVec 8
  actMask : BitVec 12
  seeMask : BitVec 12
  actMaskAct : BitVec 12
  seeMaskAct : BitVec 12
  cmd : Option ThreadCmd
  /-- Queues that returned FULL to this thread (Table 7-2, CREDIT). -/
  fullOn : List QueueId
  /-- Cycles left of the open slot; 0 outside it (R150, R152). -/
  slotLeft : BitVec 14
  deriving DecidableEq, Repr

/-! ### Control core and power (R72 to R95) -/

/-- DEV_STATE (Table 4-1). -/
inductive DevState where
  | dark | hunt | admitting | run | tripped
  deriving DecidableEq, Repr

/-- The phase of the tick in progress (R18, Table 2-1). Inside Loop, Profile and Close it carries the next place of the fixed
order: loop instance, axis, car. The Latch phase is the Host phase before its first packet. -/
inductive Stage where
  | host
  | loop (next : Nat)
  | output
  | profile (next : Nat)
  | thread
  | close (next : Nat)
  deriving DecidableEq, Repr

/-- A write of the thread window to data RAM, or to a cam table word (behind 30000h), with its cycle and its cluster, or the word
before the first one (cycle 0) (R20, R148, R213). -/
structure RamWrite where
  addr : Nat
  cycle : Nat
  cluster : Nat
  word : Word
  deriving DecidableEq, Repr

/-- The retention cells written at entry to HUNT (R74). -/
structure Retained where
  tick : BitVec 48
  wall : BitVec 48
  cause : BitVec 5
  others : BitVec 13
  syndrome : Word
  deriving DecidableEq, Repr

/-- A running self-test (Table 4-9): its code, its car for a disruptive one, its start tick and its producer's credit. -/
structure ActiveTest where
  code : Byte
  car : CarId
  start : BitVec 48
  credit : Option Nat
  /-- 01h and 02h: the memories whose watched pass has begun, with its corrections and whether it has ended (R344). -/
  watching : List (Fin 3 × BitVec 12 × Bool)
  deriving DecidableEq, Repr

/-- Device state, admission, time and trips (block 0). -/
structure Dev where
  state : DevState
  tick : BitVec 48
  wall : BitVec 48
  cause : BitVec 5
  others : BitVec 13
  syndrome : Word
  /-- Tick and cycle in which the standing cause was detected (R82). -/
  tripAt : Option (BitVec 48 × BitVec 14)
  /-- The trip lies in the present tick: packets not yet executed return STATE (R81). -/
  tripThisTick : Bool
  /-- Causes detected in HUNT, first first (R75). -/
  pendingTrips : List (BitVec 5 × Word)
  retained : Option Retained
  go : Bool
  digest : BitVec 2
  phase : BitVec 4
  steps : BitVec 5
  /-- DEV_TICK at which the step in progress began; the timeline of Table 4-3 counts from here (R78, R77). -/
  stepStart : BitVec 48
  /-- The tests of the step in progress have been run. -/
  stepRun : Bool
  /-- Step 3 runs again after a sealing (R77). -/
  rerun : Bool
  /-- Step 4 waits for a supply warning to clear (R78). -/
  stepHold : Bool
  /-- Wall time of the first frame of the admission has been copied (R43). -/
  wallSeen : Option (BitVec 48)
  testCar : BitVec 4
  testCode : Byte
  testLast : BitVec 2
  testDetail : Byte
  tests : List ActiveTest
  temp : BitVec 16
  /-- DEV_TEMP as it stood in the tick before (R325). -/
  tempPrev : BitVec 16
  otWarn : Bool
  /-- Consecutive ticks at or above TRIP, saturating at 4 (R87). -/
  hotRun : BitVec 3
  uid : BitVec 64
  /-- Cycles of the Host phase used in the present tick (R173). -/
  hostCycles : BitVec 16
  /-- The packet rung has stopped the section (Table 4-10). -/
  hostStopped : Bool
  dropsel : BitVec 2
  /-- RUN ticks so far, saturating at 3 (R311), and whether this is the first one (R158). -/
  runTicks : BitVec 2
  deriving DecidableEq, Repr

/-- PWR_AVSCFG, PWR_MARGIN and PWR_TEMPTRIP (R95). -/
structure PwrCfg where
  vboot : BitVec 6
  vidMax : BitVec 6
  vidMin : BitVec 6
  slackHi : BitVec 6
  slackLo : BitVec 6
  tempTrip : BitVec 16
  tempWarn : BitVec 16
  deriving DecidableEq, Repr

/-- Supplies and the adaptive core voltage (block D). -/
structure Pwr where
  cfg : PwrCfg
  act : PwrCfg
  avsEdge : Bool
  mon : BitVec 4
  slack : BitVec 6
  vid : BitVec 6
  /-- Smallest slack since the last decision, with its monitor (R88). -/
  least : BitVec 6
  leastMon : BitVec 4
  worst : BitVec 6
  /-- The decision of a tick with DEV_TICK mod 1,024 = 0 has yet to be made (R88). -/
  due : Bool
  sticky : BitVec 5
  live : BitVec 5
  railMv : Vector (BitVec 16) 5
  /-- A car became OUT in the present tick, so no power-up starts in it (R92). -/
  islandHold : Bool
  /-- VIO stands above its power-on-reset level: its pins are powered (Tables 4-5 and 19-8). -/
  vioOn : Bool
  deriving DecidableEq, Repr

/-! ### Link (R48 to R71) -/

/-- The RW fields of block 1 (R71). -/
structure LnkCfg where
  drops : BitVec 4
  darkMax : BitVec 5
  slotBase : BitVec 13
  slotLen : BitVec 12
  wadi : BitVec 7
  hold : BitVec 4
  maxStep : BitVec 2
  deadband : BitVec 3
  rxWin : BitVec 6
  eqMax : BitVec 4
  eqMin : BitVec 4
  txEmph : BitVec 2
  traceMask : BitVec 8
  deriving DecidableEq, Repr

/-- A result packet (Table 3-4) as sent: bytes 8 to 23 as one value, byte 8 most significant. -/
structure Result where
  sid : Byte
  status : Byte
  kind : BitVec 16
  seq : Word
  body : Block
  tag : Tag
  deriving DecidableEq, Repr

/-- An up slot as sent (Table 3-5). `start` is in 1/16 cycles of the tick (R60, R65); with an odd LNK_SLOTLEN four zero bits follow
the bytes of the stream area. -/
structure Slot where
  sync : BitVec 64
  start : Int
  status : BitVec 128
  results : List Result
  stream : List Byte
  odd : Bool
  crc : Word
  deriving DecidableEq, Repr

/-- An equalisation trial in progress (R66): lane, the boost before it, the eye width before it, and its first tick. -/
structure EqTrial where
  lane : EqLane
  boost : BitVec 4
  eye : BitVec 16
  start : BitVec 48
  deriving DecidableEq, Repr

/-- The selections of STREAM (R195). -/
inductive StreamSel where
  | none | replay | trace | journal (audit : Bool)
  deriving DecidableEq, Repr

/-- The link MAC and PHY (block 1). -/
structure Lnk where
  cfg : LnkCfg
  act : LnkCfg
  ticklen : BitVec 14
  drop : BitVec 2
  frameSkips : BitVec 16
  frameSkip : Bool
  noFit : Bool
  duneEdge : Bool
  rxEdge : Bool
  eqEdge : Bool
  /-- Latest tick's flags (Table 3-12) and those of the frame being received. -/
  sectBad : Bool
  darkIn : Bool
  deferred : Bool
  frameSkipped : Bool
  pktTotal : BitVec 24
  pktLast : BitVec 5
  darkRun : BitVec 5
  darkTotal : BitVec 16
  crcHeader : BitVec 16
  crcSection : BitVec 16
  /-- Launch offset o, signed (R65), and ticks since its last change, saturating. -/
  txOfs : BitVec 8
  lastErr : BitVec 8
  sinceChange : BitVec 8
  rx0 : BitVec 7
  rx1 : BitVec 7
  home0 : BitVec 7
  home1 : BitVec 7
  eqSck : BitVec 4
  eqDn1 : BitVec 4
  eqDn0 : BitVec 4
  defTotal : BitVec 16
  defRun : BitVec 5
  /-- Index of the first sample that read 1 in the last deferral (Table 4-6). -/
  defIndex : BitVec 4
  gaps : BitVec 16
  frameNo : BitVec 40
  /-- Wall time of the frame received in this tick, copied at cycle 0 of the next (R42). -/
  nextWall : Option (BitVec 48)
  /-- Packets of the good own section received in this tick, and those executing in this tick (R59). -/
  received : List WirePacket
  section_ : List WirePacket
  /-- Results of this tick's packets, in section order (R58). -/
  results : List Result
  status : BitVec 128
  slot : Option Slot
  streamOwner : BitVec 4
  stream : StreamSel
  streamNext : Option (BitVec 4 × StreamSel)
  /-- What is left of a chunk that continues in the next slot: its TYPE and bytes (R62). -/
  chunk : Option (BitVec 4 × List Byte)
  sckRunning : Bool
  /-- The latest frame was dark or carried ADAPT_HOLD: the adaptive loops hold (R65). -/
  adaptHold : Bool
  /-- DEV_TICK of the latest equalisation trial (R66). -/
  lastTrial : Option (BitVec 48)
  /-- The trial setting in force and not yet decided (R66). -/
  eqTrial : Option EqTrial
  /-- The bytes of the input record of the previous tick (R46). -/
  replay : List Byte
  /-- The frame of the present tick has been received (R32). -/
  frameIn : Bool
  deriving DecidableEq, Repr

/-! ### Seats, keys and sessions (R96 to R118) -/

/-- A window entry that is not FREE (R110): EFFECT with the kept result bytes, or SPENT with the refusal code. -/
inductive WinState where
  | effect (body : Block)
  | spent (code : Byte)
  deriving DecidableEq, Repr

/-- A window entry: its sequence, its packet's tag and what is kept of it. -/
structure WinEntry where
  seq : Word
  tag : Tag
  st : WinState
  deriving DecidableEq, Repr

/-- A session (R97, R104, R110 to R114). -/
structure Session where
  isOpen : Bool
  /-- The session answers packets only from the packet after its opening (R104). -/
  seat : BitVec 3
  kMacDown : Block
  kMacUp : Block
  kEncDown : Block
  kEncUp : Block
  high : Word
  window : List WinEntry
  idle : BitVec 20
  macTicks : List (BitVec 48)
  replays : BitVec 16
  echoes : BitVec 16
  nonce : Word
  /-- KEYSET PART 0: the seat and key bytes 0 to 7 (R100). -/
  stage : Option (BitVec 3 × BitVec 64)
  /-- Reason code with which the session closes at the next tick boundary (Table 5-3). -/
  closing : Option (BitVec 8)
  readPtr : Word
  filterCars : BitVec 12
  filterLo : Byte
  filterHi : Byte
  /-- TORN slots with SEQ `readPtr` that have been delivered (R358). -/
  readTorn : Nat
  deriving DecidableEq, Repr

/-- A pending challenge (R103). -/
structure Challenge where
  ch : Block
  seat : BitVec 3
  age : BitVec 9
  deriving DecidableEq, Repr

/-- SEC_KEYSTATE.STATE (Table 5-4). -/
inductive KeyState where
  | empty | isSet | factory | zeroised
  deriving DecidableEq, Repr

/-- A seat key (R98). -/
structure SeatKey where
  key : Block
  state : KeyState
  changes : Byte
  deriving DecidableEq, Repr

/-- A row of the access table: eight words, word w holding row bits [32w+31:32w] (R119). -/
abbrev Row := Vector Word 8

/-- The stage of the access table (R126). -/
structure TableStage where
  rows : Vector Row 8
  owner : BitVec 4
  pressed : Bool
  deriving DecidableEq, Repr

/-- The first UNSTARCH (R133). -/
structure Witness where
  seat : BitVec 3
  age : BitVec 12
  deriving DecidableEq, Repr

/-- SEC_SEAL.STATE (R131). -/
inductive Seal where
  | open_ | sealed_ | broken
  deriving DecidableEq, Repr

/-- A member of the safety parameter set (R130): a CAR member of a car, a DOOR member of a door or an ILK member of a
car, in the order of the register index. -/
inductive SpsId where
  | car (m : Fin 9) (k : CarId)
  | door (m : Fin 6) (d : DoorId)
  | ilk (m : Fin 7) (k : CarId)
  deriving DecidableEq, Repr

/-- The safety parameter set: an absent value is unset (R130). -/
structure Sps where
  car : Vector (Vector (Option Word) 12) 9
  door : Vector (Vector (Option Word) 24) 6
  ilk : Vector (Vector (Option Word) 12) 7
  deriving DecidableEq, Repr

/-- The changes that wait for their audit record (R128). -/
inductive Change where
  | tblpress
  | keyset (seat : Fin 7) (key : Block)
  | zeroize (seats : BitVec 7)
  | secreg (reg : BitVec 6) (channel : BitVec 7) (value : Word)
  | readmit
  | sps (id : SpsId) (value : Word) (keeper : Bool)
  | starch
  | unseal (seat : BitVec 3)
  | darn (addr : BitVec 16) (value : Word)
  deriving DecidableEq, Repr

/-- An accepted audited change (R128): the numbers of its records not yet committed, the SEQ of its latest committed one, and whether
it takes effect at the boundary of the present tick, since all of them were committed before it. -/
structure Audit where
  change : Change
  waits : List Nat
  seq : Word
  due : Bool
  deriving DecidableEq, Repr

/-- A packet credit (R161, R162): its holder session, whether it is a reserved one, and the number its item carries. -/
structure Credit where
  id : Nat
  session : BitVec 4
  seat : BitVec 3
  reserved : Bool
  deriving DecidableEq, Repr

/-- A program load (R165). -/
structure Load where
  owner : BitVec 4
  n : BitVec 17
  /-- SEAL accepted: the expected first eight bytes of the digest, its credit, and the digest once compared with the
  outcome, whose record has the given number. -/
  sealing : Option (BitVec 64 × Option Nat)
  deriving DecidableEq, Repr

/-- The IEEE 1149.1 TAP controller states (R140). -/
inductive TapState where
  | testLogicReset | runTestIdle
  | selectDr | captureDr | shiftDr | exit1Dr | pauseDr | exit2Dr | updateDr
  | selectIr | captureIr | shiftIr | exit1Ir | pauseIr | exit2Ir | updateIr
  deriving DecidableEq, Repr

/-- Secrecy: sessions, keys, table, seal, entropy, credits (block 2). -/
structure Sec where
  sessions : Vector Session 16
  challenges : Vector (Option Challenge) 16
  keys : Vector SeatKey 7
  locked : BitVec 7
  /-- Seats that are locked and whose LOCKED bit a supply warning keeps from being written (R86, R112). -/
  lockDue : BitVec 7
  seatFails : Vector (List (BitVec 48)) 7
  macTotal : BitVec 16
  macMaxSeat : BitVec 6
  macMaxSession : BitVec 4
  sessTo : BitVec 20
  kdfCtx : Word
  table : Vector Row 8
  stage : Option TableStage
  tblGen : Word
  sealSt : Seal
  breaks : Byte
  sealSeat : BitVec 3
  sealEvent : BitVec 2
  sealAudit : BitVec 16
  spsDigest : BitVec 256
  secureMask : BitVec 128
  witness : Option Witness
  witnessTo : BitVec 11
  progDigest : BitVec 256
  progSeal : Option (BitVec 256)
  tapEn : Bool
  tap : TapState
  tdo : Bool
  entropyBuf : List Block
  /-- SEC_ENTROPY.CAUSE; nonzero while the source has failed (R115). -/
  entropyCause : BitVec 2
  entropyRunMax : BitVec 6
  entropyApMax : BitVec 11
  /-- Latest raw bit and the length of its run, saturating; first bit, count and length of the proportion window. -/
  entropyBit : Bool
  entropyRun : BitVec 6
  entropyFirst : Bool
  entropyCount : BitVec 11
  entropyLen : BitVec 11
  /-- Intervals of the grid of R115 that have been taken since admission. -/
  entropyTaken : Nat
  audits : List Audit
  credits : List Credit
  load : Option Load
  deriving DecidableEq, Repr

/-! ### Cars (R248 to R271) and interlocks (R297 to R313) -/

/-- CAR_SERVICE.STATE (Table 12-1). -/
inductive Service where
  | islandOff | out | homing | inspect | in_ | stoppedFault
  deriving DecidableEq, Repr

/-- The islands of a car (R90 to R92): off, in power-up since the given tick, or on. -/
inductive Power where
  | off
  | up (start : BitVec 48)
  | on
  deriving DecidableEq, Repr

/-- A landing of the landing table (Table 12-5). -/
structure Landing where
  p : Word
  front : Bool
  rear : Bool
  zl : Word
  zh : Word
  deriving DecidableEq, Repr

/-- A loaded landing table. -/
structure LandingTable where
  ssiOfs : Word
  rows : List Landing
  deriving DecidableEq, Repr

/-- A call of the stop table (R257): landing, kind (0 car, 1 hall up, 2 hall down), rear door. -/
structure Call where
  landing : BitVec 7
  kind : BitVec 2
  rear : Bool
  deriving DecidableEq, Repr

/-- CAR_DIR.DIR (R259). -/
inductive Dir where
  | idle | up | down
  deriving DecidableEq, Repr

/-- CAR_DPCFG (Table 12-10). -/
structure DpCfg where
  en : Bool
  turnMax : BitVec 4
  missMax : BitVec 2
  spdCnt : BitVec 3
  spdTol : BitVec 16
  deriving DecidableEq, Repr

/-- A schedule table of traffic modes (R270): OFFSET in minutes and entries (minute of the week, mode). -/
structure Schedule where
  offset : BitVec 16
  entries : List (BitVec 14 × BitVec 4)
  deriving DecidableEq, Repr

/-- A car's run for the run-time limiter (R264). -/
structure RunTime where
  running : Bool
  ticks : BitVec 24
  deriving DecidableEq, Repr

/-- The enable pulse test in progress (R312, Table 14-3). -/
structure PulseTest where
  step : BitVec 3
  /-- 0 check low, 1 raise first enable, 2 raise second (step 4), 3 withdraw. -/
  part : BitVec 2
  ticks : BitVec 16
  good : BitVec 2
  pos : Word
  /-- The outcome once the test has ended: 0 passed, otherwise the failing code. -/
  result : Option Byte
  deriving DecidableEq, Repr

/-- The interlock matrix of a car and its enables, bit order DRV, BRK, DOOR from bit 0 (R302 to R312). -/
structure Ilk where
  req : BitVec 3
  permit : BitVec 3
  zgrant : BitVec 3
  pump : BitVec 3
  /-- Levels at the pads as they stand, and as latched at cycle 0 (R38, R307). -/
  pad : BitVec 3
  out : BitVec 3
  rb : BitVec 3
  /-- Latches still to skip after a change of a permit (R309). -/
  skip : Vector (BitVec 8) 3
  /-- Enables whose check mismatched at the latest latch (Table 14-4), at their latest checked latch, and at two consecutive checked
  ones (R309). -/
  mismatch : BitVec 3
  missed : BitVec 3
  twice : BitVec 3
  clampLive : BitVec 8
  clampSticky : BitVec 8
  rbFault : Bool
  rbWhich : BitVec 3
  pulseFault : Bool
  pulseRun : BitVec 2
  zlock : Bool
  zexit : Bool
  winTaps : BitVec 8
  test : Option PulseTest
  deriving DecidableEq, Repr

/-- A safety chain tap (R297 to R301). -/
structure Tap where
  code : Byte
  h : BitVec 16
  lo : BitVec 16
  t : Byte
  high : Bool
  outWin : Bool
  /-- The level is decided against T with no hysteresis at the next latch (R300). -/
  fresh : Bool
  tracking : Bool
  deriving DecidableEq, Repr

/-- A car and its drive port (block 4, R248 to R271). -/
structure Car where
  power : Power
  powerPending : Bool
  /-- The request was accepted in the present tick (R91). -/
  powerFresh : Bool
  /-- Credit that an accepted switch-on holds (R161). -/
  powerCredit : Option Nat
  powerOff : Bool
  islandReq : Bool
  islandItem : Byte
  islandResult : BitVec 2
  service : Service
  why : BitVec 12
  /-- Accepted REQ whose state change waits for the boundary (R249). -/
  goto : Option Service
  pos : Word
  speed : Word
  landing : BitVec 8
  zone : Bool
  level : Bool
  relev : Bool
  dir : Dir
  count : BitVec 8
  ltbase : BitVec 18
  table : Option LandingTable
  tableNext : Option LandingTable
  calls : List Call
  present : Option (BitVec 7)
  /-- A move has ended with E at this landing, and LEVEL has not yet held (R257). -/
  arriving : Option (BitVec 7)
  /-- CAR_ACCEL, formed at cycle 0 (R256). -/
  accel : Word
  reach : BitVec 128
  dpcfg : DpCfg
  mspeed : BitVec 16
  dpStatus : Byte
  dpErr : BitVec 3
  miss : BitVec 2
  spdRun : BitVec 3
  /-- Sequence of the next command frame, the frame awaiting its reply, and the reply waiting for its latch. -/
  dpSeq : Byte
  dpAwait : Option Byte
  /-- The tick in which the frame awaiting its reply was launched (R266, R267). -/
  dpStart : Option (BitVec 48)
  dpLatched : Option (Byte × Word)
  dpGood : Bool
  /-- A good reply has been latched since power-up (R260), and the admission cycle count of the latest bad or missing one (R252). -/
  dpSeen : Bool
  missAt : Nat
  command : List Byte
  slipLast : BitVec 20
  slipChecks : BitVec 12
  run : RunTime
  loadValid : Bool
  overload : Bool
  load : BitVec 16
  schedW : BitVec 16
  modeSrc : Bool
  modeHold : Bool
  mode : BitVec 4
  schedule : Option Schedule
  schedSel : Option (BitVec 14 × BitVec 4)
  faultActive : Bool
  faultOthers : BitVec 12
  faultCause : Byte
  /-- The admission cycle count at which the standing cause was detected (R252). -/
  faultAt : Option Nat
  refl : Byte
  side : Bool
  ql : Byte
  pulseOk : Bool
  /-- The trip of a budget escalation while ISLAND_OFF (R158). -/
  threadFaultPending : Bool
  ilk : Ilk
  deriving DecidableEq, Repr

/-! ### Profile generators (R197 to R216) -/

/-- PRF_STATE (Table 9-1). -/
inductive AxisState where
  | off | idle | moving | stopping | held | homing | cam
  deriving DecidableEq, Repr

/-- A homing configuration captured at acceptance of HOME (R215): PRF_HOMECFG with REF, Q and the step in progress. -/
structure Homing where
  kind : BitVec 2
  dir : Bool
  event : BitVec 2
  speed : BitVec 11
  limit : BitVec 16
  ref : Word
  q : Word
  deriving DecidableEq, Repr

/-- The steps of an EDGE or STALL homing (Table 9-4), with the measured position at the event once latched. -/
inductive HomeStep where
  | search
  | event (q : Word)
  | braking
  | toQ
  deriving DecidableEq, Repr

/-- An item of a move queue (R185). -/
inductive MoveKind where
  | move | moveq | home (h : Homing)
  deriving DecidableEq, Repr

/-- A queued move: target, speed cap, whose packet credit its place holds. -/
structure Move where
  kind : MoveKind
  target : Word
  cap : Option Word
  credit : Option Nat
  deriving DecidableEq, Repr

/-- An axis command waiting for the next advance (R185). -/
inductive AxisCmd where
  | stop
  | stopat (landing : BitVec 7) (p : Word)
  | resume
  | engage (table : BitVec 4) (master : AxisId)
  | release
  | reopen (target : Word)
  | purge
  deriving DecidableEq, Repr

/-- Working limits of an advance in tick units (R199, R203). -/
structure Limits where
  vt : Nat
  at_ : Nat
  dt : Nat
  jt : Nat
  deriving DecidableEq, Repr

/-- A profile axis (block 8). Position, velocity and acceleration have 48 fractional bits (R199). -/
structure Axis where
  st : AxisState
  seam : Bool
  p : BitVec 80
  v : BitVec 80
  a : BitVec 80
  /-- p after the previous Profile phase, which cams read (R214). -/
  pPrev : BitVec 80
  e : BitVec 80
  cap : Option Nat
  target : Word
  remain : Word
  /-- The landing of the STOPAT that stands (R207, Table 12-10). -/
  stopAt : Option (BitVec 7)
  vlim : Word
  alim : Word
  dlim : Word
  jlim : Word
  working : Limits
  queue : List Move
  seamTol : BitVec 20
  camStage : Option (BitVec 4 × BitVec 9 × BitVec 16)
  engaged : Option (BitVec 4 × AxisId)
  lastTable : BitVec 4
  lastMaster : BitVec 6
  homeCfg : Word
  homing : Option (Homing × HomeStep)
  homed : Bool
  limited : Bool
  discard : Bool
  homeFail : Bool
  camLim : Bool
  camEdge : Bool
  limSeen : Bool
  /-- A move has been taken (R210), or a cam engaged (R214), in the advance of the present tick. -/
  taken : Bool
  cmds : List AxisCmd
  deriving DecidableEq, Repr

/-! ### Feedback (R217 to R232) -/

/-- FBK_MODE.MODE. -/
inductive FbkMode where
  | off | quad | ssi | switch
  deriving DecidableEq, Repr

/-- FBK registers that act from the next boundary (R218, R227). -/
structure FbkCfg where
  mode : FbkMode
  dirInv : Bool
  spdTicks : Byte
  swTicks : Byte
  cycles : BitVec 5
  hyst : Bool
  thresh : BitVec 10
  dzLine : BitVec 2
  adj : Bool
  codes : Byte
  ssi : Word
  scale : Word
  divNum : BitVec 16
  divDen : BitVec 16
  deriving DecidableEq, Repr

/-- An SSI read in progress: the tick in which it started, FBK_SSICFG in force then, and CAR_POS latched then (R229, R262). -/
structure SsiRead where
  start : BitVec 48
  ssi : Word
  carPos : Word
  deriving DecidableEq, Repr

/-- A feedback interface (block 6). -/
structure Fbk where
  cfg : FbkCfg
  act : FbkCfg
  /-- The filtered levels A, B (R220). -/
  ab : BitVec 2
  count : Word
  latched : Word
  speed : Word
  /-- Direction of the last counted edge, up = true, and a held reverse edge with its stamp (R224). -/
  dir : Option Bool
  held : Option Nat
  /-- Counted edges of the run in progress, latest first: stamp and count (R225). -/
  edges : List (Nat × Word)
  pos : Word
  zSeen : Bool
  valid : Bool
  raw : BitVec 3
  code : BitVec 3
  rawRun : BitVec 8
  /-- CAR_POS at the first latch of the run in which the door-zone line holds its new level (R262). -/
  t0 : Option Word
  errTicks : List (BitVec 48)
  errLast : BitVec 4
  errs : BitVec 16
  /-- The admission cycle count of the latest input error (R231, R252). -/
  errAt : Nat
  cmpBase : Word
  cmpArm : Bool
  /-- CMPNEXT as an edge of cycle 0 still sees it in the tick in which a PUT to FBK_CMPBASE has acted (R226). -/
  cmpOld : Option Word
  cmpStep : Word
  cmpNext : Word
  cmpHits : Word
  ofs : BitVec 64
  divAcc : BitVec 17
  /-- FBK_DIVNUM or FBK_DIVDEN has been written in this tick (R227). -/
  divWritten : Bool
  /-- Quadrature phase of the repeat outputs, steps modulo 4, and the latest steps with the stamps of their edges and the phase before
  each, latest first (R227). -/
  rep : BitVec 2
  reps : List (Nat × BitVec 2)
  ssiRead : Option SsiRead
  /-- Admission cycle count before which no read starts: the end of the latest one and the MONO pause (R229). -/
  ssiFree : Nat
  /-- Some read has been valid since power-up, and its hoistway position data (R263). -/
  everValid : Bool
  deriving DecidableEq, Repr

/-! ### Loop engine and trace (R233 to R247) -/

/-- The writable LOOP registers (R242). -/
structure LoopCfg where
  run : Bool
  bfp : Bool
  kp : Word
  ki : Word
  kd : Word
  kff : Word
  imin : Word
  imax : Word
  omin : Word
  omax : Word
  gexp : BitVec 6
  insh : BitVec 5
  outsh : BitVec 4
  div : Byte
  modelA : Word
  modelB : Word
  resBand : Word
  resMax : Byte
  satMax : BitVec 16
  deriving DecidableEq, Repr

/-- The signals of the latest run that a trace can take (Table 11-2). -/
structure LoopSignals where
  r : Int
  y : Int
  e : Int
  pTerm : Int
  iTerm : Int
  dTerm : Int
  fTerm : Int
  u : Int
  res : Int
  deriving DecidableEq, Repr

/-- A loop instance (block 7). -/
structure Loop where
  cfg : LoopCfg
  act : LoopCfg
  ireset : Bool
  clearFault : Bool
  starting : Bool
  yp : Int
  up : Int
  i : Int
  u : Word
  resRun : Byte
  resLast : BitVec 16
  satRun : BitVec 16
  satTotal : BitVec 16
  trFaulted : BitVec 8
  trTriggered : BitVec 8
  fault : BitVec 2
  active : Bool
  sat : Bool
  iHeld : Bool
  iClamp : Bool
  /-- The loop has run in the present tick, and that run was checked against its model (R239, R240). -/
  ran : Bool
  judged : Bool
  /-- The enables as latched force the loop off (R286, R308); 0 at power-up (Table 11-5). -/
  lowEnable : Bool
  sig : LoopSignals
  deriving DecidableEq, Repr

/-- A trace item waiting in the trace queue (R243, R244). -/
structure TraceItem where
  channel : BitVec 3
  source : Word
  trigger : Word
  producer : Option ThreadId
  /-- Effective level of the producer at acceptance, 0 for a thread (R243). -/
  level : BitVec 2
  secured : Bool
  credit : Option Nat
  deriving DecidableEq, Repr

/-- A running capture (R244, R245): the samples kept so far, latest first, the number taken, the index of the triggering one,
whether the unit that owns the source was in a fault state when last seen, and whether it has entered one since the last
sample. -/
structure Capture where
  item : TraceItem
  start : BitVec 48
  samples : List Word
  taken : Nat
  trig : Option Nat
  was : Bool
  entered : Bool
  deriving DecidableEq, Repr

/-- A trace block waiting to be sent (R246). -/
structure TraceBlock where
  channel : BitVec 3
  endFault : Bool
  triggered : Bool
  source : Word
  start : BitVec 48
  trigIndex : BitVec 16
  samples : List Word
  deriving DecidableEq, Repr

/-! ### Doors (R272 to R296) -/

/-- DOOR_MOTOR.TYPE (Table 13-1). -/
inductive MotorType where
  | none | pmsm | stepper | bdc
  deriving DecidableEq, Repr

/-- DOOR_STATE.STATE (Table 13-2). -/
inductive DoorState where
  | closedLocked | closed | opening | open_ | closing | reversing | nudging | stopped | homing | learning | fault
  deriving DecidableEq, Repr

/-- The writable DOOR registers that act from the next boundary (R296). -/
structure DoorCfg where
  width : BitVec 22
  learned : Bool
  umrev : BitVec 20
  type : MotorType
  cpr : BitVec 16
  poles : Byte
  iscale : BitVec 16
  div : BitVec 2
  deadt : Byte
  iboost : BitVec 16
  base : BitVec 16
  mass : BitVec 16
  kt : BitVec 16
  obstTicks : Byte
  obstPerr : Byte
  obstForce : BitVec 16
  nudgeAfter : Byte
  nudgeSpeed : BitVec 16
  hallOffset : BitVec 16
  hallInv : Bool
  hallCycles : BitVec 5
  hallCodes : Byte
  sel : BitVec 2
  reopenMaster : Bool
  lockTap : BitVec 3
  lockWin : BitVec 16
  homeRef : BitVec 16
  stallT : Byte
  qOpen : Bool
  learnSpeed : Byte
  minW : BitVec 10
  maxW : BitVec 10
  deriving DecidableEq, Repr

/-- A width learn in progress (R294): false while searching, true on the way back; the candidate width. -/
structure Learn where
  returning : Bool
  candidate : Option Word
  deriving DecidableEq, Repr

/-- What drives the two gates of a leg (R273, R274, R280): both low, or the compares of a duty in 1/2^31, 0 to 2^31. -/
inductive Leg where
  | low
  | duty (n : Int)
  deriving DecidableEq, Repr

/-- A door operator (block 5). -/
structure Door where
  cfg : DoorCfg
  act : DoorCfg
  st : DoorState
  hot : Bool
  pos : Word
  speed : Word
  /-- Iq latched at cycle 0, and the zero codes of IU and IV (R275). -/
  iq : BitVec 16
  zeroU : BitVec 12
  zeroV : BitVec 12
  /-- Current limit L of the speed stage (R283). -/
  limit : BitVec 16
  atCap : Bool
  force : BitVec 16
  ke : Word
  keRun : BitVec 3
  obstRun : BitVec 8
  obstLast : BitVec 2
  obstCount : BitVec 16
  revCycle : Byte
  revTotal : BitVec 16
  armed : Bool
  openTimer : BitVec 24
  closeTimer : BitVec 24
  /-- Hall code in force (R276). -/
  hall : BitVec 3
  /-- The filtered lines HC, HB, HA as they stand, highest bit first (R219, R276, R278). -/
  hallRaw : BitVec 3
  /-- The hall edges since the latest latch, first first: stamp and code (R277). -/
  arrived : List (Nat × BitVec 3)
  angle : BitVec 16
  angleMode : BitVec 2
  /-- The boundary of the latest hall edge, unwrapped and counted from OFFSET (PMSM), or the encoder count (R277, R278). -/
  turns : Int
  /-- The count of an encoder as latched at cycle 0, and as it stood at the latest sample instant of the currents (R275, R280). -/
  count : Int
  atSample : Int
  /-- Stamp and direction of the latest edge, and the time Δ to the one before, 0 where ω is 0 (R277). -/
  edgeAt : Option Nat
  edgeDir : Option Bool
  edgeGap : Nat
  edges : List (Nat × Int)
  zCount : Option Int
  hallRun : BitVec 2
  hallLast : BitVec 4
  hallErrs : BitVec 16
  illegalRun : BitVec 2
  /-- The admission cycle count at which RUN has reached 2, until the door takes that fault or REQ CLEAR ends it (R279, R291). -/
  commAt : Option Nat
  angErr : BitVec 16
  angMax : BitVec 16
  conf : Bool
  learn : Option Learn
  learnResult : BitVec 3
  stallRun : BitVec 8
  faultActive : Bool
  faultOthers : BitVec 12
  faultCause : Byte
  /-- The admission cycle count at which the standing cause was detected (R291). -/
  faultAt : Option Nat
  ofs : BitVec 64
  /-- REQ CLEAR accepted, acting at the boundary (R291). -/
  clearing : Bool
  /-- A valid temperature result has arrived since power-up (R286), and the latest one is a TEMP condition (R291). -/
  tempSeen : Bool
  tempBad : Bool
  /-- Legs U, V, W as the compares in force drive them, and as latched at cycle 1,280 for the next tick (R274, R280). -/
  legs : Vector Leg 3
  legsNext : Vector Leg 3
  deriving DecidableEq, Repr

/-! ### Front ends (R314 to R331) -/

/-- FE_TYPE.TYPE (Table 15-1). -/
inductive FeType where
  | off | bridge | rtd | tc | ntc
  deriving DecidableEq, Repr

/-- The writable FE registers (R331). -/
structure FeCfg where
  type : FeType
  curve : BitVec 4
  gain : BitVec 3
  burn : Bool
  ac : Bool
  ix : BitVec 2
  level : BitVec 2
  notch : BitVec 2
  rate : BitVec 5
  polyBase : BitVec 18
  src : BitVec 3
  zero : BitVec 24
  /-- ZERO has been set since the last change of TYPE, GAIN or EXCITE (R327, R331). -/
  zset : Bool
  span : Word
  win : Byte
  pp : BitVec 24
  sband : BitVec 16
  zband : BitVec 16
  deriving DecidableEq, Repr

/-- A coefficient m × 2^e of a coefficient block (R323). -/
structure Coef where
  m : Word
  e : BitVec 8
  deriving DecidableEq, Repr

/-- A calibration item (R326). -/
structure CalItem where
  channel : FeId
  span : Bool
  ref : Word
  producer : Option ThreadId
  credit : Option Nat
  deriving DecidableEq, Repr

/-- A running calibration: its start tick and the results of its window, latest first (absent = invalid). -/
structure CalRun where
  item : CalItem
  start : BitVec 48
  results : List (Option (BitVec 24))
  deriving DecidableEq, Repr

/-- The calibration queue of a front-end group (R326). -/
structure CalGroup where
  queue : List CalItem
  /-- The item at the head has stood there at a tick boundary (R326). -/
  ready : Bool
  running : Option CalRun
  deriving DecidableEq, Repr

/-- A front-end channel (block 9). -/
structure Fe where
  cfg : FeCfg
  act : FeCfg
  raw : BitVec 24
  value : Word
  live : BitVec 4
  sticky : BitVec 4
  form : BitVec 4
  coefs : List Coef
  /-- A coefficient block accepted and waiting for the boundary (R323). -/
  coefsNext : Option (BitVec 4 × List Coef)
  calRes : BitVec 4
  valid : Bool
  ofsEdge : Bool
  otrim : BitVec 8
  /-- Chop samples since FILLED was cleared, latest first: s+ - s- in 1/256 of an FE_RAW unit, the clamps, and the admission cycle count at which each ended
  (R316, R318, R321). -/
  samples : List (Int × BitVec 4 × Nat)
  /-- The admission cycle count at which the latest chop sample ended (R316). -/
  chopAt : Nat
  /-- Sum, in 1/512 of an FE_RAW unit, of the offset estimates of the average in progress and their number (R317). -/
  ofsSum : Int
  ofsCount : BitVec 11
  /-- The latest valid value as it stood after the previous tick's latch (R325). -/
  prevValue : Word
  prevValid : Bool
  /-- The tick of the latest result (R319). -/
  resultAt : Option (BitVec 48)
  deriving DecidableEq, Repr

/-! ### Scan engine (R332 to R345) -/

/-- The settings of a check-value channel (R336). -/
structure CkCfg where
  refOut : Bool
  refIn : Bool
  sel : BitVec 2
  init : Word
  xorOut : Word
  mode : BitVec 2
  cont : Bool
  deriving DecidableEq, Repr

/-- A check-value channel (block B). -/
structure Ck where
  cfg : CkCfg
  val : Word
  space : BitVec 2
  start : BitVec 18
  outcome : BitVec 3
  done : BitVec 18
  fails : BitVec 16
  jobs : BitVec 16
  deriving DecidableEq, Repr

/-- A scan job with its captured settings (R336). -/
structure ScanJob where
  ck : CkId
  cfg : CkCfg
  space : BitVec 2
  start : BitVec 18
  len : BitVec 19
  producer : Option ThreadId
  credit : Option Nat
  /-- Tick and cycle of its acceptance (R338). -/
  tick : BitVec 48
  cycle : Nat
  deriving DecidableEq, Repr

/-- A running job: its start tick, the register after the bytes read so far, the engine cycles it has used, and the expected bytes
read so far (R337, R338). -/
structure ScanRun where
  job : ScanJob
  start : BitVec 48
  reg : Word
  spent : Nat
  expected : List Byte
  deriving DecidableEq, Repr

/-- Scrub of one memory (R342). -/
structure Scrub where
  rate : BitVec 4
  corr : BitVec 12
  next : BitVec 16
  /-- The memory has been visited in the present tick. -/
  visited : Bool
  deriving DecidableEq, Repr

/-- The scan and check-value engine. -/
structure Scan where
  cks : Vector Ck 8
  queue : List ScanJob
  running : Option ScanRun
  /-- The next cycle of the present tick in which the engine works (R338). -/
  cycle : Nat
  scrub : Vector Scrub 3
  deriving DecidableEq, Repr

/-! ### Journal (R346 to R359) -/

/-- A record waiting in the journal queue (R159). -/
structure JRecord where
  id : Nat
  type : Byte
  source : Byte
  flags : Byte
  body : List Byte
  credit : Option Nat
  producer : Option ThreadId
  deriving DecidableEq, Repr

/-- A record being written (R353): its item, the word address of its slot, its SEQ, its chain value and its sixteen words
with STATE COMMITTED. -/
structure JWriting where
  item : JRecord
  slot : BitVec 18
  seq : Word
  chain : Block
  words : List Word
  /-- The TRIP record takes no place in the queue (R354). -/
  fromQueue : Bool
  /-- The write that a stop of SCK has interrupted; the words before it are written (R352). -/
  cut : Option Nat
  deriving DecidableEq, Repr

/-- The journal (block C). -/
structure Journal where
  queue : List JRecord
  writing : Option JWriting
  nextId : Nat
  fault : Bool
  dropped : BitVec 7
  loss : Bool
  admission : BitVec 16
  nextAdmission : BitVec 16
  auditHead : BitVec 13
  auditCount : Word
  auditReserved : BitVec 13
  auditChain : Block
  opHead : Word
  opTail : Word
  /-- Next operational slot (R348). -/
  opNext : BitVec 14
  opChain : Block
  tornFound : Bool
  tornArea : Bool
  tornTotal : BitVec 16
  laps : Word
  /-- A record has been started in the present tick (R351), and the scrub has read its words (R356). -/
  started : Bool
  scrubbed : Bool
  /-- Recovery has rebuilt the registers of this admission and queued its records, so that others may follow (R43, R355). -/
  ready : Bool
  /-- Recovery has met a supply warning: its OPEN slots become TORN once none stands, before a record starts (R86, R355). -/
  tornWaits : Bool
  /-- A TRIP record waits ahead of the queue (R354). -/
  tripDue : Bool
  /-- Last-word area, its volatile copy, and LWSTATE (R357). -/
  lastWord : Vector Word 8
  volatile : Option (Vector Word 8)
  lwState : BitVec 2
  scrubNext : BitVec 18
  deriving DecidableEq, Repr

/-! ### The machine -/

/-- The memories of the device, each as bytes by address: data RAM (R147), the program store with byte 4w of
word w holding its bits [31:24] (R164, R335), cam memory (R213), and the journal (R346). -/
structure Mems where
  ram : Mem
  prog : Mem
  cam : Mem
  journal : Mem
  deriving DecidableEq, Repr

/-- Everything the device holds but its memories: registers, queues and what the chapters name without a register. -/
structure Chip where
  dev : Dev
  pwr : Pwr
  lnk : Lnk
  sec : Sec
  sps : Sps
  threads : Vector Thread 48
  cars : Vector Car 12
  doors : Vector Door 24
  taps : Vector Tap 96
  axes : Vector Axis 36
  fbks : Vector Fbk 24
  loops : Vector Loop 84
  fes : Vector Fe 48
  cals : Vector CalGroup 12
  scan : Scan
  traceQueue : List TraceItem
  captures : Vector (Option Capture) 8
  /-- Blocks complete or ended, in order of completion (R246). -/
  blocks : List TraceBlock
  /-- The four sine tables of 256 entries (R281). -/
  sine : Vector (List (BitVec 16)) 4
  /-- Entries written by DOOR_SINTAB, acting at the boundary: table, entry, value. -/
  sineNext : List (BitVec 2 × BitVec 8 × BitVec 16)
  journal : Journal
  stage : Stage
  /-- The words that hold a bit error (R342, R356). -/
  flaws : List Flaw
  /-- The input record of the tick in progress (R46, Table 2-4). -/
  inputs : InputRecord
  /-- The writes of the present thread window (R20, R148). -/
  ramLog : List RamWrite
  /-- Cycle and cluster of the latest instruction that a thread has started in the present thread window (R20). -/
  turn : Nat × Nat
  /-- The model's own counter of free values drawn. -/
  free : Nat
  /-- The model's own counter that numbers packet credits. -/
  nextCredit : Nat
  deriving DecidableEq, Repr

/-- The state of the TU1224: the commands waiting, first in, first out, the memories and the rest of the device. -/
structure State where
  pending : List Instr
  mem : Mems
  chip : Chip
  deriving DecidableEq, Repr

/-! ### Reset values

Each `init` is the part as its reset event of Table 18-1 leaves it: entry to HUNT for threads and the link, power-up of the
car's islands for cars, doors, axes, feedback, loops and front ends. -/

/-- A thread on entry to HUNT: every field 0 (R166). -/
def Thread.init : Thread :=
  { w := Vector.replicate 16 0, acc := 0, pc := 0, flags := ⟨false, false, false, false, false⟩, stack := [], pend := 0,
    raised := 0, st := .unused, mask := 0, deadline := none, budget := 0, budgetAct := 0, last := 0, peak := 0, entry := 0,
    restart := 0, budgetHalt := false, stallMax := 0, stallMaxAct := 0, stallCnt := 0, progressed := false, ran := false, mustRestart := false,
    restarts := [], restartTotal := 0, faultPc := 0, faultCode := 0, actMask := 0, seeMask := 0, actMaskAct := 0,
    seeMaskAct := 0, cmd := none, fullOn := [], slotLeft := 0 }

/-- Block 0 on leaving DARK (Table 4-11, R40, R42, R74). -/
def Dev.init : Dev :=
  { state := .hunt, tick := 0, wall := 0, cause := 0, others := 0, syndrome := 0, tripAt := none, tripThisTick := false,
    pendingTrips := [], retained := none, go := false, digest := 0, phase := 0, steps := 0, stepStart := 0,
    stepRun := false, rerun := false, stepHold := false, wallSeen := none, testCar := 0, testCode := 0, testLast := 0, testDetail := 0, tests := [],
    temp := 0, tempPrev := 0, otWarn := false, hotRun := 0, uid := 0, hostCycles := 0, hostStopped := false,
    dropsel := 0, runTicks := 0 }

/-- The RW fields of block D (Table 4-11). -/
def PwrCfg.init : PwrCfg :=
  { vboot := 63, vidMax := 63, vidMin := 0, slackHi := 24, slackLo := 12, tempTrip := 14500, tempWarn := 13500 }

/-- Block D on leaving DARK (Table 4-11) (DESIGN CHOICE, log entry 8). -/
def Pwr.init : Pwr :=
  { cfg := PwrCfg.init, act := PwrCfg.init, avsEdge := false, mon := 0, slack := 0, vid := 63, least := 63, leastMon := 0,
    worst := 0, due := false, sticky := 0, live := 0, railMv := Vector.replicate 5 0,
    islandHold := false, vioOn := true }

/-- The RW fields of block 1 (Table 3-12). -/
def LnkCfg.init : LnkCfg :=
  { drops := 15, darkMax := 4, slotBase := 320, slotLen := 1500, wadi := 24, hold := 4, maxStep := 1, deadband := 2,
    rxWin := 8, eqMax := 15, eqMin := 0, txEmph := 1, traceMask := 0 }

/-- Block 1 on entry to HUNT (R71) (DESIGN CHOICE, log entry 7). -/
def Lnk.init : Lnk :=
  { cfg := LnkCfg.init, act := LnkCfg.init, ticklen := 0, drop := 0, frameSkips := 0, frameSkip := false,
    noFit := false, duneEdge := false, rxEdge := false, eqEdge := false, sectBad := false, darkIn := false,
    deferred := false, frameSkipped := false, pktTotal := 0, pktLast := 0, darkRun := 0, darkTotal := 0, crcHeader := 0,
    crcSection := 0, txOfs := 0, lastErr := 0, sinceChange := 255, rx0 := 0, rx1 := 0, home0 := 0, home1 := 0, eqSck := 0,
    eqDn1 := 0, eqDn0 := 0, defTotal := 0, defRun := 0, defIndex := 0, gaps := 0, frameNo := 0, nextWall := none,
    received := [], section_ := [], results := [], status := 0, slot := none, streamOwner := 0,
    stream := .none, streamNext := none, chunk := none, sckRunning := true, adaptHold := false, lastTrial := none, eqTrial := none,
    replay := [], frameIn := false }

/-- A closed session (R114, Table 5-4, R359). -/
def Session.init : Session :=
  { isOpen := false, seat := 0, kMacDown := 0, kMacUp := 0, kEncDown := 0, kEncUp := 0, high := 0, window := [], idle := 0,
    macTicks := [], replays := 0, echoes := 0, nonce := 0, stage := none, closing := none, readPtr := 0,
    filterCars := 0xFFF, filterLo := 0, filterHi := 0xFF, readTorn := 0 }

/-- A row of the access table from its words 0 to 4; words 5 to 7 are reserved, 0 (Table 6-1). -/
def Row.ofWords (w0 w1 w2 w3 w4 : Word) : Row := #v[w0, w1, w2, w3, w4, 0, 0, 0]

/-- The access table as shipped (Tables 6-5 and 6-6), seats 0 to 7. -/
def factoryTable : Vector Row 8 :=
  #v[Row.ofWords 0xFFFFFF7F 0x0003FFFF 0x00003FFF 0x0FFF0FFF 0x0000001C,
     Row.ofWords 0x55555555 0x00015555 0x00001BE0 0x0FFF0FFF 0x0000001C,
     Row.ofWords 0xFFFFFD7D 0x0003FFFF 0x00001FFF 0x0FFF0FFF 0x0000001C,
     Row.ofWords 0x14D54345 0x00011401 0x00000240 0x00000FFF 0x0000001D,
     Row.ofWords 0x35F7D151 0x00014441 0x00000C4F 0x0FFF0FFF 0x00000014,
     Row.ofWords 0x14555055 0x00010501 0x00000B60 0x00000FFF 0x00000012,
     Row.ofWords 0xF5757C5D 0x0001DFFD 0x00001F7F 0x0FFF0FFF 0x00000011,
     Row.ofWords 0x00000011 0x00000000 0x00000000 0x00000000 0x00000003]

/-- The seat keys as shipped: KEEPER's factory key, the others empty (Table 5-1). The key's value is open
(DESIGN CHOICE, log entry 6). -/
def factoryKeys : Vector SeatKey 7 :=
  #v[⟨0, .factory, 0⟩, ⟨0, .empty, 0⟩, ⟨0, .empty, 0⟩, ⟨0, .empty, 0⟩, ⟨0, .empty, 0⟩, ⟨0, .empty, 0⟩, ⟨0, .empty, 0⟩]

/-- Block 2 and the secrecy engine on entry to HUNT of a device as shipped (Tables 5-4 and 6-9, R131). -/
def Sec.init : Sec :=
  { sessions := Vector.replicate 16 Session.init, challenges := Vector.replicate 16 none, keys := factoryKeys, locked := 0, lockDue := 0,
    seatFails := Vector.replicate 7 [], macTotal := 0, macMaxSeat := 32, macMaxSession := 8, sessTo := 20000, kdfCtx := 0,
    table := factoryTable, stage := none, tblGen := 0, sealSt := .open_, breaks := 0, sealSeat := 0, sealEvent := 0,
    sealAudit := 0, spsDigest := 0, secureMask := 0, witness := none, witnessTo := 1024, progDigest := 0, progSeal := none,
    tapEn := false, tap := .testLogicReset, tdo := false, entropyBuf := [], entropyCause := 0, entropyRunMax := 0,
    entropyApMax := 0, entropyBit := false, entropyRun := 0, entropyFirst := false, entropyCount := 0, entropyLen := 0, entropyTaken := 0,
    audits := [], credits := [], load := none }

/-- The safety parameter set as shipped: every value unset (R130). -/
def Sps.init : Sps :=
  { car := Vector.replicate 9 (Vector.replicate 12 none), door := Vector.replicate 6 (Vector.replicate 24 none),
    ilk := Vector.replicate 7 (Vector.replicate 12 none) }

/-- The interlock part of a car at power-up (R313). -/
def Ilk.init : Ilk :=
  { req := 0, permit := 0, zgrant := 0, pump := 0, pad := 0, out := 0, rb := 0, skip := Vector.replicate 3 0, mismatch := 0, missed := 0,
    twice := 0, clampLive := 0, clampSticky := 0, rbFault := false, rbWhich := 0, pulseFault := false, pulseRun := 0,
    zlock := false, zexit := false, winTaps := 0, test := none }

/-- A safety chain tap at power-up (R300). -/
def Tap.init : Tap :=
  { code := 0, h := 0, lo := 0, t := 0, high := false, outWin := false, fresh := true, tracking := false }

/-- CAR_DPCFG at reset: 0413_0064h (Table 12-10). -/
def DpCfg.init : DpCfg := { en := false, turnMax := 4, missMax := 1, spdCnt := 3, spdTol := 100 }

/-- A car with its islands off; its registers at their power-up values (R271). -/
def Car.init : Car :=
  { power := .off, powerPending := false, powerFresh := false, powerCredit := none, powerOff := false, islandReq := false, islandItem := 0,
    islandResult := 0, service := .islandOff, why := 0, goto := none, pos := 0, speed := 0, landing := 0, zone := false,
    level := false, relev := false, dir := .idle, count := 0, ltbase := 0, table := none, tableNext := none,
    calls := [], present := none, arriving := none, accel := 0, reach := 0, dpcfg := DpCfg.init, mspeed := 0, dpStatus := 0, dpErr := 0,
    miss := 0, spdRun := 0, dpSeq := 0, dpAwait := none, dpStart := none, dpLatched := none, dpGood := false, dpSeen := false, missAt := 0, command := [],
    slipLast := 0, slipChecks := 0, run := ⟨false, 0⟩, loadValid := false, overload := false, load := 0, schedW := 0,
    modeSrc := false, modeHold := false, mode := 0, schedule := none, schedSel := none, faultActive := false,
    faultOthers := 0, faultCause := 0, faultAt := none, refl := 0, side := false, ql := 0, pulseOk := false, threadFaultPending := false,
    ilk := Ilk.init }

/-- An axis with its island off: at rest at 0, FIRM for car axes and SEAM for door axes (R216). -/
def Axis.init (a : AxisId) : Axis :=
  { st := .off, seam := decide (12 ≤ a.val), p := 0, v := 0, a := 0, pPrev := 0, e := 0, cap := none, target := 0,
    remain := 0, stopAt := none, vlim := 0, alim := 0, dlim := 0, jlim := 0, working := ⟨0, 0, 0, 0⟩, queue := [], seamTol := 0,
    camStage := none, engaged := none, lastTable := 0, lastMaster := 0, homeCfg := 0, homing := none, homed := false,
    limited := false, discard := false, homeFail := false, camLim := false, camEdge := false,
    limSeen := false, taken := false, cmds := [] }

/-- The FBK configuration at power-up (R232). -/
def FbkCfg.init : FbkCfg :=
  { mode := .off, dirInv := false, spdTicks := 16, swTicks := 2, cycles := 2, hyst := true, thresh := 8, dzLine := 1,
    adj := true, codes := 0, ssi := 0x0FAC0401, scale := 0, divNum := 0, divDen := 1 }

/-- A feedback interface at power-up (R232). -/
def Fbk.init : Fbk :=
  { cfg := FbkCfg.init, act := FbkCfg.init, ab := 0, count := 0, latched := 0, speed := 0, dir := none,
    held := none, edges := [], pos := 0, zSeen := false, valid := false, raw := 0, code := 0, rawRun := 0, t0 := none,
    errTicks := [], errLast := 0, errs := 0, errAt := 0, cmpBase := 0, cmpArm := false, cmpOld := none, cmpStep := 0, cmpNext := 0, cmpHits := 0,
    ofs := 0, divAcc := 0, divWritten := false, rep := 0, reps := [], ssiRead := none, ssiFree := 0, everValid := false }

/-- LOOP_DIV at reset: 1 for current, 4 for speed, 16 for position stages, 8 for car loops (R234). -/
def loopDivReset (l : LoopId) : Byte :=
  if 72 ≤ l.val then 8 else if l.val % 3 = 0 then 1 else if l.val % 3 = 1 then 4 else 16

/-- The LOOP configuration at power-up (R247). -/
def LoopCfg.init (l : LoopId) : LoopCfg :=
  { run := false, bfp := false, kp := 0, ki := 0, kd := 0, kff := 0, imin := 0, imax := 0, omin := 0, omax := 0, gexp := 0,
    insh := 0, outsh := 0, div := loopDivReset l, modelA := 0, modelB := 0, resBand := 0, resMax := 16, satMax := 0 }

/-- A loop instance at power-up (R247). -/
def Loop.init (l : LoopId) : Loop :=
  { cfg := LoopCfg.init l, act := LoopCfg.init l, ireset := false, clearFault := false, starting := true, yp := 0, up := 0, i := 0, u := 0, resRun := 0, resLast := 0, satRun := 0, satTotal := 0,
    trFaulted := 0, trTriggered := 0, fault := 0, active := false, sat := false, iHeld := false, iClamp := false, ran := false, judged := false,
    lowEnable := false, sig := ⟨0, 0, 0, 0, 0, 0, 0, 0, 0⟩ }

/-- The DOOR configuration at power-up (R296). -/
def DoorCfg.init : DoorCfg :=
  { width := 0, learned := false, umrev := 0, type := .none, cpr := 0, poles := 0, iscale := 0, div := 0, deadt := 0,
    iboost := 0, base := 0, mass := 0, kt := 0, obstTicks := 0, obstPerr := 0, obstForce := 0, nudgeAfter := 0,
    nudgeSpeed := 100, hallOffset := 0, hallInv := false, hallCycles := 2, hallCodes := 0x7E, sel := 0,
    reopenMaster := true, lockTap := 0, lockWin := 0, homeRef := 0, stallT := 16, qOpen := false, learnSpeed := 0,
    minW := 0, maxW := 0 }

/-- A door operator at power-up: STOPPED (R296). -/
def Door.init : Door :=
  { cfg := DoorCfg.init, act := DoorCfg.init, st := .stopped, hot := false, pos := 0, speed := 0, iq := 0, zeroU := 0,
    zeroV := 0, limit := 0, atCap := false, force := 0, ke := 0, keRun := 0, obstRun := 0, obstLast := 0, obstCount := 0,
    revCycle := 0, revTotal := 0, armed := false, openTimer := 0, closeTimer := 0, hall := 0, hallRaw := 0, arrived := [], angle := 0, angleMode := 0,
    turns := 0, count := 0, atSample := 0, edgeAt := none, edgeDir := none, edgeGap := 0, edges := [], zCount := none, hallRun := 0,
    hallLast := 0, hallErrs := 0, illegalRun := 0, commAt := none, angErr := 0, angMax := 0, conf := false, learn := none, learnResult := 0,
    stallRun := 0, faultActive := false, faultOthers := 0, faultCause := 0, faultAt := none, ofs := 0, clearing := false,
    tempSeen := false, tempBad := false, legs := Vector.replicate 3 .low, legsNext := Vector.replicate 3 .low }

/-- The FE configuration at power-up (R331). -/
def FeCfg.init : FeCfg :=
  { type := .off, curve := 0, gain := 7, burn := true, ac := true, ix := 0, level := 0, notch := 2, rate := 1, polyBase := 0,
    src := 7, zero := 0, zset := false, span := 0, win := 64, pp := 4096, sband := 655, zband := 1024 }

/-- A front-end channel at power-up (R331). -/
def Fe.init : Fe :=
  { cfg := FeCfg.init, act := FeCfg.init, raw := 0, value := 0, live := 0, sticky := 0, form := 0, coefs := [],
    coefsNext := none, calRes := 0, valid := false, ofsEdge := false, otrim := 0, samples := [], chopAt := 0, ofsSum := 0,
    ofsCount := 0, prevValue := 0, prevValid := false, resultAt := none }

/-- A check-value channel on entry to HUNT (R345). -/
def Ck.init : Ck :=
  { cfg := ⟨true, true, 2, 0xFFFFFFFF, 0xFFFFFFFF, 0, false⟩, val := 0, space := 0, start := 0, outcome := 0, done := 0,
    fails := 0, jobs := 0 }

/-- The scan engine on entry to HUNT (R345). -/
def Scan.init : Scan :=
  { cks := Vector.replicate 8 Ck.init, queue := [], running := none, cycle := 1536, scrub := Vector.replicate 3 ⟨4, 0, 0, false⟩ }

/-- The journal of a device as shipped: every word 0, no record, empty last-word area (R346). The chain values stand at 0
until admission step 4 forms them (DESIGN CHOICE, log entry 6). -/
def Journal.init : Journal :=
  { queue := [], writing := none, nextId := 0, fault := false, dropped := 0, loss := false, admission := 0,
    nextAdmission := 0, auditHead := 0, auditCount := 0, auditReserved := 0, auditChain := 0, opHead := 0, opTail := 0,
    opNext := 0, opChain := 0, tornFound := false, tornArea := false, tornTotal := 0, laps := 0, started := false, scrubbed := false, ready := false, tornWaits := false,
    tripDue := false,
    lastWord := Vector.replicate 8 0, volatile := none, lwState := 0, scrubNext := 0 }

/-- A vector over all channels from a function of the channel. -/
def channels {n : Nat} {α : Type} (f : Fin n → α) : Vector α n := ⟨((List.finRange n).map f).toArray, by simp⟩

/-- The device right after leaving DARK: in HUNT, as shipped, every car's islands off, memories reading zero. -/
def State.reset : State :=
  { pending := [],
    mem := { ram := [], prog := [], cam := [], journal := [] },
    chip :=
      { dev := Dev.init, pwr := Pwr.init, lnk := Lnk.init, sec := Sec.init, sps := Sps.init,
        threads := Vector.replicate 48 Thread.init, cars := Vector.replicate 12 Car.init,
        doors := Vector.replicate 24 Door.init, taps := Vector.replicate 96 Tap.init, axes := channels Axis.init,
        fbks := Vector.replicate 24 Fbk.init, loops := channels Loop.init, fes := Vector.replicate 48 Fe.init,
        cals := Vector.replicate 12 ⟨[], false, none⟩, scan := Scan.init, traceQueue := [], captures := Vector.replicate 8 none,
        blocks := [], sine := Vector.replicate 4 sineDefault, sineNext := [], journal := Journal.init, stage := .host, flaws := [], inputs := ⟨none, []⟩, ramLog := [], turn := (0, 0), free := 0,
        nextCredit := 0 } }

/-- Reasons for which the machine stops with a fault. The manual answers every command (R9, R94), so no command raises one
(DESIGN CHOICE, log entry 13). -/
inductive Fault where
  /-- Raised by no command: the manual's faults are trips, car faults, door faults and thread faults, all effects on the
  state. Safe. -/
  | none
  deriving DecidableEq, Repr

/-- Reasons for which a command has no meaning. -/
inductive Refusal where
  /-- A command whose meaning is not written yet, by its mnemonic. Safe. -/
  | notModelled (mnemonic : String)
  deriving DecidableEq, Repr

end Sys2Proof.Machine
end

