-- ==== Sys2Proof/Machine/Vec.lean ====
section
/-! DEFINITION. Updating one channel of a vector, mapping all channels, and folding over all channels. -/

namespace Sys2Proof.Machine

/-- The vector with element i replaced by f of it. -/
def upd {α : Type} {n : Nat} (v : Vector α n) (i : Fin n) (f : α → α) : Vector α n := v.set i.val (f v[i.val])

/-- Every element replaced by f of its channel and itself. -/
def vmap {α β : Type} {n : Nat} (f : Fin n → α → β) (v : Vector α n) : Vector β n := channels fun i => f i v[i.val]

/-- Fold over all channels in ascending order. -/
def foldFin {σ : Type} (n : Nat) (f : Fin n → σ → σ) (s : σ) : σ := (List.finRange n).foldl (fun s i => f i s) s

/-- The channel of a number, where there is one. -/
def fin? (n k : Nat) : Option (Fin n) := if h : k < n then some ⟨k, h⟩ else none

/-- Add 1 to a counter that saturates at its largest value. -/
def satInc {w : Nat} (x : BitVec w) : BitVec w := if x = BitVec.allOnes w then x else x + 1

/-- An integer in two's complement, clamped to the signed range of the width. -/
def clampInt (w : Nat) (x : Int) : BitVec w := BitVec.ofInt w (max (-(2 ^ (w - 1) : Int)) (min (2 ^ (w - 1) - 1) x))

/-- A one-bit value of a Bool in a word. -/
def bit (b : Bool) (k : Nat) : Word := if b then BitVec.ofNat 32 (2 ^ k) else 0

/-- A field of width w placed at bit k of a word. -/
def field {w : Nat} (x : BitVec w) (k : Nat) : Word := (x.setWidth 32) <<< k

/-- Bits [k+w-1:k] of a word. -/
def slice (x : Word) (k w : Nat) : BitVec w := x.extractLsb' k w

end Sys2Proof.Machine
end

