-- ==== Sys2Proof/Machine/Flags.lean ====
section
/-! DEFINITION. The flags that the thread instructions set (R174) and the conditions that read them (Table 8-2). -/

namespace Sys2Proof.Machine

/-- Flags Z and N of a result, C and V as given, LIM kept (R174, R176). -/
def aluFlags (f : Flags) (r : Word) (c v : Bool) : Flags := { f with z := decide (r = 0), n := r.msb, c := c, v := v }

/-- Flags of the multiply instructions: Z and N of the result, C and V cleared, LIM as given (R177). -/
def mulFlags (r : Word) (lim : Bool) : Flags := { z := decide (r = 0), n := r.msb, c := false, v := false, lim := lim }

/-- Carry out of bit 31 of an addition. -/
def addCarry (a b : Word) : Bool := decide (2 ^ 32 ≤ a.toNat + b.toNat)

/-- Signed overflow of an addition. -/
def addOverflow (a b : Word) : Bool := (a.msb == b.msb) && ((a + b).msb != a.msb)

/-- Borrow of a subtraction: A below B unsigned. -/
def subBorrow (a b : Word) : Bool := decide (a.toNat < b.toNat)

/-- Signed overflow of a subtraction. -/
def subOverflow (a b : Word) : Bool := (a.msb != b.msb) && ((a - b).msb != a.msb)

/-- The last bit shifted out to the left, 0 for a shift of 0. -/
def shlCarry (a : Word) (n : Nat) : Bool := n ≠ 0 && a.getLsbD (32 - n)

/-- The last bit shifted out to the right, 0 for a shift of 0. -/
def shrCarry (a : Word) (n : Nat) : Bool := n ≠ 0 && a.getLsbD (n - 1)

/-- Whether a condition code holds; code 15 is reserved (Table 8-2). -/
def condHolds (f : Flags) (code : BitVec 4) : Bool :=
  match code.toNat with
  | 0 => true
  | 1 => f.z
  | 2 => !f.z
  | 3 => f.n
  | 4 => !f.n
  | 5 => f.c
  | 6 => !f.c
  | 7 => f.v
  | 8 => !f.v
  | 9 => f.lim
  | 10 => !f.lim
  | 11 => f.n != f.v
  | 12 => f.n == f.v
  | 13 => f.z || f.n != f.v
  | 14 => !f.z && f.n == f.v
  | _ => false

end Sys2Proof.Machine
end

