-- ==== Sys2Proof/Machine/Crc.lean ====
section
/-! DEFINITION. Cyclic redundancy checks over bits in the order in which they are sent (R63, R230, R265, R332). -/

namespace Sys2Proof.Machine

/-- One bit into a CRC register, most significant bit first. -/
def crcBit {w : Nat} (poly reg : BitVec w) (b : Bool) : BitVec w :=
  if reg.msb != b then (reg <<< 1) ^^^ poly else reg <<< 1

/-- The bits of a byte, most significant first. -/
def byteBits (b : Byte) : List Bool := [b.getLsbD 7, b.getLsbD 6, b.getLsbD 5, b.getLsbD 4, b.getLsbD 3, b.getLsbD 2, b.getLsbD 1, b.getLsbD 0]

/-- Bits into a CRC register. -/
def crcBits {w : Nat} (poly reg : BitVec w) (bs : List Bool) : BitVec w := bs.foldl (crcBit poly) reg

/-- Bytes into a CRC register, each most significant bit first. -/
def crcBytes {w : Nat} (poly reg : BitVec w) (bs : List Byte) : BitVec w :=
  bs.foldl (fun r b => crcBits poly r (byteBits b)) reg

/-- A bit vector in the opposite bit order. -/
def reflect {w : Nat} (x : BitVec w) : BitVec w := x.reverse

/-- The header CRC-16 and drive port CRC: polynomial 1021h, init FFFFh, not reflected, no xor-out (Table 3-8). -/
def crc16 (bs : List Byte) : BitVec 16 := crcBytes 0x1021 0xFFFF bs

/-- The section, slot and journal CRC-32: polynomial 04C11DB7h, init and xor-out FFFF_FFFFh, not reflected (Table 3-8). -/
def crc32 (bs : List Byte) : Word := crcBytes 0x04C11DB7 0xFFFFFFFF bs ^^^ 0xFFFFFFFF

/-- The same CRC-32 over bits (R63). -/
def crc32Bits (bs : List Bool) : Word := crcBits 0x04C11DB7 0xFFFFFFFF bs ^^^ 0xFFFFFFFF

/-- n bytes of a bit vector, most significant first. -/
def bytesBE {w : Nat} (x : BitVec w) (n : Nat) : List Byte :=
  (List.range n).map fun i => x.extractLsb' (8 * (n - 1 - i)) 8

/-- A list of bytes as a number, most significant first. -/
def natOfBytes (bs : List Byte) : Nat := bs.foldl (fun a b => 256 * a + b.toNat) 0

/-- A list of bytes as a bit vector, most significant first. -/
def ofBytes (w : Nat) (bs : List Byte) : BitVec w := BitVec.ofNat w (natOfBytes bs)

end Sys2Proof.Machine
end

