-- ==== Sys2Proof/Machine/Crypto.lean ====
section
/-! DEFINITION. The cryptographic functions that the manual names by standard: AES-128 (FIPS 197), AES-CMAC (SP 800-38B),
CTR mode (SP 800-38A) and SHA-256 (FIPS 180-4), over bytes in the order of R106. -/

namespace Sys2Proof.Machine

/-! ### AES-128 -/

/-- Multiply by x in GF(2^8) modulo x^8 + x^4 + x^3 + x + 1. -/
def xtime (b : Byte) : Byte := if b.msb then (b <<< 1) ^^^ 0x1B else b <<< 1

/-- Product in GF(2^8), over the bits of the second factor from bit n-1 down. -/
def gfMulFrom (a b : Byte) : Nat → Byte → Byte
  | 0, acc => acc
  | n + 1, acc => gfMulFrom a b n (xtime acc ^^^ (if b.getLsbD n then a else 0))

/-- Product in GF(2^8). -/
def gfMul (a b : Byte) : Byte := gfMulFrom a b 8 0

/-- a^(2^n - 1) in GF(2^8): seven factors give the inverse after one more squaring. -/
def gfPow : Nat → Byte → Byte
  | 0, _ => 1
  | n + 1, a => let p := gfPow n a; gfMul (gfMul p p) a

/-- The multiplicative inverse, 0 for 0: a^254. -/
def gfInv (a : Byte) : Byte := let p := gfPow 7 a; gfMul p p

/-- The S-box of FIPS 197: the inverse and the affine map. -/
def sbox (a : Byte) : Byte :=
  let b := gfInv a
  b ^^^ b.rotateLeft 1 ^^^ b.rotateLeft 2 ^^^ b.rotateLeft 3 ^^^ b.rotateLeft 4 ^^^ 0x63

/-- The byte at place i of a state of sixteen bytes. -/
def at_ (s : List Byte) (i : Nat) : Byte := s.getD i 0

/-- ShiftRows over SubBytes: place 4c+r takes the S-box of place 4(c+r)+r. -/
def subShift (s : List Byte) : List Byte :=
  let t := s.map sbox
  (List.range 16).map fun i => at_ t ((i + 4 * (i % 4)) % 16)

/-- MixColumns. -/
def mixColumns (s : List Byte) : List Byte :=
  (List.range 16).map fun i =>
    let c := 4 * (i / 4)
    let g := fun k => at_ s (c + (i + k) % 4)
    xtime (g 0) ^^^ xtime (g 1) ^^^ g 1 ^^^ g 2 ^^^ g 3

/-- Byte-wise exclusive or. -/
def xorBytes (a b : List Byte) : List Byte := List.zipWith (· ^^^ ·) a b

/-- The round key after k, with the round constant rc. -/
def nextKey (k : List Byte) (rc : Byte) : List Byte :=
  let w0 := xorBytes (k.take 4) [sbox (at_ k 13) ^^^ rc, sbox (at_ k 14), sbox (at_ k 15), sbox (at_ k 12)]
  let w1 := xorBytes ((k.drop 4).take 4) w0
  let w2 := xorBytes ((k.drop 8).take 4) w1
  let w3 := xorBytes ((k.drop 12).take 4) w2
  w0 ++ w1 ++ w2 ++ w3

/-- Rounds n down to 1, the last without MixColumns. -/
def aesRounds : Nat → List Byte → List Byte → Byte → List Byte
  | 0, s, _, _ => s
  | n + 1, s, k, rc =>
    let k' := nextKey k rc
    let t := subShift s
    let t := if n = 0 then t else mixColumns t
    aesRounds n (xorBytes t k') k' (xtime rc)

/-- AES-128 of one block. -/
def aes (key block : Block) : Block :=
  let k := bytesBE key 16
  ofBytes 128 (aesRounds 10 (xorBytes (bytesBE block 16) k) k 1)

/-- Doubling in GF(2^128) for the CMAC subkeys. -/
def cmacDouble (x : Block) : Block := if x.msb then (x <<< 1) ^^^ 0x87 else x <<< 1

/-- CMAC over the blocks of a message: the number of remaining 16-byte blocks, chaining value and message. -/
def cmacGo (key k1 k2 : Block) : Nat → Block → List Byte → Block
  | 0, x, m =>
    if m.length = 16 then aes key (x ^^^ k1 ^^^ ofBytes 128 m)
    else aes key (x ^^^ k2 ^^^ (ofBytes 128 (m ++ [0x80] ++ List.replicate (15 - m.length) 0)))
  | n + 1, x, m => cmacGo key k1 k2 n (aes key (x ^^^ ofBytes 128 (m.take 16))) (m.drop 16)

/-- AES-CMAC (SP 800-38B). -/
def cmac (key : Block) (m : List Byte) : Block :=
  let k1 := cmacDouble (aes key 0)
  cmacGo key k1 (cmacDouble k1) ((m.length - 1) / 16) 0 m

/-- The first eight bytes of a CMAC (R106). -/
def cmacTag (key : Block) (m : List Byte) : Tag := (cmac key m).extractLsb' 64 64

/-- CTR encryption of bytes: keystream block n is the AES of the counter block plus n in its last four bytes. -/
def ctrGo (key counter : Block) : Nat → List Byte → List Byte
  | 0, _ => []
  | n + 1, m => xorBytes (m.take 16) (bytesBE (aes key counter) 16) ++ ctrGo key (counter + 1) n (m.drop 16)

/-- CTR encryption (SP 800-38A). -/
def ctr (key counter : Block) (m : List Byte) : List Byte := ctrGo key counter ((m.length + 15) / 16) m

/-! ### SHA-256 -/

/-- Constants 0 to 31 of FIPS 180-4. -/
def shaK0 : List Word :=
  [0x428A2F98, 0x71374491, 0xB5C0FBCF, 0xE9B5DBA5, 0x3956C25B, 0x59F111F1, 0x923F82A4, 0xAB1C5ED5,
   0xD807AA98, 0x12835B01, 0x243185BE, 0x550C7DC3, 0x72BE5D74, 0x80DEB1FE, 0x9BDC06A7, 0xC19BF174,
   0xE49B69C1, 0xEFBE4786, 0x0FC19DC6, 0x240CA1CC, 0x2DE92C6F, 0x4A7484AA, 0x5CB0A9DC, 0x76F988DA,
   0x983E5152, 0xA831C66D, 0xB00327C8, 0xBF597FC7, 0xC6E00BF3, 0xD5A79147, 0x06CA6351, 0x14292967]

/-- Constants 32 to 63 of FIPS 180-4. -/
def shaK1 : List Word :=
  [0x27B70A85, 0x2E1B2138, 0x4D2C6DFC, 0x53380D13, 0x650A7354, 0x766A0ABB, 0x81C2C92E, 0x92722C85,
   0xA2BFE8A1, 0xA81A664B, 0xC24B8B70, 0xC76C51A3, 0xD192E819, 0xD6990624, 0xF40E3585, 0x106AA070,
   0x19A4C116, 0x1E376C08, 0x2748774C, 0x34B0BCB5, 0x391C0CB3, 0x4ED8AA4A, 0x5B9CCA4F, 0x682E6FF3,
   0x748F82EE, 0x78A5636F, 0x84C87814, 0x8CC70208, 0x90BEFFFA, 0xA4506CEB, 0xBEF9A3F7, 0xC67178F2]

/-- The initial hash value of FIPS 180-4. -/
def shaInit : List Word :=
  [0x6A09E667, 0xBB67AE85, 0x3C6EF372, 0xA54FF53A, 0x510E527F, 0x9B05688C, 0x1F83D9AB, 0x5BE0CD19]

/-- The message schedule after its first sixteen words: n more words, with the last sixteen latest first. -/
def shaExtend : Nat → List Word → List Word
  | 0, w => w
  | n + 1, w =>
    let a := w.getD 14 0
    let b := w.getD 1 0
    let s0 := a.rotateRight 7 ^^^ a.rotateRight 18 ^^^ (a >>> 3)
    let s1 := b.rotateRight 17 ^^^ b.rotateRight 19 ^^^ (b >>> 10)
    shaExtend n ((w.getD 15 0 + s0 + w.getD 6 0 + s1) :: w)

/-- One round on the eight working variables. -/
def shaRound (h : List Word) (kw : Word × Word) : List Word :=
  match h with
  | [a, b, c, d, e, f, g, hh] =>
    let s1 := e.rotateRight 6 ^^^ e.rotateRight 11 ^^^ e.rotateRight 25
    let ch := (e &&& f) ^^^ (~~~e &&& g)
    let t1 := hh + s1 + ch + kw.1 + kw.2
    let s0 := a.rotateRight 2 ^^^ a.rotateRight 13 ^^^ a.rotateRight 22
    let mj := (a &&& b) ^^^ (a &&& c) ^^^ (b &&& c)
    [t1 + s0 + mj, a, b, c, d + t1, e, f, g]
  | h => h

/-- Four bytes of a message as a word, most significant first. -/
def shaWord (m : List Byte) (i : Nat) : Word := ofBytes 32 ((m.drop (4 * i)).take 4)

/-- Compress one 64-byte block. -/
def shaBlock (h : List Word) (m : List Byte) : List Word :=
  let w := (shaExtend 48 (((List.range 16).map (shaWord m)).reverse)).reverse
  List.zipWith (· + ·) h (((shaK0 ++ shaK1).zip w).foldl shaRound h)

/-- Compress n blocks. -/
def shaGo : Nat → List Word → List Byte → List Word
  | 0, h, _ => h
  | n + 1, h, m => shaGo n (shaBlock h m) (m.drop 64)

/-- SHA-256 of a message of bytes. -/
def sha256 (m : List Byte) : BitVec 256 :=
  let p := m ++ [0x80] ++ List.replicate ((119 - m.length % 64) % 64) 0 ++ bytesBE (BitVec.ofNat 64 (8 * m.length)) 8
  ofBytes 256 ((shaGo (p.length / 64) shaInit p).flatMap fun w => bytesBE w 4)

/-- The first sixteen bytes of a SHA-256. -/
def sha16 (m : List Byte) : Block := (sha256 m).extractLsb' 128 128

end Sys2Proof.Machine
end

