-- ==== Sys2Proof/Machine/Memory.lean ====
section
/-! DEFINITION. Reading and writing the memories: bytes, words in the byte order of each memory, and runs of bytes. An
unlisted byte reads 0: data RAM after admission step 2 and the journal and cam memory as shipped (R149, R346, log
entry 12). -/

namespace Sys2Proof.Machine

/-- The byte at an address (DESIGN CHOICE, log entry 12). -/
def Mem.read : Mem → Nat → Byte
  | [], _ => 0
  | (k, b) :: r, a => if k = a then b else Mem.read r a

/-- The memory with one byte written, in canonical form (DESIGN CHOICE, log entry 12). -/
def Mem.write : Mem → Nat → Byte → Mem
  | [], a, b => if b = 0 then [] else [(a, b)]
  | (k, v) :: r, a, b =>
    if a < k then (if b = 0 then (k, v) :: r else (a, b) :: (k, v) :: r)
    else if a = k then (if b = 0 then r else (a, b) :: r)
    else (k, v) :: Mem.write r a b

/-- Every listed address lies above n, addresses rise strictly, and no listed byte is 0. -/
def Mem.wfAbove : Mem → Nat → Bool
  | [], _ => true
  | (k, v) :: r, n => decide (n ≤ k) && decide (v ≠ 0) && Mem.wfAbove r (k + 1)

/-- The canonical form: addresses strictly rising, no byte listed that equals what an unlisted address reads as
(DESIGN CHOICE, log entry 12). -/
def Mem.wf (m : Mem) : Bool := Mem.wfAbove m 0

/-- Four bytes as a word, the first least significant (R5). -/
def wordLE (b0 b1 b2 b3 : Byte) : Word := b3 ++ b2 ++ b1 ++ b0

/-- The data RAM or cam word at a byte address, little-endian (R5). -/
def Mem.readLE (m : Mem) (a : Nat) : Word := wordLE (m.read a) (m.read (a + 1)) (m.read (a + 2)) (m.read (a + 3))

/-- Write a word little-endian at a byte address (R5). -/
def Mem.writeLE (m : Mem) (a : Nat) (w : Word) : Mem :=
  (((m.write a (w.extractLsb' 0 8)).write (a + 1) (w.extractLsb' 8 8)).write (a + 2) (w.extractLsb' 16 8)).write (a + 3)
    (w.extractLsb' 24 8)

/-- Journal or program store word w: bytes 4w to 4w+3, byte 4w in [31:24] (R349, R335). -/
def Mem.readBE (m : Mem) (w : Nat) : Word :=
  m.read (4 * w) ++ m.read (4 * w + 1) ++ m.read (4 * w + 2) ++ m.read (4 * w + 3)

/-- Write journal or program store word w. -/
def Mem.writeBE (m : Mem) (w : Nat) (x : Word) : Mem :=
  (((m.write (4 * w) (x.extractLsb' 24 8)).write (4 * w + 1) (x.extractLsb' 16 8)).write (4 * w + 2)
    (x.extractLsb' 8 8)).write (4 * w + 3) (x.extractLsb' 0 8)

/-- n bytes from an address. -/
def Mem.bytes (m : Mem) (a : Nat) : Nat → List Byte
  | 0 => []
  | n + 1 => m.read a :: Mem.bytes m (a + 1) n

/-- The word writes that a command makes; memory changes through these alone. -/
inductive MemWrite where
  /-- A data RAM word at an aligned byte address (R147). -/
  | ram (a : Nat) (x : Word)
  /-- A data RAM byte (R337). -/
  | ramByte (a : Nat) (b : Byte)
  /-- A program store word (R164). -/
  | prog (w : Nat) (x : Word)
  /-- A cam memory word at a byte address (R213). -/
  | cam (a : Nat) (x : Word)
  /-- A journal word (R346). -/
  | journal (w : Nat) (x : Word)
  deriving DecidableEq, Repr

/-- Apply one word write (DESIGN CHOICE, log entry 12). -/
def Mems.write (m : Mems) : MemWrite → Mems
  | .ram a x => { m with ram := m.ram.writeLE a x }
  | .ramByte a b => { m with ram := m.ram.write a b }
  | .prog w x => { m with prog := m.prog.writeBE w x }
  | .cam a x => { m with cam := m.cam.writeLE a x }
  | .journal w x => { m with journal := m.journal.writeBE w x }

/-- Apply word writes in order. -/
def Mems.apply (m : Mems) (ws : List MemWrite) : Mems := ws.foldl Mems.write m

/-- Program store word w. -/
def Mems.progWord (m : Mems) (w : Nat) : Word := m.prog.readBE w

/-- The image length N of the program store (Table 7-7). -/
def Mems.imageLength (m : Mems) : Nat := (m.progWord 1).toNat

/-- The program store word may be read by LD and fetched from above 207: below N and below FC00h (R179, R180). -/
def Mems.inImage (m : Mems) (w : Nat) : Bool := w < m.imageLength && w < 0xFC00

/-- All four memories in canonical form (DESIGN CHOICE, log entry 12). -/
def Mems.wf (m : Mems) : Bool := m.ram.wf && m.prog.wf && m.cam.wf && m.journal.wf

/-- The memory and the word that a write replaces whole; a byte write replaces none. -/
def MemWrite.word : MemWrite → Option (Fin 6 × Nat)
  | .ram a _ => some (0, a / 4)
  | .ramByte _ _ => none
  | .prog w _ => some (1, w)
  | .cam a _ => some (2, a / 4)
  | .journal w _ => some (3, w)

/-- The device after word writes: a word written whole holds no bit error (R342). -/
def Chip.written (c : Chip) (ws : List MemWrite) : Chip :=
  { c with flaws := c.flaws.filter fun f => !ws.any fun w => w.word = some (f.memory, f.word) }

/-- A state with a command's word writes and its new device. -/
def State.with (s : State) (ws : List MemWrite) (c : Chip) : State := { s with mem := s.mem.apply ws, chip := c.written ws }

end Sys2Proof.Machine
end

