-- ==== Sys2Proof/Machine/Ops.lean ====
section
/-! DEFINITION. The named operations that the commands share: ownership, events, queues and credits, journal records, trips,
sessions closing, audited changes, and the entry to HUNT. -/

namespace Sys2Proof.Machine

/-! ### Status codes (Table 0-3) and refusals (R11) -/

/-- The status codes of Table 0-3. -/
inductive Status where
  | done | echo | queued | full | busy | denied | sealed_ | veiled | mac | replay | noSession | range | state | unreach
  | refused | fault | illegal
  deriving DecidableEq, Repr

/-- The code of a status (Table 0-3). -/
def Status.code : Status → Byte
  | .done => 0x00 | .echo => 0x01 | .queued => 0x02 | .full => 0x10 | .busy => 0x11 | .denied => 0x20 | .sealed_ => 0x21
  | .veiled => 0x22 | .mac => 0x30 | .replay => 0x31 | .noSession => 0x32 | .range => 0x40 | .state => 0x41
  | .unreach => 0x42 | .refused => 0x43 | .fault => 0x50 | .illegal => 0x7F

/-- A code below 10h: the instruction took effect (R10). -/
def Status.ok (s : Status) : Bool := s.code.toNat < 0x10

/-- The place of a refusal in the order of R11. -/
def Status.rank : Status → Nat
  | .mac => 0 | .noSession => 1 | .replay => 2 | .illegal => 3 | .denied => 4 | .sealed_ => 5 | .veiled => 6 | .range => 7
  | .state => 8 | .unreach => 9 | .refused => 10 | .busy => 11 | .full => 12 | .fault => 13 | .done => 14 | .echo => 15
  | .queued => 16

/-- The earlier of two refusals in the order of R11. -/
def Status.first (a : Option Status) (b : Status) : Option Status :=
  match a with
  | none => some b
  | some x => if b.rank < x.rank then some b else some x

/-- The first applicable refusal of a list of conditions, in the order of R11, where one applies. -/
def refusal (checks : List (Bool × Status)) : Option Status :=
  checks.foldl (fun a x => if x.1 then Status.first a x.2 else a) none

/-! ### Access to channels -/

/-- The device with thread t changed. -/
def Chip.modThread (c : Chip) (t : ThreadId) (f : Thread → Thread) : Chip := { c with threads := upd c.threads t f }
/-- The device with car k changed. -/
def Chip.modCar (c : Chip) (k : CarId) (f : Car → Car) : Chip := { c with cars := upd c.cars k f }
/-- The device with the interlock of car k changed. -/
def Chip.modIlk (c : Chip) (k : CarId) (f : Ilk → Ilk) : Chip := c.modCar k fun x => { x with ilk := f x.ilk }
/-- The device with door d changed. -/
def Chip.modDoor (c : Chip) (d : DoorId) (f : Door → Door) : Chip := { c with doors := upd c.doors d f }
/-- The device with axis a changed. -/
def Chip.modAxis (c : Chip) (a : AxisId) (f : Axis → Axis) : Chip := { c with axes := upd c.axes a f }
/-- The device with feedback interface i changed. -/
def Chip.modFbk (c : Chip) (i : FbkId) (f : Fbk → Fbk) : Chip := { c with fbks := upd c.fbks i f }
/-- The device with loop l changed. -/
def Chip.modLoop (c : Chip) (l : LoopId) (f : Loop → Loop) : Chip := { c with loops := upd c.loops l f }
/-- The device with front-end channel x changed. -/
def Chip.modFe (c : Chip) (x : FeId) (f : Fe → Fe) : Chip := { c with fes := upd c.fes x f }
/-- The device with calibration group g changed. -/
def Chip.modCal (c : Chip) (g : CarId) (f : CalGroup → CalGroup) : Chip := { c with cals := upd c.cals g f }
/-- The device with block 0 changed. -/
def Chip.modDev (c : Chip) (f : Dev → Dev) : Chip := { c with dev := f c.dev }
/-- The device with block 1 changed. -/
def Chip.modLnk (c : Chip) (f : Lnk → Lnk) : Chip := { c with lnk := f c.lnk }
/-- The device with block 2 changed. -/
def Chip.modSec (c : Chip) (f : Sec → Sec) : Chip := { c with sec := f c.sec }
/-- The device with block D changed. -/
def Chip.modPwr (c : Chip) (f : Pwr → Pwr) : Chip := { c with pwr := f c.pwr }
/-- The device with session n changed. -/
def Chip.modSession (c : Chip) (n : SessionId) (f : Session → Session) : Chip :=
  c.modSec fun x => { x with sessions := upd x.sessions n f }
/-- The device with the journal changed. -/
def Chip.modJournal (c : Chip) (f : Journal → Journal) : Chip := { c with journal := f c.journal }

/-- The state with the device changed. -/
def State.act (s : State) (f : Chip → Chip) : State := { s with chip := f s.chip }

/-- The state with the device changed where SCK runs: between two SCK edges no state changes (R28, R39). -/
def State.clock (s : State) (f : Chip → Chip) : State := if s.chip.lnk.sckRunning then s.act f else s

/-! ### The phases of a tick (R18, R19) -/

/-- The place of a phase in the order of Table 1-4, with room for the places inside it. -/
def Stage.place : Stage → Nat
  | .host => 0
  | .loop n => 1 + n
  | .output => 99
  | .profile n => 100 + n
  | .thread => 200
  | .close n => 300 + n

/-- Cycle 0 of the tick: SCK runs, and no packet of the tick has executed (R18). -/
def Chip.atZero (c : Chip) : Bool :=
  c.lnk.sckRunning && decide (c.stage = .host) && decide (c.dev.hostCycles = 0) && !c.dev.hostStopped

/-- A supply warning stands (R86). -/
def Chip.warning (c : Chip) : Bool := c.pwr.live ≠ 0

/-- A change that ends in a nonvolatile write (R118, R120, R130, R141, R165); a return to HUNT and the volatile registers are none. -/
def Change.nonvolatile : Change → Bool
  | .readmit => false
  | .secreg reg _ _ => !(reg = 0x0A || reg = 0x0D || reg = 0x16)
  | .tblpress | .keyset _ _ | .zeroize _ | .sps _ _ _ | .starch | .unseal _ | .darn _ _ => true

/-- The oldest accepted change takes effect at the boundary that begins the present tick: all its records were committed before it, and no
supply warning stands in the way of a nonvolatile write (R28, R84, R86, R101, R118, R128, R129) (DEDUCED, log entry 43). -/
def Chip.changeDue (c : Chip) : Bool :=
  match c.sec.audits with
  | [] => false
  | a :: _ => a.due && c.atZero && !(c.warning && a.change.nonvolatile)

/-- Work of a phase may run: SCK runs, the tick has not gone past it, and every change due at its boundary has taken effect (R18, R28,
R129) (DESIGN CHOICE, log entry 3; DEDUCED, log entry 43). -/
def Chip.may (c : Chip) (p : Stage) : Bool := c.lnk.sckRunning && decide (c.stage.place ≤ p.place) && !c.changeDue

/-- The Latch phase: work at cycle 0 of the tick, before its first packet has executed, behind the changes due at its boundary (R18, R19,
R129). -/
def Chip.latching (c : Chip) : Bool := c.atZero && !c.changeDue

/-- The admission cycle count of a cycle of the present tick (R33). -/
def Chip.stamp (c : Chip) (cycle : BitVec 14) : Nat := c.dev.tick.toNat * c.lnk.ticklen.toNat + cycle.toNat

/-- The Host phase is over. -/
def Chip.leaveHost (c : Chip) : Chip := if c.stage = .host then { c with stage := .loop 0 } else c

/-- The tick stands in a phase. -/
def Chip.enter (c : Chip) (p : Stage) : Chip := { c with stage := p }

/-! ### Ownership (R13, R14, R121, Table 18-2) -/

/-- The car of door d. -/
def carOfDoor (d : DoorId) : CarId := ⟨d.val / 2, by omega⟩
/-- The car of feedback interface i. -/
def carOfFbk (i : FbkId) : CarId := ⟨i.val / 2, by omega⟩
/-- The car of front-end channel x. -/
def carOfFe (x : FeId) : CarId := ⟨x.val / 4, by omega⟩
/-- The car of tap s. -/
def carOfTap (s : TapId) : CarId := ⟨s.val / 8, by omega⟩
/-- The car of axis a. -/
def carOfAxis (a : AxisId) : CarId := if h : a.val < 12 then ⟨a.val, h⟩ else ⟨(a.val - 12) / 2, by omega⟩
/-- The car of loop l. -/
def carOfLoop (l : LoopId) : CarId := if h : l.val < 72 then ⟨l.val / 6, by omega⟩ else ⟨l.val - 72, by omega⟩
/-- The car of a car or door thread. -/
def carOfThread (t : ThreadId) : Option CarId :=
  if h : t.val < 12 then some ⟨t.val, h⟩ else if h : t.val < 36 then some ⟨(t.val - 12) / 2, by omega⟩ else none
/-- The front door of car k. -/
def frontDoor (k : CarId) : DoorId := ⟨2 * k.val, by omega⟩
/-- The rear door of car k. -/
def rearDoor (k : CarId) : DoorId := ⟨2 * k.val + 1, by omega⟩
/-- The axis of car k. -/
def carAxis (k : CarId) : AxisId := ⟨k.val, by omega⟩
/-- The axis of door d. -/
def doorAxis (d : DoorId) : AxisId := ⟨12 + d.val, by omega⟩
/-- The door of a door axis. -/
def doorOfAxis (a : AxisId) : Option DoorId := if _h : 12 ≤ a.val then some ⟨a.val - 12, by omega⟩ else none
/-- The machine encoder of car k. -/
def machine (k : CarId) : FbkId := ⟨2 * k.val, by omega⟩
/-- The hoistway sensor of car k. -/
def hoistway (k : CarId) : FbkId := ⟨2 * k.val + 1, by omega⟩
/-- The thread of car k. -/
def carThread (k : CarId) : ThreadId := ⟨k.val, by omega⟩
/-- The thread of door d. -/
def doorThread (d : DoorId) : ThreadId := ⟨12 + d.val, by omega⟩
/-- The thread whose own channels include axis a. -/
def threadOfAxis (a : AxisId) : ThreadId := ⟨a.val, by omega⟩
/-- The outer loop of car k. -/
def carLoop (k : CarId) : LoopId := ⟨72 + k.val, by omega⟩
/-- Stage 0 current, 1 speed, 2 position of door d. -/
def doorLoop (d : DoorId) (stage : Fin 3) : LoopId := ⟨3 * d.val + stage.val, by omega⟩
/-- Tap i of car k. -/
def carTap (k : CarId) (i : Fin 8) : TapId := ⟨8 * k.val + i.val, by omega⟩
/-- Front-end channel i of car k. -/
def carFe (k : CarId) (i : Fin 4) : FeId := ⟨4 * k.val + i.val, by omega⟩
/-- The cluster of a thread and its place in the slot order (R14, R150). -/
def clusterOf (t : ThreadId) : Nat × Nat :=
  if t.val < 12 then (t.val / 3, t.val % 3)
  else if t.val < 36 then ((t.val - 12) / 6, 3 + (t.val - 12) % 6)
  else if t.val < 44 then ((t.val - 36) / 2, 9 + (t.val - 36) % 2)
  else (t.val - 44, 11)
/-- The thread at place j of cluster n. -/
def threadAt (n : Fin 4) (j : Fin 12) : ThreadId :=
  if h : j.val < 3 then ⟨3 * n.val + j.val, by omega⟩
  else if h : j.val < 9 then ⟨12 + 6 * n.val + (j.val - 3), by omega⟩
  else if h : j.val < 11 then ⟨36 + 2 * n.val + (j.val - 9), by omega⟩
  else ⟨44 + n.val, by omega⟩

/-- All three islands of the car are on. -/
def Car.on (x : Car) : Bool := x.power = .on
/-- The device is in RUN. -/
def Chip.running (c : Chip) : Bool := c.dev.state = .run
/-- The thread window, TICKLEN - 1,792 cycles; 0 until HUNT has measured the tick (Table 2-1, Table 4-11). -/
def Chip.window (c : Chip) : BitVec 14 := if c.lnk.ticklen = 0 then 0 else c.lnk.ticklen - 1792

/-- The input record of the tick with one more item (R46, Table 2-4). -/
def Chip.note (c : Chip) (e : InputItem) : Chip := { c with inputs := { c.inputs with items := c.inputs.items ++ [e] } }

/-! ### Windows of ticks, free values -/

/-- The stamps that lie within the last n ticks up to now. -/
def recent (n : Nat) (now : BitVec 48) (l : List (BitVec 48)) : List (BitVec 48) := l.filter fun x => (now - x).toNat < n

/-- Draw the next free value's number (DESIGN CHOICE, log entry 9). -/
def Chip.draw (c : Chip) : Chip := { c with free := c.free + 1 }

/-! ### Thread events (Table 7-2, R153) -/

/-- Raise an event bit for a thread. -/
def Thread.raise (t : Thread) (b : Nat) : Thread := { t with raised := t.raised ||| BitVec.ofNat 16 (2 ^ b) }

/-- Raise an event for one thread. -/
def Chip.raise (c : Chip) (t : ThreadId) (b : Nat) : Chip := c.modThread t fun x => x.raise b

/-- Raise an event for every thread with car k in SEE. -/
def Chip.raiseSee (c : Chip) (k : CarId) (b : Nat) : Chip :=
  { c with threads := vmap (fun _ x => if x.seeMaskAct.getLsbD k.val then x.raise b else x) c.threads }

/-- Raise an event for every thread. -/
def Chip.raiseAll (c : Chip) (b : Nat) : Chip := { c with threads := vmap (fun _ x => x.raise b) c.threads }

/-- Raise JOBDONE for a producer that is a thread. -/
def Chip.jobDone (c : Chip) (p : Option ThreadId) : Chip :=
  match p with
  | none => c
  | some t => c.raise t 10

/-! ### Queues and packet credits (R159 to R162) -/

/-- Free places of an engine queue (Table 7-6) (DEDUCED, log entry 77). -/
def Chip.queueFree (c : Chip) : QueueId → Nat
  | .moves a => 8 - (c.axes[a.val]).queue.length
  | .scan => 16 - (c.scan.queue.length + (if c.scan.running.isSome then 1 else 0))
  | .cals g => 4 - ((c.cals[g.val]).queue.length + (if (c.cals[g.val]).running.isSome then 1 else 0))
  | .journal => 32 - c.journal.queue.length
  | .traces => 8 - (c.traceQueue.length + (c.captures.toList.filter Option.isSome).length)

/-- A thread is told FULL by a queue (Table 7-2, CREDIT). -/
def Chip.noteFull (c : Chip) (t : ThreadId) (q : QueueId) : Chip :=
  c.modThread t fun x => if x.fullOn.contains q then x else { x with fullOn := q :: x.fullOn }

/-- A queue frees a place: CREDIT to every thread that it told FULL. -/
def Chip.placeFreed (c : Chip) (q : QueueId) : Chip :=
  { c with
    threads := vmap (fun _ x => if x.fullOn.contains q then { x.raise 4 with fullOn := x.fullOn.erase q } else x) c.threads }

/-- Return a packet credit. -/
def Chip.release (c : Chip) (credit : Option Nat) : Chip :=
  match credit with
  | none => c
  | some n => c.modSec fun x => { x with credits := x.credits.filter fun k => k.id ≠ n }

/-- Shared credits that a seat holds. -/
def heldShared (l : List Credit) (seat : Nat) : Nat := (l.filter fun k => !k.reserved && k.seat.toNat = seat).length

/-- A seat has an open keyed session. -/
def Sec.seatActive (x : Sec) (seat : Nat) : Bool :=
  (List.finRange 16).any fun i => i.val ≠ 0 && (x.sessions[i.val]).isOpen && (x.sessions[i.val]).seat.toNat = seat

/-- Which credit a packet of a session and seat may take (R161, R162): a reserved one, a shared one, or none. -/
def Sec.creditKind (x : Sec) (sid : BitVec 4) (seat : BitVec 3) : Option Bool :=
  let l := x.credits
  if 64 ≤ l.length || 16 ≤ (l.filter fun k => k.session = sid).length then none
  else if seat.toNat ≤ 1 && (l.filter (·.reserved)).length < 8 then some true
  else
    let active := (List.range 7).filter x.seatActive
    let f := 56 / (max 1 active.length)
    let free := 56 - (l.filter fun k => !k.reserved).length
    let owed := ((active.filter fun s => s ≠ seat.toNat).map fun s => f - heldShared l s).foldl (· + ·) 0
    if free = 0 then none
    else if heldShared l seat.toNat < f then some false
    else if owed ≤ free - 1 then some false else none

/-- Take a packet credit for an accepted packet; its number is the state's next one (DESIGN CHOICE, log entry 9). -/
def Chip.takeCredit (c : Chip) (sid : BitVec 4) (seat : BitVec 3) : Chip :=
  match c.sec.creditKind sid seat with
  | none => c
  | some r =>
    { c with
      sec := { c.sec with credits := c.sec.credits ++ [⟨c.nextCredit, sid, seat, r⟩] }, nextCredit := c.nextCredit + 1 }

/-! ### Journal records (R349, R354) -/

/-- The FLAGS byte of a record (Table 17-1) (DESIGN CHOICE, log entry 39). -/
def recordFlags (area veilable loss brk : Bool) (car : Option CarId) : Byte :=
  BitVec.ofBool area ++ BitVec.ofBool veilable ++ BitVec.ofBool loss ++ BitVec.ofBool brk ++
    (match car with | none => (15 : BitVec 4) | some k => BitVec.ofNat 4 k.val)

/-- Put a record into the journal queue (DESIGN CHOICE, log entry 39). -/
def Chip.enqueueRecord (c : Chip) (type source flags : Byte) (body : List Byte) (credit : Option Nat)
    (producer : Option ThreadId) : Chip :=
  c.modJournal fun j =>
    { j with queue := j.queue ++ [⟨j.nextId, type, source, flags, body, credit, producer⟩], nextId := j.nextId + 1 }

/-- The places of the journal queue: until recovery has queued its GAP, TORN and LASTWORD records, three are kept for them (R159, R160,
R355) (DESIGN CHOICE, log entry 109). -/
def Journal.places (j : Journal) : Nat := if j.ready then 32 else 29

/-- A record that the device writes itself: dropped and counted when the queue has no place, with LOSS on the next one (R354). Its
place holds the packet credit of the work that it records, where there is one; a record without a place returns that credit at once
(R161) (DESIGN CHOICE, log entry 99). -/
def Chip.record (c : Chip) (type : Byte) (car : Option CarId) (body : List Byte) (source : Byte := 0xFF)
    (credit : Option Nat := none) : Chip :=
  if c.journal.queue.length < c.journal.places then
    let c' := c.enqueueRecord type source (recordFlags false (type = 137) c.journal.loss false car) body credit none
    c'.modJournal fun j => { j with loss := false }
  else (c.modJournal fun j => { j with dropped := satInc j.dropped, loss := true }).release credit

/-! ### Trips (R81, R82) -/

/-- The precedence of a trip cause detected in the same cycle (R82) (DEDUCED, log entry 35). -/
def tripRank (cause : BitVec 5) : Nat :=
  if cause = 10 then 0 else if cause = 2 then 1 else if cause = 11 then 2 else if cause = 12 then 3 else 3 + cause.toNat

/-- The OTHERS bit of a cause (Table 4-11). -/
def othersBit (cause : BitVec 5) : BitVec 13 := BitVec.ofNat 13 (2 ^ (cause.toNat - 1))

/-- The value of a member of the safety parameter set, absent while unset (DESIGN CHOICE, log entry 49). -/
def Sps.get (s : Sps) : SpsId → Option Word
  | .car m k => (s.car[m.val])[k.val]
  | .door m d => (s.door[m.val])[d.val]
  | .ilk m k => (s.ilk[m.val])[k.val]

/-- The value of a safety parameter set member, 0 while it is unset (DEDUCED, log entry 51). -/
def Chip.sps0 (c : Chip) (i : SpsId) : Nat := ((c.sps.get i).map BitVec.toNat).getD 0

/-- The permits of a car become `permit`; the checks of an enable whose permit changes are skipped at the next RISE or FALL latches
(R307, R309). -/
def Ilk.permitTo (i : Ilk) (permit : BitVec 3) (rise fall : Byte) : Ilk :=
  { i with
    permit := permit, pump := permit, zgrant := i.zgrant &&& permit,
    skip := vmap (fun e n =>
      if permit.getLsbD e.val = i.permit.getLsbD e.val then n else if permit.getLsbD e.val then rise else fall) i.skip }

/-- Both gates of every leg of a door low (R280, R291). -/
def Door.gatesLow (x : Door) : Door := { x with legs := Vector.replicate 3 .low, legsNext := Vector.replicate 3 .low }

/-- The phase on the repeat pins in a cycle: a step appears 2 cycles after its edge cycle (R227). -/
def Fbk.repeatPhase (f : Fbk) (stamp : Nat) : BitVec 2 :=
  match (f.reps.filter fun r => decide (stamp < r.1 + 2)).getLast? with
  | none => f.rep
  | some r => r.2

/-- The repeat outputs hold the levels of a cycle: a step that is not yet on the pins never appears (R227, Table 4-5). -/
def Fbk.holdRepeat (f : Fbk) (stamp : Nat) : Fbk := { f with rep := f.repeatPhase stamp, reps := [] }

/-- A leg without a role is low: W of a brushed motor (Table 13-1). -/
def Door.thirdLow (x : Door) : Door := { x with legs := x.legs.set 2 .low, legsNext := x.legsNext.set 2 .low }

/-- Every output harmless (R81, Table 4-5): enables unpumped and withdrawn, with their latches to skip, gates low, VID at VBOOT, no
frame and no SSI read in progress; the other outputs follow from the device state (Pins). A read that the trip cuts off counts no input
error and leaves VALID (DESIGN CHOICE, log entry 121). -/
def Chip.harmless (c : Chip) : Chip :=
  { c with
    pwr := { c.pwr with vid := c.pwr.act.vboot },
    cars := vmap (fun k x =>
      { x with ilk := x.ilk.permitTo 0 0 (slice (BitVec.ofNat 32 (c.sps0 (.ilk 5 k))) 16 8), dpAwait := none, dpStart := none }) c.cars,
    doors := vmap (fun _ x => x.gatesLow) c.doors,
    fbks := vmap (fun _ x => { x with ssiRead := none }) c.fbks }

/-- A trip ends what an ISLAND switch-on holds its packet credit for (R161). -/
def Chip.dropPowerCredits (c : Chip) : Chip :=
  let c' := c.cars.toList.foldl (fun c x => c.release x.powerCredit) c
  { c' with cars := vmap (fun _ x => { x with powerCredit := none }) c'.cars }

/-- Detect a trip cause in a cycle of the present tick; the repeat outputs hold their levels from that cycle on (R75, R81, R82, R227) (DEDUCED, log entry 26; DEDUCED, log entry 35). -/
def Chip.trip (c : Chip) (cause : BitVec 5) (syndrome : Word) (cycle : BitVec 14) : Chip :=
  let c := if cause = 2 || cause = 8 || cause = 10 || cause = 11 then c.note (.async cause syndrome) else c
  match c.dev.state with
  | .dark => c
  | .hunt =>
    if cause = 2 then c else c.modDev fun d => { d with pendingTrips := d.pendingTrips ++ [(cause, syndrome)] }
  | .admitting | .run =>
    let held := { c with fbks := vmap (fun _ (x : Fbk) => x.holdRepeat (c.stamp cycle)) c.fbks }
    let c' := held.harmless.dropPowerCredits.modDev fun d =>
      { d with
        state := .tripped, cause := cause, others := 0, syndrome := syndrome, tripAt := some (d.tick, cycle),
        tripThisTick := true }
    c'.modJournal fun j => { j with tripDue := cause ≠ 10 && cause ≠ 6 }
  | .tripped =>
    if cause = c.dev.cause then c
    else if c.dev.tripAt = some (c.dev.tick, cycle) && tripRank cause < tripRank c.dev.cause then
      let c' := c.modDev fun d =>
        { d with cause := cause, syndrome := syndrome, others := d.others ||| othersBit d.cause }
      c'.modJournal fun j => { j with tripDue := cause ≠ 10 && !j.fault }
    else c.modDev fun d => { d with others := d.others ||| othersBit cause }

/-- The last-word words of a syndrome (Table 17-4). -/
def lastWordOf (c : Chip) (kind step : BitVec 4) (addr : BitVec 20) (expected got : Word) : Vector Word 8 :=
  let w0 := field (0x4C57 : BitVec 16) 16 ||| field kind 4 ||| field step 0
  let w1 := addr.setWidth 32
  let w4 := c.dev.tick.extractLsb' 0 32
  let w5 := field c.journal.admission 16 ||| field (c.dev.tick.extractLsb' 32 16) 0
  let w6 := c.dev.wall.extractLsb' 0 32
  let crc := crc16 ([w0, w1, expected, got, w4, w5, w6].flatMap fun w => bytesBE w 4)
  #v[w0, w1, expected, got, w4, w5, w6, field (c.dev.wall.extractLsb' 32 16) 16 ||| field crc 0]

/-- The CRC of a last-word area is good (Table 17-4). -/
def lastWordGood (w : Vector Word 8) : Bool :=
  crc16 ((w.toList.take 7).flatMap fun x => bytesBE x 4) = slice w[7] 0 16

/-- The last-word area holds a syndrome that no record has taken yet (R357). -/
def Journal.areaHeld (j : Journal) : Bool := slice j.lastWord[0] 16 16 = (0x4C57 : BitVec 16)

/-- The last-word area does not take a write. -/
def Chip.areaBroken (c : Chip) : Bool := c.flaws.any fun f => f.memory = 4

/-- JOURNAL_FAULT (R356, R357): the engine stops for good, the syndrome goes to the last-word area and to the volatile copy unless
an unappended one stands there, and the device trips. -/
def Chip.journalFault (c : Chip) (kind step : BitVec 4) (addr : BitVec 20) (expected got : Word) (areaFails : Bool)
    (cycle : BitVec 14) : Chip :=
  let words := lastWordOf c kind step addr expected got
  let c' := c.modJournal fun j =>
    let j := { j with fault := true, writing := none, tripDue := false }
    if j.areaHeld || j.volatile.isSome then
      { j with
        volatile := j.volatile.orElse fun _ => some j.lastWord,
        lwState := if j.volatile.isSome then j.lwState else if lastWordGood j.lastWord then 1 else 3 }
    else if areaFails || c.areaBroken then { j with volatile := some words, lwState := 3 }
    else { j with volatile := some words, lastWord := words, lwState := 1 }
  c'.trip 6 (field step 20 ||| field addr 0) cycle

/-! ### Bit errors (R149, R338, R342, R356) -/

/-- The memory code of ECC_DOUBLE (Table 4-6). -/
def flawCode (m : Fin 6) : BitVec 4 := if m.val = 2 then 3 else if m.val = 5 then 2 else BitVec.ofNat 4 m.val

/-- The first word of a read that holds an uncorrectable error. -/
def Chip.badWord (c : Chip) (m : Fin 6) (words : Nat → Bool) : Option Nat :=
  (c.flaws.find? fun f => f.memory = m && f.double && words f.word).map Flaw.word

/-- A read that SECDED corrects: every single-bit error that it meets enters the input record (Table 2-4). -/
def Chip.noteReads (c : Chip) (m : Fin 6) (words : Nat → Bool) : Chip :=
  (c.flaws.filter fun f => f.memory = m && !f.double && words f.word).foldl (fun c f => c.note (.corrected m f.word)) c

/-- An uncorrectable word has been read: JOURNAL_FAULT in the journal, otherwise an ECC_DOUBLE trip (R25, R149, R356)
(DESIGN CHOICE, log entry 34). -/
def Chip.eccFail (c : Chip) (m : Fin 6) (w : Nat) (cycle : BitVec 14) : Chip :=
  if m.val = 3 then c.journalFault 2 0 (BitVec.ofNat 20 w) 0 0 false cycle
  else c.trip 5 (field (flawCode m) 28 ||| field (BitVec.ofNat 20 w) 0) cycle

/-- What reads the given words of a memory: an uncorrectable one trips the device in place of the work (R25, R149). -/
def State.reading (s : State) (m : Fin 6) (words : Nat → Bool) (cycle : Nat) (go : State → State) : State :=
  match s.chip.badWord m words with
  | some w => s.act fun c => c.eccFail m w (BitVec.ofNat 14 cycle)
  | none => go (s.act fun c => c.noteReads m words)

/-- The same for work on the device alone. -/
def Chip.reading (c : Chip) (m : Fin 6) (words : Nat → Bool) (cycle : Nat) (go : Chip → Chip) : Chip :=
  match c.badWord m words with
  | some w => c.eccFail m w (BitVec.ofNat 14 cycle)
  | none => go (c.noteReads m words)

/-! ### Sessions closing (R114) -/

/-- A session closes: keys, window, stages, a program load and per-session journal registers go, credits return, the stream
selection of its stream becomes NONE (R62, R114, R165). A stage that has been pressed stays, so that its accepted press takes
effect; SEC_REPLAY and SEC_NONCE return to 0 with the session (DESIGN CHOICE, log entry 88). -/
def Chip.endSession (c : Chip) (n : SessionId) : Chip :=
  let sid := BitVec.ofNat 4 n.val
  let c1 := c.modSec fun x =>
    { x with
      sessions := upd x.sessions n fun _ => Session.init,
      credits := x.credits.filter fun k => k.session ≠ sid,
      stage := (match x.stage with | some st => if st.owner = sid && !st.pressed then none else some st | none => none),
      load := (match x.load with | some l => if l.owner = sid then none else some l | none => none) }
  c1.modLnk fun l =>
    if l.streamOwner = sid && l.stream ≠ .none then
      { l with streamOwner := 0, stream := .none, streamNext := none, chunk := none }
    else match l.streamNext with
      | some (o, _) => if o = sid then { l with streamNext := none } else l
      | none => l

/-- A session closes with its journal record and reason code (Table 5-3, Table 17-2). -/
def Chip.closeSession (c : Chip) (n : SessionId) (reason : Byte) : Chip :=
  if (c.sec.sessions[n.val]).isOpen then
    let seat := (c.sec.sessions[n.val]).seat
    (c.endSession n).record 133 none [BitVec.ofNat 8 n.val, seat.setWidth 8, reason]
  else c

/-- A session that is to close for a reason at the next boundary; a reason that stands already stays (R114)
(DESIGN CHOICE, log entry 88). -/
def Session.toClose (x : Session) (reason : Byte) : Session :=
  { x with closing := match x.closing with
    | some 2 | none => some reason
    | some r => some r }

/-- A session closes at the next tick boundary (R112, R114). -/
def Chip.toClose (c : Chip) (n : SessionId) (reason : Byte) : Chip := c.modSession n fun x => x.toClose reason

/-- Every open session of a seat closes at the next tick boundary (R112, R113). -/
def Chip.toCloseSeat (c : Chip) (seat : BitVec 3) (reason : Byte) : Chip :=
  c.modSec fun s =>
    { s with sessions := vmap (fun n x => if n.val ≠ 0 && x.isOpen && x.seat = seat then x.toClose reason else x) s.sessions }

/-- A packet with a good tag restarts the idle count, and with it what IDLE has asked for (R110, Table 5-3). -/
def Session.heard (x : Session) : Session :=
  { x with idle := 0, closing := if x.closing = some 2 then none else x.closing }

/-- Every open session of a seat closes (R101). -/
def Chip.closeSeat (c : Chip) (seat : BitVec 3) (reason : Byte) : Chip :=
  foldFin 16 (fun n c => if n.val ≠ 0 && (c.sec.sessions[n.val]).seat = seat then c.closeSession n reason else c) c

/-! ### Audited changes (R128 to R135) -/

/-- The set with one member written. -/
def Sps.put (s : Sps) (i : SpsId) (v : Word) : Sps :=
  match i with
  | .car m k => { s with car := upd s.car m fun x => upd x k fun _ => some v }
  | .door m d => { s with door := upd s.door m fun x => upd x d fun _ => some v }
  | .ilk m k => { s with ilk := upd s.ilk m fun x => upd x k fun _ => some v }

/-- The five digest bytes of a member (R130). -/
def spsBytes (v : Option Word) : List Byte :=
  match v with
  | none => [1, 0, 0, 0, 0]
  | some w => 0 :: bytesBE w 4

/-- The SHA-256 of the safety parameter set: block, then index, then channel (R130). -/
def Sps.digest (s : Sps) : BitVec 256 :=
  sha256 ((s.car.toList.flatMap fun v => v.toList.flatMap spsBytes) ++ (s.door.toList.flatMap fun v => v.toList.flatMap spsBytes)
    ++ (s.ilk.toList.flatMap fun v => v.toList.flatMap spsBytes))

/-- The digest of an access table: rows in seat order, word 7 first (R119). -/
def tableDigest (t : Vector Row 8) : BitVec 256 :=
  sha256 (t.toList.flatMap fun r => r.toList.reverse.flatMap fun w => bytesBE w 4)

/-- A KEEPER change breaks a seal that stands (R134). -/
def Chip.breakSeal (c : Chip) (seq : Word) : Chip :=
  if c.sec.sealSt = .open_ then c
  else c.modSec fun x =>
    { x with sealSt := .broken, breaks := satInc x.breaks, sealSeat := 0, sealEvent := 2, sealAudit := seq.setWidth 16 }

/-- The write bits of the classes CARSPS, DOORSPS and ILKSPS of a row (Table 6-2). -/
def spsWriteBits (r : Row) : Bool × Bool × Bool :=
  ((r[0]).getLsbD 27, (r[1]).getLsbD 1, (r[1]).getLsbD 13)

/-- A press changes the write bits of the safety parameter set or the rows of INSPECTOR or INSTALLER (R134). -/
def pressBreaks (old new : Vector Row 8) : Bool :=
  (old.toList.map spsWriteBits ≠ new.toList.map spsWriteBits) || old[1] ≠ new[1] || old[2] ≠ new[2]

/-- The words of the key store that hold a seat's key, as bit errors number them (DESIGN CHOICE, log entry 34). -/
def keyWords (i : Fin 7) (w : Nat) : Bool := decide (4 * i.val ≤ w) && decide (w < 4 * i.val + 4)

/-- A seat's key has been written anew: no bit error of its words is left. -/
def Chip.keyWritten (c : Chip) (i : Fin 7) : Chip :=
  { c with flaws := c.flaws.filter fun f => f.memory ≠ 5 || !keyWords i f.word }

/-- Erase the keys of the given seats (R102) (DESIGN CHOICE, log entry 36). -/
def Chip.eraseKeys (c : Chip) (seats : BitVec 7) : Chip :=
  foldFin 7 (fun i c =>
    if seats.getLsbD i.val then
      let c' := c.modSec fun x =>
        { x with
          keys := upd x.keys i fun k => ⟨0, (if i.val = 0 then .zeroised else .empty), satInc k.changes⟩,
          challenges := vmap (fun _ ch => match ch with
            | some h => if h.seat.toNat = i.val then none else some h
            | none => none) x.challenges }
      (c'.keyWritten i).closeSeat (BitVec.ofNat 3 i.val) 5
    else c) c

/-- An audited write to a register of block 2 takes effect; the failures of a seat go with a lock that stands (R112, R113, R118, R140,
R141). -/
def Chip.secWrite (c : Chip) (reg : BitVec 6) (channel : BitVec 7) (v : Word) : Chip :=
  c.modSec fun x =>
    if reg = 0x00 then
      let m := slice v 16 7
      { x with
        locked := x.locked &&& ~~~m, lockDue := x.lockDue &&& ~~~m,
        seatFails := vmap (fun i l => if (m &&& (x.locked ||| x.lockDue)).getLsbD i.val then [] else l) x.seatFails }
    else if reg = 0x0A then { x with macMaxSeat := slice v 8 6, macMaxSession := slice v 0 4 }
    else if reg = 0x0D then { x with sessTo := slice v 0 20 }
    else if reg = 0x10 then { x with kdfCtx := v }
    else if reg = 0x11 then
      let k := 32 * channel.toNat
      { x with secureMask := (x.secureMask &&& ~~~((0xFFFFFFFF : BitVec 128) <<< k)) ||| (v.setWidth 128 <<< k) }
    else if reg = 0x13 then { x with witnessTo := slice v 0 11 }
    else if reg = 0x16 then
      if c.dev.state = .admitting || c.dev.state = .tripped then { x with tapEn := v.getLsbD 0 } else x
    else x

/-- KEEPER's key has been erased: no key can be set and no audited change can be made (R102)
(DESIGN CHOICE, log entry 93). -/
def Chip.keysGone (c : Chip) : Bool := c.sec.keys[0].state = .zeroised

/-- An accepted change takes effect on everything but the program store and the device state; a key whose change was accepted
before KEEPER's erasure took effect is not set after it (R102) (DEDUCED, log entry 37) (DESIGN CHOICE, log entry 93). -/
def Chip.applyChange (c : Chip) (seq : Word) : Change → Chip
  | .tblpress =>
    match c.sec.stage with
    | none => c
    | some st =>
      let breaks := pressBreaks c.sec.table st.rows
      let c' := c.modSec fun x => { x with table := st.rows, tblGen := x.tblGen + 1, stage := none }
      if breaks then c'.breakSeal seq else c'
  | .keyset i key =>
    if c.keysGone then c else
    let seat := BitVec.ofNat 3 i.val
    let c1 := c.modSec fun x =>
      { x with
        keys := upd x.keys i fun k => ⟨key, .isSet, satInc k.changes⟩,
        challenges := vmap (fun _ ch => match ch with
          | some h => if h.seat = seat then none else some h
          | none => none) x.challenges }
    let c2 := (c1.keyWritten i).closeSeat seat 5
    if i.val = 1 || i.val = 2 then c2.breakSeal seq else c2
  | .zeroize seats =>
    let c1 := c.eraseKeys seats
    if seats.getLsbD 1 || seats.getLsbD 2 then c1.breakSeal seq else c1
  | .secreg reg channel v => c.secWrite reg channel v
  | .readmit => c
  | .sps i v keeper =>
    let c1 := { c with sps := c.sps.put i v }
    if keeper then c1.breakSeal seq else c1
  | .starch => c.modSec fun x =>
    { x with
      spsDigest := c.sps.digest, sealSt := .sealed_, breaks := 0, witness := none, sealSeat := 1, sealEvent := 0,
      sealAudit := seq.setWidth 16 }
  | .unseal seat => c.modSec fun x =>
    { x with sealSt := .open_, witness := none, sealSeat := seat, sealEvent := 1, sealAudit := seq.setWidth 16 }
  | .darn _ _ => c

/-- The device as it will stand once every audited change already accepted has taken effect (R135, R388)
(DEDUCED, log entry 37). -/
def Chip.projected (c : Chip) : Chip := c.sec.audits.foldl (fun c a => c.applyChange a.seq a.change) c

/-- Audit slots that are free (R347). -/
def Chip.auditFree (c : Chip) : Nat := 4096 - c.journal.auditHead.toNat - c.journal.auditReserved.toNat

/-- The refusals of R128 and R86, of Table 4-4 before admission step 4 completes, and STATE once KEEPER's key has been erased, for a
change that writes n audit records (DEDUCED, log entry 37; DESIGN CHOICE, log entry 93). -/
def Chip.auditChecks (c : Chip) (n : Nat) : List (Bool × Status) :=
  [(c.keysGone, .state), (c.warning, .busy), (c.dev.state = .admitting && !c.dev.steps.getLsbD 3, .busy), (c.journal.fault, .fault),
    (c.journal.places < c.journal.queue.length + n, .full), (c.auditFree < n, .full)]

/-- A SOURCE byte for a host session (Table 17-1) (DESIGN CHOICE, log entry 39). -/
def hostSource (sid : BitVec 4) (seat : BitVec 3) : Byte := (0 : BitVec 1) ++ seat ++ sid

/-- Accept an audited change (R128, R347): its records with their types and bodies enter the journal queue, their slots are
reserved, and the last record's place holds the packet credit (DEDUCED, log entry 37). -/
def Chip.audit (c : Chip) (sid : BitVec 4) (seat : BitVec 3) (ch : Change) (brk : Bool) (car : Option CarId)
    (records : List (Byte × List Byte)) : Chip :=
  let credit := if (c.sec.creditKind sid seat).isSome then some c.nextCredit else none
  let first := c.journal.nextId
  let c1 := c.takeCredit sid seat
  let last := records.length - 1
  let c2 := (records.zipIdx).foldl
    (fun c r => c.enqueueRecord r.1.1 (hostSource sid seat) (recordFlags true false false brk car) r.1.2
      (if r.2 = last then credit else none) none) c1
  let c3 := c2.modJournal fun j => { j with auditReserved := j.auditReserved + BitVec.ofNat 13 records.length }
  c3.modSec fun x =>
    { x with audits := x.audits ++ [⟨ch, (List.range records.length).map (first + ·), 0, false⟩] }

/-! ### Entry to HUNT (R74) -/

/-- A car with its islands off, as a fresh one but for what the control core keeps and the sequence of its frames (R266). -/
def Car.off (x : Car) : Car :=
  { Car.init with
    islandItem := x.islandItem, islandResult := x.islandResult, threadFaultPending := x.threadFaultPending, dpSeq := x.dpSeq }

/-- What the retention cells take: DEV_TICK, DEV_WALLTIME, DEV_TRIPCAUSE and DEV_SYNDROME (R74). -/
def Dev.retainable (d : Dev) : Retained := ⟨d.tick, d.wall, d.cause, d.others, d.syndrome⟩

/-- Entry to HUNT: sessions closed without record, threads stopped, queues emptied, islands off, LNK fields and SEC_TAPCTL
reset, straps sampled, GO cleared; retention cells written when the supply has held (R74) (DESIGN CHOICE, log entry 30). -/
def Chip.enterHunt (c : Chip) (retain : Bool) (dropsel : BitVec 2) : Chip :=
  let keep : Option Retained := if retain then some c.dev.retainable else none
  { c with
    dev := (if retain then
        { c.dev with
          state := .hunt, cause := 0, others := 0, syndrome := 0, tripAt := none, tripThisTick := false, pendingTrips := [],
          retained := keep, go := false, tests := [], hotRun := 0, hostCycles := 0, hostStopped := false, runTicks := 0,
          wallSeen := none, stepHold := false, dropsel := dropsel }
      else { Dev.init with uid := c.dev.uid, dropsel := dropsel }),
    pwr := (if retain then { c.pwr with vid := c.pwr.act.vboot }
      else { Pwr.init with railMv := c.pwr.railMv, vioOn := c.pwr.vioOn }),
    lnk := { Lnk.init with
      drop := dropsel, rx0 := c.lnk.rx0, rx1 := c.lnk.rx1,
      home0 := c.lnk.home0, home1 := c.lnk.home1, eqSck := c.lnk.eqSck, eqDn1 := c.lnk.eqDn1, eqDn0 := c.lnk.eqDn0 },
    sec := { Sec.init with
      keys := c.sec.keys, locked := c.sec.locked, lockDue := if retain then c.sec.lockDue else 0, kdfCtx := c.sec.kdfCtx, table := c.sec.table, tblGen := c.sec.tblGen,
      sealSt := c.sec.sealSt, breaks := c.sec.breaks, sealSeat := c.sec.sealSeat, sealEvent := c.sec.sealEvent,
      sealAudit := c.sec.sealAudit, spsDigest := c.sec.spsDigest, secureMask := c.sec.secureMask,
      witnessTo := c.sec.witnessTo, progSeal := c.sec.progSeal },
    threads := Vector.replicate 48 Thread.init,
    cars := Vector.replicate 12 Car.init,
    doors := Vector.replicate 24 Door.init,
    taps := Vector.replicate 96 Tap.init,
    axes := channels Axis.init,
    fbks := Vector.replicate 24 Fbk.init,
    loops := channels Loop.init,
    fes := Vector.replicate 48 Fe.init,
    cals := Vector.replicate 12 ⟨[], false, none⟩,
    scan := { Scan.init with scrub := vmap (fun _ y => { y with rate := 4, visited := false }) c.scan.scrub },
    traceQueue := [],
    captures := Vector.replicate 8 none,
    blocks := [],
    sineNext := [],
    journal := { c.journal with
      queue := [], writing := none, started := false, scrubbed := false, fault := false, dropped := 0, loss := retain && c.journal.loss,
      auditReserved := 0, ready := false, tornWaits := false, tripDue := false,
      tornFound := false, tornArea := false, volatile := none, lwState := 0 } }

end Sys2Proof.Machine
end

