-- ==== Sys2Proof/Machine/Operands.lean ====
section
/-! DEFINITION. Who issues an instruction and what its operands name: operand B of the ALU instructions (R168), own channels
(Table 8-5), axes and cars of instructions (R184, R187), rights and masks (R120 to R122, R144), and the instruction word. -/

namespace Sys2Proof.Machine

/-- The issuer of an instruction that executes: a thread, or a host packet with its session, seat and CONF flag. -/
inductive Who where
  | thread (t : ThreadId)
  | host (sid : BitVec 4) (seat : BitVec 3) (conf : Bool)
  deriving DecidableEq, Repr

/-- The instruction word of an opcode and its fields (Table 8-1). -/
def encWord (op : BitVec 6) (f : Enc) : Word := op ++ f.d ++ f.a ++ f.m ++ f.imm

/-- The fields of an instruction word. -/
def encOf (w : Word) : Enc := ⟨slice w 22 4, slice w 18 4, slice w 16 2, slice w 0 16⟩

/-- The opcode of an instruction word. -/
def opOf (w : Word) : BitVec 6 := slice w 26 6

/-- Bits [k+w-1:k] of an immediate. -/
def immBits (x : BitVec 16) (k w : Nat) : BitVec w := x.extractLsb' k w

/-- Register W(n) of a register file. -/
def regOf (w : Vector Word 16) (n : BitVec 4) : Word := w[n.toNat]

/-- A register file with W(n) written. -/
def setReg (w : Vector Word 16) (n : BitVec 4) (x : Word) : Vector Word 16 := w.set n.toNat x

/-- Operand B of an ALU instruction (R168). -/
def operandB (w : Vector Word 16) (f : Enc) : Word :=
  match f.m.toNat with
  | 0 => regOf w (immBits f.imm 0 4)
  | 1 => f.imm.signExtend 32
  | 2 => f.imm.setWidth 32
  | _ => f.imm.setWidth 32 <<< 16

/-- IMM[15:4] must be 0 where M = 00b names a register (R168, R172) (DEDUCED, log entry 47). -/
def operandBIllegal (f : Enc) : Bool := f.m = 0 && immBits f.imm 4 12 ≠ 0

/-! ### Rights (R119 to R122, R136, R144) -/

/-- The access-table row of a seat. -/
def Chip.row (c : Chip) (seat : BitVec 3) : Row := c.sec.table[seat.toNat]

/-- Instruction right i of Table 6-3. -/
def Chip.right (c : Chip) (seat : BitVec 3) (i : Nat) : Bool := ((c.row seat)[2]).getLsbD i

/-- The read (w = 0) or write (w = 1) bit of a register class (Table 6-2). -/
def Chip.classBit (c : Chip) (seat : BitVec 3) (cls w : Nat) : Bool :=
  let b := 2 * cls + w
  if b < 32 then ((c.row seat)[0]).getLsbD b else ((c.row seat)[1]).getLsbD (b - 32)

/-- SECURED of a seat. -/
def Chip.secured (c : Chip) (seat : BitVec 3) : Bool := ((c.row seat)[4]).getLsbD 2

/-- VIEW of a seat. -/
def Chip.view (c : Chip) (seat : BitVec 3) : Nat := (slice ((c.row seat)[4]) 0 2).toNat

/-- The effective level of a seat (R136). -/
def Chip.level (c : Chip) (seat : BitVec 3) : Nat := if c.secured seat then c.view seat else max (c.view seat) 1

/-- The effective level of an issuer; threads receive exact results (R188). -/
def Chip.whoLevel (c : Chip) : Who → Nat
  | .thread _ => 0
  | .host _ seat _ => c.level seat

/-- Whether the issuer sees secured landings as they are. -/
def Chip.whoSecured (c : Chip) : Who → Bool
  | .thread _ => true
  | .host _ seat _ => c.secured seat

/-- The issuer may act on car k: CARACT of the seat, or ACT of the thread. -/
def Chip.mayAct (c : Chip) (who : Who) (k : CarId) : Bool :=
  match who with
  | .thread t => (c.threads[t.val]).actMaskAct.getLsbD k.val
  | .host _ seat _ => ((c.row seat)[3]).getLsbD (16 + k.val)

/-- The issuer may read car k: CARSEE of the seat, or SEE of the thread. -/
def Chip.maySee (c : Chip) (who : Who) (k : CarId) : Bool :=
  match who with
  | .thread t => (c.threads[t.val]).seeMaskAct.getLsbD k.val
  | .host _ seat _ => ((c.row seat)[3]).getLsbD k.val

/-- The issuer lacks an instruction right; threads need none (R122). -/
def Chip.lacks (c : Chip) (who : Who) (i : Nat) : Bool :=
  match who with
  | .thread _ => false
  | .host _ seat _ => !c.right seat i

/-- The issuer is a host packet of the given seat. -/
def Who.isSeat (who : Who) (n : Nat) : Bool :=
  match who with
  | .thread _ => false
  | .host _ seat _ => decide (seat.toNat = n)

/-- The issuer is a host packet. -/
def Who.isHost : Who → Bool
  | .thread _ => false
  | .host _ _ _ => true

/-- The session of a host packet, 0 for a thread. -/
def Who.sid : Who → BitVec 4
  | .thread _ => 0
  | .host s _ _ => s

/-- The seat of a host packet, OPEN for a thread. -/
def Who.seat : Who → BitVec 3
  | .thread _ => 7
  | .host _ s _ => s

/-- The producer of an engine item. -/
def Who.producer : Who → Option ThreadId
  | .thread t => some t
  | .host _ _ _ => none

/-- A thread that serves one car, or one door of it. -/
def Who.ownCar : Who → Option CarId
  | .thread t => carOfThread t
  | .host _ _ _ => none

/-- A thread's own axis: axis t for car and door threads (Table 8-5). -/
def Who.ownAxis : Who → Option AxisId
  | .thread t => if h : t.val < 36 then some ⟨t.val, h⟩ else none
  | .host _ _ _ => none

/-- The axis that a motion instruction names, absent where it returns RANGE (R184). -/
def axisOperand (who : Who) (imm : BitVec 16) : Option AxisId :=
  if imm.getLsbD 6 then (if immBits imm 0 6 = 0 then who.ownAxis else none)
  else fin? 36 (immBits imm 0 6).toNat

/-- The car that a stop or interlock instruction names, absent where it returns RANGE (R187). -/
def carOperand (who : Who) (imm : BitVec 16) : Option CarId :=
  if imm.getLsbD 6 then (if immBits imm 0 4 = 0 then who.ownCar else none)
  else fin? 12 (immBits imm 0 4).toNat

/-- The own channel of an issuer in a replicated block (Table 8-5); block 2 registers per session or per seat are marked by
`perSeat` (DEDUCED, log entry 48). -/
def ownChannel (who : Who) (block : Nat) (replicated perSession perSeat : Bool) : Option Nat :=
  if !replicated then some 0
  else match who with
  | .host sid seat _ => if perSession then some sid.toNat else if perSeat then some seat.toNat else none
  | .thread t =>
    let own := carOfThread t
    let k := (own.map Fin.val).getD 0
    let door : Option Nat := if t.val < 12 then none else some (t.val - 12)
    if block = 3 then some t.val
    else if own.isNone then none
    else match block with
      | 4 | 0xA | 0xD => some k
      | 5 => some (door.getD (2 * k))
      | 6 => some (2 * k)
      | 7 => some (match door with | none => 72 + k | some d => 3 * d)
      | 8 => some (match door with | none => k | some d => 12 + d)
      | 9 => some (match door with | none => 4 * k | some d => if d % 2 = 0 then 4 * k + 1 else 4 * k + 2)
      | _ => none

end Sys2Proof.Machine
end

