-- ==== Sys2Proof/Machine/ScanEngine.lean ====
section
/-! DEFINITION. What the scan engine reads: check values (R332, R333), the data RAM as a cycle of the thread window sees it (R20,
R148), and the engine brought forward to a cycle of the tick (R338). -/

namespace Sys2Proof.Machine

/-! ### Check values (R332, R341) -/

/-- The width in bytes of a polynomial of R332. -/
def ckBytes (sel : BitVec 2) : Nat :=
  match sel.toNat with
  | 0 => 1
  | 1 => 2
  | _ => 4

/-- The running register of a channel after bits, held in the low w bits of a word. -/
def ckBits (sel : BitVec 2) (reg : Word) (bs : List Bool) : Word :=
  match sel.toNat with
  | 0 => (crcBits (0x2F : BitVec 8) (reg.setWidth 8) bs).setWidth 32
  | 1 => (crcBits (0x1021 : BitVec 16) (reg.setWidth 16) bs).setWidth 32
  | 2 => crcBits 0x04C11DB7 reg bs
  | _ => crcBits 0x1EDC6F41 reg bs

/-- The bits of a byte in the order in which it enters. -/
def ckByteBits (refIn : Bool) (b : Byte) : List Bool := if refIn then (byteBits b).reverse else byteBits b

/-- The low w bits of a word. -/
def ckMask (sel : BitVec 2) (x : Word) : Word :=
  match sel.toNat with
  | 0 => x &&& 0xFF
  | 1 => x &&& 0xFFFF
  | _ => x

/-- A register reversed across w bits. -/
def ckReverse (sel : BitVec 2) (x : Word) : Word :=
  match sel.toNat with
  | 0 => (reflect (x.setWidth 8 : BitVec 8)).setWidth 32
  | 1 => (reflect (x.setWidth 16 : BitVec 16)).setWidth 32
  | _ => reflect x

/-- The register that a job starts from: CRC_INIT, or the one that CRC_VAL stands for with CONT (R332, R341). -/
def CkCfg.start (q : CkCfg) (val : Word) : Word :=
  if q.cont then
    let x := ckMask q.sel (val ^^^ q.xorOut)
    if q.refOut then ckReverse q.sel x else x
  else ckMask q.sel q.init

/-- The register after bytes. -/
def CkCfg.feed (q : CkCfg) (reg : Word) (bs : List Byte) : Word := ckBits q.sel reg (bs.flatMap (ckByteBits q.refIn))

/-- The check value of a register (R332). -/
def CkCfg.finish (q : CkCfg) (reg : Word) : Word :=
  (if q.refOut then ckReverse q.sel reg else reg) ^^^ ckMask q.sel q.xorOut

/-- A check value as appended or expected bytes (R337). -/
def CkCfg.bytes (q : CkCfg) (v : Word) : List Byte :=
  let b := bytesBE v (ckBytes q.sel)
  if q.refOut then b.reverse else b

/-! ### Data RAM in the thread window (R20, R148) -/

/-- The write that stands of a list of writes to one word: the latest cycle, and in one cycle the higher cluster (R20, R148). -/
def standing (l : List RamWrite) : Option RamWrite :=
  l.foldl (fun best w => match best with
    | none => some w
    | some b => if b.cycle < w.cycle || (b.cycle = w.cycle && b.cluster ≤ w.cluster) then some w else some b) none

/-- The data RAM word that a read in a cycle of the thread window sees: what stood before the cycle (R148). -/
def Chip.ramSeen (c : Chip) (m : Mems) (a cycle : Nat) : Word :=
  match standing (c.ramLog.filter fun w => w.addr = a && decide (w.cycle < cycle)) with
  | none => m.ram.readLE a
  | some w => w.word

/-- The window's writes with one more; the first one to a word is preceded by the word as it stood (R148)
(DESIGN CHOICE, log entry 5). -/
def Chip.logRam (c : Chip) (m : Mems) (w : RamWrite) : Chip :=
  let before := if c.ramLog.any fun x => x.addr = w.addr then [] else [⟨w.addr, 0, 0, m.ram.readLE w.addr⟩]
  { c with ramLog := c.ramLog ++ before ++ [w] }

/-- The word that stands at an address after the window's writes. -/
def Chip.ramStands (c : Chip) (m : Mems) (a : Nat) : Word :=
  match standing (c.ramLog.filter fun w => w.addr = a) with
  | none => m.ram.readLE a
  | some w => w.word

/-- Where a cam table word stands in the window's log of writes: behind the addresses of data RAM. -/
def camPlace (a : Nat) : Nat := 0x30000 + a

/-- The cam table word that a read in a cycle of the thread window sees: what stood before the cycle (R338). -/
def Chip.camSeen (c : Chip) (m : Mems) (a cycle : Nat) : Word :=
  match standing (c.ramLog.filter fun w => w.addr = camPlace a && decide (w.cycle < cycle)) with
  | none => m.cam.readLE a
  | some w => w.word

/-- A thread's write to a cam table word enters the window's log; the first one to a word is preceded by the word as it stood
(R213, R338) (DESIGN CHOICE, log entry 5). -/
def Chip.logCam (c : Chip) (m : Mems) (a cycle cluster : Nat) (v : Word) : Chip :=
  let before := if c.ramLog.any fun x => x.addr = camPlace a then [] else [⟨camPlace a, 0, 0, m.cam.readLE a⟩]
  { c with ramLog := c.ramLog ++ before ++ [⟨camPlace a, cycle, cluster, v⟩] }

/-! ### The engine (R335 to R340) -/

/-- The expected bytes that a job reads after its first L (R337). -/
def CkCfg.extraRead (q : CkCfg) : Nat := if q.mode = 2 then ckBytes q.sel else 0
/-- The bytes that a job appends. -/
def CkCfg.appended (q : CkCfg) : Nat := if q.mode = 1 then ckBytes q.sel else 0

/-- B of a job: the bytes that it reads (R338). -/
def ScanJob.reads (j : ScanJob) : Nat := j.len.toNat + j.cfg.extraRead

/-- A check-value channel changed. -/
def Chip.modCk (c : Chip) (k : CkId) (f : Ck → Ck) : Chip := { c with scan := { c.scan with cks := upd c.scan.cks k f } }

/-- The memory that a space names, as bit errors number it. -/
def spaceMemory (space : BitVec 2) : Fin 6 :=
  match space.toNat with
  | 0 => 0
  | 1 => 1
  | _ => 2

/-- The engine cycles in which a job reads (R338). -/
def ScanJob.readCycles (j : ScanJob) : Nat := (j.reads + 3) / 4

/-- The byte that the engine reads in a cycle: a word as it stood before any write of that cycle (R148, R338)
(DEDUCED, log entry 78). -/
def Chip.scanByte (c : Chip) (m : Mems) (space : BitVec 2) (a cycle : Nat) : Byte :=
  match space.toNat with
  | 0 => slice (c.ramSeen m (a / 4 * 4) cycle) (8 * (a % 4)) 8
  | 1 => m.prog.read a
  | _ => slice (c.camSeen m (a / 4 * 4) cycle) (8 * (a % 4)) 8

/-- The lowest word of a read that holds an uncorrectable error. -/
def Chip.firstBad (c : Chip) (m : Fin 6) (words : Nat → Bool) : Option Nat :=
  (c.flaws.filter fun f => f.memory = m && f.double && words f.word).foldl (fun best f => match best with
    | none => some f.word
    | some b => some (min b f.word)) none

/-- The running job after n engine cycles more of reading: its first L bytes enter the register, the rest are what it expects
(R337, R338). -/
def Chip.scanRead (c : Chip) (m : Mems) (r : ScanRun) (n : Nat) : Chip :=
  let j := r.job
  let first := 4 * r.spent
  let count := min (4 * n) (j.reads - first)
  let bytes := (List.range count).map fun i =>
    (first + i, c.scanByte m j.space (j.start.toNat + first + i) (c.scan.cycle + i / 4))
  let text := (bytes.filter fun b => decide (b.1 < j.len.toNat)).map Prod.snd
  let extra := (bytes.filter fun b => !decide (b.1 < j.len.toNat)).map Prod.snd
  let r' : ScanRun := { r with reg := j.cfg.feed r.reg text, spent := r.spent + n, expected := r.expected ++ extra }
  ({ c with scan := { c.scan with running := some r', cycle := c.scan.cycle + n } }).modCk j.ck fun y =>
    { y with done := BitVec.ofNat 18 (min j.reads (first + count)) }

/-- The words that the running job reads before a cycle of the present tick (R338). -/
def Chip.scanWords (c : Chip) (r : ScanRun) (cycle : Nat) (w : Nat) : Bool :=
  let first := r.job.start.toNat + 4 * r.spent
  let last := min (first + 4 * min (cycle - c.scan.cycle) (r.job.readCycles - r.spent)) (r.job.start.toNat + r.job.reads)
  decide (first < last) && decide (first / 4 ≤ w) && decide (4 * w < last)

/-- The engine brought forward to a cycle of the present tick: it reads until then or until its job has no byte left; a corrected
word enters the input record, and an uncorrectable one trips the device in the cycle that reads it (R338, R340)
(DEDUCED, log entry 78). -/
def Chip.scanTo (c : Chip) (m : Mems) (cycle : Nat) : Chip :=
  match c.scan.running with
  | none => c
  | some r =>
    let n := min (cycle - c.scan.cycle) (r.job.readCycles - r.spent)
    let mem := spaceMemory r.job.space
    let words := c.scanWords r cycle
    match c.firstBad mem words with
    | none => (c.scanRead m r n).noteReads mem words
    | some w =>
      let before := (4 * w - (r.job.start.toNat + 4 * r.spent)) / 4
      ((c.scanRead m r before).noteReads mem fun x => words x && decide (x < w)).eccFail mem w
        (BitVec.ofNat 14 (c.scan.cycle + before))

/-- A thread writes a word in a cycle: where the running job has read it by then, a single-bit error that the read has corrected enters
the input record before the write removes it (R338, Table 2-4). -/
def Chip.noteScanned (c : Chip) (mem : Fin 6) (w cycle : Nat) : Chip :=
  match c.scan.running with
  | none => c
  | some r => if spaceMemory r.job.space = mem then c.noteReads mem fun x => decide (x = w) && c.scanWords r (cycle + 1) x else c

/-- The running job reads an uncorrectable word before a cycle of the present tick (R338). -/
def Chip.scanFails (c : Chip) (cycle : Nat) : Bool :=
  match c.scan.running with
  | none => false
  | some r => (c.firstBad (spaceMemory r.job.space) (c.scanWords r cycle)).isSome

end Sys2Proof.Machine
end

