-- ==== Sys2Proof/Machine/Gate.lean ====
section
/-! DEFINITION. How an instruction is issued: by a thread in its slot (R142, R152, R156, R171), or by a host packet through
the checks of R110 and R11, with its result packet (R58, R107, R108, R117). -/

namespace Sys2Proof.Machine

/-- What an instruction sees of its issuer: who it is, its fields, and the registers it may read. -/
structure Ctx where
  who : Who
  f : Enc
  w : Vector Word 16

/-- What an instruction answers: its status, the registers it writes, its memory writes and the device after it. -/
structure Reply where
  status : Status
  writes : List (BitVec 4 × Word)
  mem : List MemWrite
  chip : Chip

/-- An instruction's answer in parts: its encoding faults, its refusals in any order, the queue that FULL comes from, its effect
where nothing refuses it, and what a refusal leaves: nothing, unless the rule of the refusal says otherwise (R104, R100, R249). -/
structure Plan where
  illegal : Bool
  checks : List (Bool × Status)
  queue : Option QueueId
  act : Chip → Reply
  onRefusal : Status → Chip → Chip := fun _ c => c

/-- The meaning of a status instruction. -/
abbrev Body := Ctx → Mems → Chip → Plan

/-- The plain answer with a status and the device after it. -/
def reply (s : Status) (c : Chip) : Reply := ⟨s, [], [], c⟩

/-- A plan that always answers with a refusal. -/
def refuse (s : Status) : Plan := { illegal := false, checks := [(true, s)], queue := none, act := fun c => reply s c }

/-- The answer of a plan on the device, after further checks. -/
def Plan.answer (p : Plan) (pre : List (Bool × Status)) (c : Chip) : Reply :=
  match refusal (pre ++ p.checks) with
  | some s => reply s (p.onRefusal s c)
  | none => p.act c

/-! ### Threads -/

/-- A thread fault: no effect, the slot ends, the thread restarts in its next slot (R156). -/
def Thread.fault (t : Thread) (code : Byte) : Thread :=
  { t with faultPc := t.pc, faultCode := code, mustRestart := true, slotLeft := 0 }

/-- Account an instruction that starts: cycles of the slot and THR_USED (R152). -/
def Thread.charge (t : Thread) (cycles : Nat) : Thread :=
  let n := BitVec.ofNat 14 cycles
  let last := t.last + n
  { t with slotLeft := t.slotLeft - n, last := last, peak := if t.peak.toNat < last.toNat then last else t.peak, ran := true }

/-- The thread's car has its islands on, or the thread serves no car (R15). -/
def Chip.lit (c : Chip) (t : ThreadId) : Bool :=
  match carOfThread t with
  | none => true
  | some k => (c.cars[k.val]).on

/-- The cycle at which the slot of a thread begins (R150). -/
def Chip.slotStart (c : Chip) (t : ThreadId) : Nat :=
  let own := clusterOf t
  1536 + (((List.finRange 48).filter fun u => (clusterOf u).1 = own.1 && (clusterOf u).2 < own.2).map
    fun u => (c.threads[u.val]).budgetAct.toNat).foldl (· + ·) 0

/-- The cycle at which the thread's latest instruction, of the given count, has started (R152). -/
def Chip.cycleOf (c : Chip) (t : ThreadId) (cycles : Nat) : Nat :=
  let x := c.threads[t.val]
  c.slotStart t + x.budgetAct.toNat - x.slotLeft.toNat - cycles

/-- Work of thread t in a cycle is in turn: no instruction of a later cycle, or of a higher cluster in the same one, has started in
this window (R20) (DESIGN CHOICE, log entry 5). -/
def Chip.inTurn (c : Chip) (t : ThreadId) (cycle : Nat) : Bool :=
  decide (c.turn.1 < cycle) || (decide (c.turn.1 = cycle) && decide (c.turn.2 ≤ (clusterOf t).1))

/-- Thread t works in a cycle: what would come before it is no more in turn (R20) (DESIGN CHOICE, log entry 5). -/
def Chip.takeTurn (c : Chip) (t : ThreadId) (cycle : Nat) : Chip := { c with turn := (cycle, (clusterOf t).1) }

/-- The thread may execute an instruction now: the device runs with SCK, the thread window is open, the islands of the thread's car are
on, the thread is READY, its slot is open, no fault waits for a restart, and the instruction is in turn (R15, R18, R20, R152). -/
def Chip.canRun (c : Chip) (t : ThreadId) : Bool :=
  c.running && c.lnk.sckRunning && c.stage = .thread && (c.threads[t.val]).st = .ready && 0 < (c.threads[t.val]).slotLeft.toNat && !(c.threads[t.val]).mustRestart &&
    c.lit t && c.inTurn t (c.cycleOf t 0)

/-- The device as an instruction of thread t starts in its cycle, with its cycles counted (R20, R152). -/
def Chip.starts (c : Chip) (t : ThreadId) (cycles : Nat) : Chip :=
  (c.takeTurn t (c.cycleOf t 0)).modThread t fun x => x.charge cycles

/-- Work in a cycle of the thread window; where the scan engine has read an uncorrectable word by then, the device trips in place of it, in
the cycle of that read (R25, R338) (DESIGN CHOICE, log entry 110). -/
def State.behindScan (s : State) (cycle : Nat) (go : State → State) : State :=
  if s.chip.scanFails (cycle + 1) then s.act fun c => c.scanTo s.mem (cycle + 1) else go s

/-- Work of a thread that may execute now (R25, R338). -/
def State.threadNow (s : State) (t : ThreadId) (go : State → State) : State :=
  if s.chip.canRun t then s.behindScan (s.chip.cycleOf t 0) go else s

/-- Run an instruction of a thread: where its cycles do not fit, the slot ends and it starts first in the next one (R152)
(DESIGN CHOICE, log entry 5). -/
def threadRun (t : ThreadId) (cycles : Nat) (s : State) (go : State → State) : State :=
  s.threadNow t fun s =>
    if (s.chip.threads[t.val]).slotLeft.toNat < cycles then
      { s with chip := s.chip.modThread t fun x => { x with slotLeft := 0 } }
    else go { s with chip := s.chip.starts t cycles }

/-- A status code in W15 and Z (R142). -/
def Thread.setStatus (t : Thread) (s : Status) : Thread :=
  { t with w := setReg t.w 15 (s.code.setWidth 32), flags := { t.flags with z := s.ok } }

/-- A status instruction in a thread (R142, R156, R171, R172) (DESIGN CHOICE, log entry 5). -/
def threadIssue (t : ThreadId) (f : Enc) (cycles : Nat) (body : Body) (s : State) : State :=
  threadRun t cycles s fun s =>
    let c := s.chip
    let plan := body ⟨.thread t, f, (c.threads[t.val]).w⟩ s.mem c
    if f.d = 15 || plan.illegal then { s with chip := c.modThread t fun x => x.fault 2 }
    else
      let r := plan.answer [] c
      let full := match r.status, plan.queue with
        | .full, some q => r.chip.noteFull t q
        | _, _ => r.chip
      let c' := full.modThread t fun x =>
        let x := if r.status.ok then { x with w := r.writes.foldl (fun w p => setReg w p.1 p.2) x.w } else x
        { x.setStatus r.status with pc := x.pc + 1 }
      s.with (if r.status.ok then r.mem else []) c'

/-! ### Reads that meet a bit error (R25, R149) -/

/-- The cycle of the tick at which an instruction of the given count has started (R18, R152, R173). -/
def Chip.startedAt (c : Chip) (who : Who) (cycles : Nat) : Nat :=
  match who with
  | .thread t => c.cycleOf t cycles
  | .host _ _ _ => c.dev.hostCycles.toNat - cycles

/-- A plan that reads words of a memory, with the checks of what it reads: an uncorrectable word trips the device in place of the
effect, and the instruction is answered as any one in the trip's tick is (R25, R81, R149) (DESIGN CHOICE, log entry 34). -/
def Plan.reads (p : Plan) (c : Chip) (who : Who) (cycles : Nat) (m : Fin 6) (words : Nat → Bool) (content : List (Bool × Status)) :
    Plan :=
  match c.badWord m words with
  | some w => { p with act := fun c => reply .state (c.eccFail m w (BitVec.ofNat 14 (c.startedAt who cycles))) }
  | none => { p with checks := p.checks ++ content, act := fun c => p.act (c.noteReads m words) }

/-! ### Host packets -/

/-- The counter block of R108. -/
def confCounter (drop : BitVec 2) (sid : Byte) (seq : Word) : Block :=
  (0 : Byte) ++ drop.setWidth 8 ++ sid ++ (0 : Byte) ++ seq ++ (0 : BitVec 64)

/-- Encrypt or decrypt bytes 8 to 23 under a key (R108). -/
def confBlock (key : Block) (drop : BitVec 2) (sid : Byte) (seq : Word) (x : Block) : Block :=
  x ^^^ aes key (confCounter drop sid seq)

/-- The 29 bytes of the tag input of a packet or result: drop, session, sequence, bytes 1 to 23 (R107). -/
def tagInput (drop : BitVec 2) (sid : Byte) (seq : Word) (b1 : Byte) (kind : BitVec 16) (body : Block) : List Byte :=
  [drop.setWidth 8, sid] ++ bytesBE seq 4 ++ [b1] ++ bytesBE kind 2 ++ bytesBE seq 4 ++ bytesBE body 16

/-- The open keyed session that a packet names, where there is one (R97). -/
def Chip.sessionOf (c : Chip) (sid : Byte) : Option SessionId :=
  match fin? 16 sid.toNat with
  | none => none
  | some n => if n.val ≠ 0 && (c.sec.sessions[n.val]).isOpen then some n else none

/-- Bytes 8 to 23 of a packet on the wire: the instruction word and operands, encrypted with CONF in a keyed session
(DESIGN CHOICE, log entry 4). -/
def Chip.wireBody (c : Chip) (p : Packet) (word : Word) : Block :=
  let plain : Block := word ++ p.a ++ p.b ++ p.c
  match c.sessionOf p.sid with
  | none => plain
  | some n =>
    if p.flags.getLsbD 0 then confBlock (c.sec.sessions[n.val]).kEncDown c.lnk.drop p.sid p.seq plain else plain

/-- The packet as it stands on the wire (Table 3-3) (DESIGN CHOICE, log entry 4). -/
def wirePacket (p : Packet) (body : Block) : WirePacket := p.sid ++ p.flags ++ p.kind ++ p.seq ++ body ++ p.tag

/-- The window entry of a sequence, where one is not FREE (R110). -/
def Session.entry (x : Session) (seq : Word) : Option WinEntry :=
  if seq.toNat ≤ x.high.toNat && x.high.toNat < seq.toNat + 64 then x.window.find? fun e => e.seq = seq else none

/-- What R110 decides before an evaluation: ECHO with the kept bytes, a failed tag check, an answer behind a good tag or
without a session, or the evaluation. -/
inductive Gate where
  | echo (body : Block)
  | badTag
  | stop (status : Byte)
  | evaluate
  deriving DecidableEq, Repr

/-- The pre-evaluation answer of R110; session 0 has no window and a zero tag (R96, R107) (DEDUCED, log entry 38). -/
def Chip.gate (c : Chip) (p : Packet) (body : Block) : Gate :=
  if p.sid = 0 then (if p.tag = 0 then .evaluate else .badTag)
  else match c.sessionOf p.sid with
  | none => .stop Status.noSession.code
  | some n =>
    let x := c.sec.sessions[n.val]
    let good := cmacTag x.kMacDown (tagInput c.lnk.drop p.sid p.seq p.flags p.kind body) = p.tag
    let rest : Gate :=
      if !good then .badTag
      else if p.seq.toNat + 63 < x.high.toNat then .stop Status.replay.code
      else if x.high.toNat < p.seq.toNat then .evaluate
      else match x.entry p.seq with
        | none => .evaluate
        | some e => match e.st with
          | .spent code => if e.tag = p.tag then .stop code else .stop Status.replay.code
          | .effect _ => .stop Status.replay.code
    match x.entry p.seq with
    | some e => match e.st with
      | .effect b => if e.tag = p.tag then .echo b else rest
      | .spent _ => rest
    | none => rest

/-- A failed tag check counts against the session and its seat (R112); in session 0 only in the total
(DESIGN CHOICE, log entry 39). -/
def Chip.countMac (c : Chip) (sid : Byte) : Chip :=
  let c1 := c.modSec fun x => { x with macTotal := satInc x.macTotal }
  match c.sessionOf sid with
  | none => c1
  | some n =>
    let seat := (c.sec.sessions[n.val]).seat
    (c1.modSession n fun x => { x with macTicks := c.dev.tick :: x.macTicks }).modSec fun x =>
      match fin? 7 seat.toNat with
      | none => x
      | some i => { x with seatFails := upd x.seatFails i fun l => c.dev.tick :: l }

/-- The counters of an answer given before evaluation: MAC failures, REPLAY and ECHO answers (R110, R112, Table 5-4). A tag
that was checked and found good restarts the idle count, that of session 0 too. -/
def Chip.countGate (c : Chip) (p : Packet) : Gate → Chip
  | .echo _ => match c.sessionOf p.sid with
    | none => c
    | some n => c.modSession n fun x => { x with echoes := satInc x.echoes }
  | .badTag => c.countMac p.sid
  | .stop code => match c.sessionOf p.sid with
    | none => c
    | some n => c.modSession n fun x =>
      { x.heard with replays := if code = Status.replay.code then satInc x.replays else x.replays }
  | .evaluate => match c.sessionOf p.sid with
    | none => c.modSession 0 fun x => { x with idle := 0 }
    | some n => c.modSession n fun x =>
      let high := if x.high.toNat < p.seq.toNat then p.seq else x.high
      { x.heard with high := high, window := x.window.filter fun e => high.toNat < e.seq.toNat + 64 }

/-- The result packet of a packet: zero tag in session 0 or without a session (R58, R107). -/
def Chip.result (c : Chip) (p : Packet) (status : Byte) (body : Block) : Result :=
  let tag : Tag := match c.sessionOf p.sid with
    | none => 0
    | some n => cmacTag (c.sec.sessions[n.val]).kMacUp (tagInput c.lnk.drop p.sid p.seq status p.kind body)
  ⟨p.sid, status, p.kind, p.seq, body, tag⟩

/-- Append the result of a packet in its position (R58). -/
def Chip.answerPacket (c : Chip) (p : Packet) (status : Byte) (body : Block) : Chip :=
  c.modLnk fun l => { l with results := l.results ++ [c.result p status body] }

/-- The window entry after an evaluation: EFFECT, FREE or SPENT (R110). -/
def Session.close_ (x : Session) (p : Packet) (status : Status) (body : Block) : Session :=
  let rest := x.window.filter fun e => e.seq ≠ p.seq
  { x with
    window :=
      if status.ok then ⟨p.seq, p.tag, .effect body⟩ :: rest
      else if status = .full || status = .busy then rest
      else ⟨p.seq, p.tag, .spent status.code⟩ :: rest }

/-- The result words W0 to W3 of the registers that an instruction writes (R169). -/
def resultBody (ws : List (BitVec 4 × Word)) : Block :=
  let w := ws.foldl (fun w p => setReg w p.1 p.2) (Vector.replicate 16 (0 : Word))
  w[0] ++ w[1] ++ w[2] ++ w[3]

/-- Table 4-4: the refusals that the device state gives an instruction of the host (DEDUCED, log entry 26). -/
def Chip.deviceChecks (c : Chip) (op : BitVec 6) (f : Enc) : List (Bool × Status) :=
  let o := op.toNat
  let block := (immBits f.imm 12 4).toNat
  let index := (immBits f.imm 6 6).toNat
  let opening := o = 0x36 || o = 0x37
  match c.dev.state with
  | .dark | .hunt => [(true, .state)]
  | .run => []
  | .admitting =>
    let early := c.dev.tick.toNat < 64
    let listed := opening || o = 0x1C || (o = 0x1D && (block ≤ 3 || block = 0xD)) || o = 0x35 || (0x38 ≤ o && o ≤ 0x3D)
      || (o = 0x2A && (immBits f.imm 0 8).toNat < 0x10)
    [(early && opening, .busy), ((early && !opening) || !listed, .state)]
  | .tripped =>
    [(!(opening || o = 0x1C || o = 0x35 || (o = 0x1D && ((block = 0 && index = 8) || (block = 2 && index = 0x16)))), .state)]

/-- The packet rung (R173, Table 4-10): a packet whose count does not end by cycle 255 is not started, and the section stops
there (DEDUCED, log entry 38). -/
def Chip.rung (c : Chip) (cycles : Nat) : Chip :=
  c.modDev fun d =>
    if d.hostStopped || decide (256 < d.hostCycles.toNat + cycles) then { d with hostStopped := true }
    else { d with hostCycles := d.hostCycles + BitVec.ofNat 16 cycles }

/-- STATE where the device has tripped in this tick (R81), BUSY where the packet rung has stopped the section (Table 4-10)
(DEDUCED, log entry 38). -/
def Chip.rungChecks (c : Chip) : List (Bool × Status) := [(c.dev.tripThisTick, .state), (c.dev.hostStopped, .busy)]

/-- Evaluate a packet from ILLEGAL onward and answer it (R11, R57, R108, R110, R117, R169) (DEDUCED, log entry 38). The encoding stands
before the proof of a SESSION: with a field that must be 0 it answers ILLEGAL, counts nothing and keeps the challenge, whatever its proof
(DESIGN CHOICE, log entry 116). -/
def Chip.evaluate (c : Chip) (p : Packet) (op : BitVec 6) (f : Enc) (illegal : Bool) (plan : Plan) : List MemWrite × Chip :=
  let c1 := c.countGate p .evaluate
  let r := if illegal then reply .illegal c1 else plan.answer (c1.rungChecks ++ c1.deviceChecks op f) c1
  let plain := if r.status.ok then resultBody r.writes else 0
  let sent : Block := match c.sessionOf p.sid with
    | none => plain
    | some n =>
      if p.flags.getLsbD 0 && r.status.ok then confBlock (c.sec.sessions[n.val]).kEncUp c.lnk.drop p.sid p.seq plain
      else plain
  let c2 := r.chip.answerPacket p r.status.code sent
  let c3 := match c.sessionOf p.sid with
    | none => c2
    | some n => c2.modSession n fun x => x.close_ p r.status sent
  (if r.status.ok then r.mem else [], c3)

/-- The seat of a packet's session: OPEN without a keyed one (R97). -/
def Chip.packetSeat (c : Chip) (p : Packet) : BitVec 3 :=
  match c.sessionOf p.sid with
  | none => 7
  | some n => (c.sec.sessions[n.val]).seat

/-- Operands A, B and C of a packet as W1 to W3 (R169). -/
def packetOperands (p : Packet) : Vector Word 16 :=
  ((Vector.replicate 16 (0 : Word)).set 1 p.a |>.set 2 p.b |>.set 3 p.c)

/-- The encoding faults of a packet (R57, R108, R169, R170, R172). -/
def packetIllegal (p : Packet) (f : Enc) (plan : Plan) : Bool :=
  p.kind ≠ 1 || p.flags &&& 0xFE ≠ 0 || (p.sid = 0 && p.flags.getLsbD 0) || 3 < f.d.toNat || 3 < f.a.toNat || plan.illegal

/-- A host packet executes in its section's order while the Host phase lasts (R18, R59, R110, R116, R173): what R110 decides
comes first, and a trip of the tick or the packet rung refuses at its place in R11. It is the packet that stands first in
the own section, or nothing happens (DESIGN CHOICE, log entry 4). -/
def hostIssue (p : Packet) (op : BitVec 6) (f : Enc) (cycles : Nat) (body : Body) (s : State) : State :=
  let c := s.chip
  let cipher := c.wireBody p (encWord op f)
  match c.lnk.section_ with
  | [] => s
  | head :: rest =>
    if head ≠ wirePacket p cipher || !c.may .host then s
    else
      let c := c.modLnk fun l => { l with section_ := rest }
      let plan := body ⟨.host (p.sid.setWidth 4) (c.packetSeat p) (p.flags.getLsbD 0), f, packetOperands p⟩ s.mem c
      let illegal := packetIllegal p f plan
      match c.gate p cipher with
      | .echo b => s.act fun _ => ((c.rung 8).countGate p (.echo b)).answerPacket p Status.echo.code b
      | .badTag => s.act fun _ => ((c.rung 8).countGate p .badTag).answerPacket p Status.mac.code 0
      | .stop code => s.act fun _ => ((c.rung 8).countGate p (.stop code)).answerPacket p code 0
      | .evaluate =>
        let r := (c.rung (if illegal then 8 else cycles)).evaluate p op f illegal plan
        s.with r.1 r.2

/-- A status instruction of either issuer (DESIGN CHOICE, log entry 5). -/
def issue (i : Issuer) (op : BitVec 6) (f : Enc) (cycles : Nat) (body : Body) (s : State) : State :=
  match i with
  | .thread t => threadIssue t f cycles body s
  | .host p => hostIssue p op f cycles body s

/-- A plan for the host alone: illegal in a thread (R146). -/
def hostOnly (body : Body) : Body := fun x m c =>
  let p := body x m c
  { p with illegal := p.illegal || !x.who.isHost }

end Sys2Proof.Machine
end

