-- ==== Sys2Proof/Machine/Alu.lean ====
section
/-! DEFINITION. The thread ALU instructions (R174, R176 to R178). -/

namespace Sys2Proof.Machine

/-- The answer of a command that always completes. -/
abbrev Out := Host.Outcome State Fault Refusal

/-- A thread instruction without a status: an encoding fault, or its effect on the thread with the next PC (R156, R172). -/
def threadPlain (t : ThreadId) (cycles : Nat) (illegal : Bool) (go : Thread → Thread) (s : State) : State :=
  threadRun t cycles s fun s =>
    { s with chip := s.chip.modThread t fun x => if illegal then x.fault 2 else go x }

/-- An ALU instruction that writes W(D) and the flags from A and B (Table 8-3). -/
def alu (t : ThreadId) (f : Enc) (op : Flags → Word → Word → Word × Flags) (s : State) : State :=
  threadPlain t 1 (operandBIllegal f) (fun x =>
    let r := op x.flags (regOf x.w f.a) (operandB x.w f)
    { x with w := setReg x.w f.d r.1, flags := r.2, pc := x.pc + 1 }) s

/-- The shift count B[4:0]. -/
def shiftCount (b : Word) : Nat := (slice b 0 5).toNat

/-- ADD (R174, R176). -/
def runAdd (t : ThreadId) (f : Enc) (s : State) : State :=
  alu t f (fun fl a b => (a + b, aluFlags fl (a + b) (addCarry a b) (addOverflow a b))) s
/-- SUB (R174, R176). -/
def runSub (t : ThreadId) (f : Enc) (s : State) : State :=
  alu t f (fun fl a b => (a - b, aluFlags fl (a - b) (subBorrow a b) (subOverflow a b))) s
/-- AND (R176). -/
def runAnd (t : ThreadId) (f : Enc) (s : State) : State :=
  alu t f (fun fl a b => (a &&& b, aluFlags fl (a &&& b) false false)) s
/-- OR (R176). -/
def runOr (t : ThreadId) (f : Enc) (s : State) : State :=
  alu t f (fun fl a b => (a ||| b, aluFlags fl (a ||| b) false false)) s
/-- XOR (R176). -/
def runXor (t : ThreadId) (f : Enc) (s : State) : State :=
  alu t f (fun fl a b => (a ^^^ b, aluFlags fl (a ^^^ b) false false)) s
/-- SHL (R174, R176). -/
def runShl (t : ThreadId) (f : Enc) (s : State) : State :=
  alu t f (fun fl a b => let r := a <<< shiftCount b; (r, aluFlags fl r (shlCarry a (shiftCount b)) false)) s
/-- SHR (R174, R176). -/
def runShr (t : ThreadId) (f : Enc) (s : State) : State :=
  alu t f (fun fl a b => let r := a >>> shiftCount b; (r, aluFlags fl r (shrCarry a (shiftCount b)) false)) s
/-- SAR (R174, R176). -/
def runSar (t : ThreadId) (f : Enc) (s : State) : State :=
  alu t f (fun fl a b => let r := a.sshiftRight (shiftCount b); (r, aluFlags fl r (shrCarry a (shiftCount b)) false)) s

/-- Clamp an integer to the signed range of w bits. -/
def satTo (w : Nat) (x : Int) : Int := max (-(2 ^ (w - 1) : Int)) (min (2 ^ (w - 1) - 1) x)

/-- A multiply instruction: its new ACC, its result and LIM (R177). -/
def mulOp (t : ThreadId) (f : Enc) (cycles : Nat) (illegal : Bool) (op : Int → Word → Word → Int × Int × Bool) (s : State) :
    State :=
  threadPlain t cycles (operandBIllegal f || illegal) (fun x =>
    let r := op x.acc.toInt (regOf x.w f.a) (operandB x.w f)
    let d := BitVec.ofInt 32 r.2.1
    { x with acc := BitVec.ofInt 40 r.1, w := setReg x.w f.d d, flags := mulFlags d r.2.2, pc := x.pc + 1 }) s

/-- MUL: ACC = sat40(P), D = sat32(P) (R177). -/
def runMul (t : ThreadId) (f : Enc) (s : State) : State :=
  mulOp t f 2 false (fun _ a b =>
    let p := a.toInt * b.toInt
    (satTo 40 p, satTo 32 p, decide (satTo 32 p ≠ p))) s
/-- MAC: ACC = sat40(ACC + sat40(P)), D = sat32(new ACC) (R177) (DESIGN CHOICE, log entry 36). -/
def runMac (t : ThreadId) (f : Enc) (s : State) : State :=
  mulOp t f 2 false (fun acc a b =>
    let p := a.toInt * b.toInt
    let q := acc + satTo 40 p
    let n := satTo 40 q
    (n, satTo 32 n, decide (satTo 40 p ≠ p) || decide (n ≠ q) || decide (satTo 32 n ≠ n))) s
/-- SAT: D = sat32(ACC ÷ 2^s rounded, halves upward); ACC kept (R177) (DESIGN CHOICE, log entry 36). -/
def runSat (t : ThreadId) (f : Enc) (s : State) : State :=
  mulOp t f 1 (f.a ≠ 0) (fun acc _ b =>
    let n := min 39 (slice b 0 6).toNat
    let h : Int := if n = 0 then 0 else 2 ^ (n - 1)
    let q := Int.fdiv (acc + h) (2 ^ n)
    (acc, satTo 32 q, decide (satTo 32 q ≠ q))) s
/-- CMP: the flags of A - B; no register written; the D field must be 0 (Table 8-3). -/
def runCmp (t : ThreadId) (f : Enc) (s : State) : State :=
  threadPlain t 1 (operandBIllegal f || f.d ≠ 0) (fun x =>
    let a := regOf x.w f.a
    let b := operandB x.w f
    { x with flags := aluFlags x.flags (a - b) (subBorrow a b) (subOverflow a b), pc := x.pc + 1 }) s

/-- The value that LDI loads over the old one (R178). -/
def ldiValue (old : Word) (f : Enc) : Word :=
  match f.m.toNat with
  | 1 => f.imm.signExtend 32
  | 2 => f.imm.setWidth 32
  | _ => f.imm ++ old.setWidth 16
/-- LDI: no flags; M = 00b is ILLEGAL and the A field must be 0 (R178). -/
def runLdi (t : ThreadId) (f : Enc) (s : State) : State :=
  threadPlain t 1 (f.m = 0 || f.a ≠ 0) (fun x =>
    { x with w := setReg x.w f.d (ldiValue (regOf x.w f.d) f), pc := x.pc + 1 }) s
/-- LDIH: LDI with M = 11b, D[31:16] = IMM (R178). -/
def runLdih (t : ThreadId) (f : Enc) (s : State) : State := runLdi t { f with m := 3 } s

/-- The meaning of ADD. -/
def execAdd (t : ThreadId) (f : Enc) (s : State) : Out := .next (runAdd t f s)
/-- The meaning of SUB. -/
def execSub (t : ThreadId) (f : Enc) (s : State) : Out := .next (runSub t f s)
/-- The meaning of AND. -/
def execAnd (t : ThreadId) (f : Enc) (s : State) : Out := .next (runAnd t f s)
/-- The meaning of OR. -/
def execOr (t : ThreadId) (f : Enc) (s : State) : Out := .next (runOr t f s)
/-- The meaning of XOR. -/
def execXor (t : ThreadId) (f : Enc) (s : State) : Out := .next (runXor t f s)
/-- The meaning of SHL. -/
def execShl (t : ThreadId) (f : Enc) (s : State) : Out := .next (runShl t f s)
/-- The meaning of SHR. -/
def execShr (t : ThreadId) (f : Enc) (s : State) : Out := .next (runShr t f s)
/-- The meaning of SAR. -/
def execSar (t : ThreadId) (f : Enc) (s : State) : Out := .next (runSar t f s)
/-- The meaning of MUL. -/
def execMul (t : ThreadId) (f : Enc) (s : State) : Out := .next (runMul t f s)
/-- The meaning of MAC. -/
def execMac (t : ThreadId) (f : Enc) (s : State) : Out := .next (runMac t f s)
/-- The meaning of SAT. -/
def execSat (t : ThreadId) (f : Enc) (s : State) : Out := .next (runSat t f s)
/-- The meaning of CMP. -/
def execCmp (t : ThreadId) (f : Enc) (s : State) : Out := .next (runCmp t f s)
/-- The meaning of LDI. -/
def execLdi (t : ThreadId) (f : Enc) (s : State) : Out := .next (runLdi t f s)
/-- The meaning of LDIH. -/
def execLdih (t : ThreadId) (f : Enc) (s : State) : Out := .next (runLdih t f s)

end Sys2Proof.Machine
end

