-- ==== Sys2Proof/Machine/Secrecy.lean ====
section
/-! DEFINITION. Secrecy and system instructions (Table 8-9), the closing of sessions, challenges and witnesses, the effect of
audited changes, the entropy source and the boundary-scan TAP. -/

namespace Sys2Proof.Machine

/-- The D, A and M fields of a secrecy instruction must be 0 (R191). -/
def noFields (f : Enc) : Bool := f.d ≠ 0 || f.a ≠ 0 || f.m ≠ 0

/-- Operand A, B or C of a host packet. -/
def Ctx.opA (x : Ctx) : Word := x.w[1]
/-- Operand B. -/
def Ctx.opB (x : Ctx) : Word := x.w[2]
/-- Operand C. -/
def Ctx.opC (x : Ctx) : Word := x.w[3]

/-- No packet credit is to be had (R161, R162). -/
def Chip.noCredit (c : Chip) (who : Who) : Bool := who.isHost && (c.sec.creditKind who.sid who.seat).isNone

/-- The refusals of an audited change that writes n records, its packet credit included. -/
def Chip.auditRefusals (c : Chip) (who : Who) (n : Nat) : List (Bool × Status) := (c.noCredit who, .full) :: c.auditChecks n

/-- Accept an audited change of a host packet and answer QUEUED. -/
def Chip.acceptAudit (c : Chip) (who : Who) (ch : Change) (brk : Bool) (car : Option CarId) (records : List (Byte × List Byte)) :
    Reply :=
  reply .queued (c.audit who.sid who.seat ch brk car records)

/-- A KEEPER change breaks the seal that will stand (R134, R135). -/
def Chip.wouldBreak (c : Chip) : Bool := c.projected.sec.sealSt ≠ .open_

/-! ### Challenges and sessions (R103 to R105) -/

/-- The pending, unexpired challenge of a session id (R103). -/
def Chip.challenge (c : Chip) (n : SessionId) : Option Challenge :=
  match c.sec.challenges[n.val] with
  | none => none
  | some h => if h.age.toNat ≤ 255 then some h else none

/-- The entropy source has failed (R115). -/
def Chip.entropyFailed (c : Chip) : Bool := c.sec.entropyCause ≠ 0

/-- The fields of CHAL and of an opening SESSION: reserved immediate bits, session id 0 and seat 7 return RANGE. -/
def openingRange (imm : BitVec 16) : Bool :=
  immBits imm 12 4 ≠ 0 || immBits imm 3 5 ≠ 0 || immBits imm 8 4 = 0 || immBits imm 0 3 = 7

/-- CHAL (R103). -/
def bodyChal : Body := fun x _ c =>
  let n : SessionId := (immBits x.f.imm 8 4).toFin
  let seat := immBits x.f.imm 0 3
  { illegal := noFields x.f,
    checks := [(openingRange x.f.imm, .range), (x.who.sid ≠ 0, .state), ((c.sec.sessions[n.val]).isOpen, .state),
      (c.entropyFailed, .fault), (!c.entropyFailed && c.sec.entropyBuf.isEmpty, .busy)],
    queue := none,
    act := fun c =>
      match c.sec.entropyBuf with
      | [] => reply .busy c
      | ch :: r =>
        ⟨.done, [(0, ch.extractLsb' 96 32), (1, ch.extractLsb' 64 32), (2, ch.extractLsb' 32 32), (3, ch.extractLsb' 0 32)], [],
          c.modSec fun s =>
            { s with entropyBuf := r, challenges := upd s.challenges n fun _ => some ⟨ch, seat, 0⟩ }⟩ }

/-- The input of the host proof PH (R104). -/
def proofInput (c : Chip) (seat : BitVec 3) (sid : BitVec 4) (ch : Block) (h : Word) : List Byte :=
  [1, c.lnk.drop.setWidth 8, seat.setWidth 8, sid.setWidth 8] ++ bytesBE c.sec.kdfCtx 4 ++ bytesBE ch 16 ++ bytesBE h 4
    ++ bytesBE c.dev.uid 8

/-- "TU1224 SESSION" in ASCII. -/
def sessionLabel : List Byte := [0x54, 0x55, 0x31, 0x32, 0x32, 0x34, 0x20, 0x53, 0x45, 0x53, 0x53, 0x49, 0x4F, 0x4E]

/-- Session key i of the key derivation (R104). -/
def sessionKey (c : Chip) (key : Block) (seat : BitVec 3) (sid : BitVec 4) (ch : Block) (h : Word) (n : BitVec 64) (i : Byte) :
    Block :=
  cmac key ([i] ++ sessionLabel ++ [0, c.lnk.drop.setWidth 8, seat.setWidth 8, sid.setWidth 8] ++ bytesBE c.sec.kdfCtx 4
    ++ bytesBE ch 16 ++ bytesBE h 4 ++ bytesBE n 8 ++ bytesBE c.dev.uid 8 ++ [2, 0])

/-- The device proof PD (R104). -/
def deviceProof (c : Chip) (kMacUp : Block) (seat : BitVec 3) (sid : BitVec 4) (ch : Block) (h : Word) (n : BitVec 64) : Tag :=
  cmacTag kMacUp ([2, c.lnk.drop.setWidth 8, seat.setWidth 8, sid.setWidth 8] ++ bytesBE ch 16 ++ bytesBE h 4 ++ bytesBE n 8)

/-- A seat holds a key. -/
def Sec.hasKey (s : Sec) (i : Fin 7) : Bool := (s.keys[i.val]).state = .isSet || (s.keys[i.val]).state = .factory

/-- Failures counted against a seat in the last 65,536 ticks (R112). -/
def Chip.seatCount (c : Chip) (i : Fin 7) : Nat := (recent 65536 c.dev.tick c.sec.seatFails[i.val]).length

/-- SESSION is denied to a seat: it is locked, or its count stands at the limit (R112, R113). -/
def Chip.seatDenied (c : Chip) (i : Fin 7) : Bool :=
  (c.sec.locked ||| c.sec.lockDue).getLsbD i.val || c.sec.macMaxSeat.toNat ≤ c.seatCount i

/-- The number of open sessions of a seat. -/
def Chip.seatSessions (c : Chip) (seat : BitVec 3) : Nat :=
  ((List.finRange 16).filter fun n => n.val ≠ 0 && (c.sec.sessions[n.val]).isOpen && (c.sec.sessions[n.val]).seat = seat).length

/-- A proof that fails consumes the challenge and counts against the seat (R105, R112). -/
def Chip.proofFailed (c : Chip) (n : SessionId) (seat? : Option (Fin 7)) : Chip :=
  c.modSec fun s =>
    { s with
      challenges := upd s.challenges n fun _ => none, macTotal := satInc s.macTotal,
      seatFails := match seat? with
        | none => s.seatFails
        | some i => upd s.seatFails i fun l => c.dev.tick :: l }

/-- The words of the key store that a SESSION reads: the key of its seat. -/
def sessionKeyWords (seat : BitVec 3) (w : Nat) : Bool := match fin? 7 seat.toNat with
  | none => false
  | some i => keyWords i w

/-- SESSION with [15] = 0 as it runs where the key store can be read (R104, R105). -/
def sessionOpenPlan : Body := fun x _ c =>
  let sid := immBits x.f.imm 8 4
  let n : SessionId := sid.toFin
  let seat := immBits x.f.imm 0 3
  let seat? := fin? 7 seat.toNat
  let pending : Option Challenge := match c.challenge n with
    | none => none
    | some h => if h.seat = seat then some h else none
  let key? : Option Block := match seat? with
    | none => none
    | some i => if c.sec.hasKey i then some (c.sec.keys[i.val]).key else none
  let proofFails : Bool := match pending, key? with
    | some h, some k => decide (cmacTag k (proofInput c seat sid h.ch x.opA) ≠ (x.opB ++ x.opC : Tag))
    | _, _ => false
  let denied : Bool := match seat? with
    | none => false
    | some i => c.seatDenied i
  { illegal := noFields x.f,
    checks := [(proofFails, .mac), (denied, .denied), (openingRange x.f.imm, .range), (x.who.sid ≠ 0, .state),
      (pending.isNone, .state), (key?.isNone, .state), ((c.sec.sessions[n.val]).isOpen, .state),
      (!c.entropyFailed && c.sec.entropyBuf.isEmpty, .busy), (4 ≤ c.seatSessions seat, .full),
      (c.journal.places ≤ c.journal.queue.length, .full), (c.entropyFailed, .fault)],
    queue := none,
    onRefusal := fun st c => if st = .mac then c.proofFailed n seat? else c,
    act := fun c =>
      match pending, key?, c.sec.entropyBuf with
      | some h, some k, v :: r =>
        let nn : BitVec 64 := v.extractLsb' 64 64
        let key := sessionKey c k seat sid h.ch x.opA nn
        let up := key 2
        let pd := deviceProof c up seat sid h.ch x.opA nn
        let opened : Session :=
          { Session.init with
            isOpen := true, seat := seat, kMacDown := key 1, kMacUp := up, kEncDown := key 3, kEncUp := key 4,
            nonce := nn.extractLsb' 32 32 }
        let c1 := c.modSec fun s =>
          { s with
            entropyBuf := r, challenges := upd s.challenges n fun _ => none, sessions := upd s.sessions n fun _ => opened }
        ⟨.done, [(0, nn.extractLsb' 32 32), (1, nn.extractLsb' 0 32), (2, pd.extractLsb' 32 32), (3, pd.extractLsb' 0 32)], [],
          c1.record 133 none [sid.setWidth 8, seat.setWidth 8, 0]⟩
      | _, _, _ => reply .state c }

/-- SESSION with [15] = 0 opens a session; a proof that fails is the first refusal of R11. An uncorrectable word of the seat's key leaves
no proof to check: it trips the device where nothing else refuses the packet (R25, R104, R105) (DESIGN CHOICE, log entry 34). -/
def bodySessionOpen : Body := fun x m c =>
  let plan := sessionOpenPlan x m c
  let words := sessionKeyWords (immBits x.f.imm 0 3)
  let unread := (c.badWord 5 words).isSome
  { plan with checks := if unread then plan.checks.drop 1 else plan.checks }.reads c x.who 40 5 words []

/-- SESSION with [15] = 1 closes the issuing session at the next tick boundary (Table 5-3). -/
def bodySessionClose : Body := fun x _ _ =>
  { illegal := noFields x.f,
    checks := [(immBits x.f.imm 0 15 ≠ 0, .range), (x.who.sid = 0, .state)],
    queue := none,
    act := fun c => reply .done (c.toClose x.who.sid.toFin 1) }

/-! ### Access table (R125 to R127) -/

/-- A row keeps the reserved bits at 0 (Table 6-1, R120). -/
def rowReservedOk (r : Row) : Bool :=
  r[1] &&& 0xFFFC0000 = 0 && r[2] &&& 0xFFFFC000 = 0 && r[3] &&& 0xF000F000 = 0 && r[4] &&& 0xFFFFFFE0 = 0 && r[5] = 0
    && r[6] = 0 && r[7] = 0

/-- KEEPER's minimum (R125). -/
def keeperMinimum (r : Row) : Bool :=
  r[0] &&& 0x55555555 = 0x55555555 && r[1] &&& 0x00015555 = 0x00015555 && r[3] &&& 0xFFF = 0xFFF && r[4] &&& 0x1F = 0x1C

/-- OPEN's ceiling, with VIEW 3 (R125). -/
def openCeiling (r : Row) : Bool :=
  r[0] &&& ~~~(0x51 : Word) = 0 && r[1] = 0 && r[2] = 0 && r[3] = 0 && r[4] = 3

/-- A row of a seat obeys R125. -/
def rowAllowed (seat : BitVec 3) (r : Row) : Bool :=
  rowReservedOk r && (seat ≠ 0 || keeperMinimum r) && (seat ≠ 7 || openCeiling r)

/-- The rows being staged, or the table in force while no stage exists. -/
def Sec.staged (s : Sec) : Vector Row 8 :=
  match s.stage with
  | none => s.table
  | some st => st.rows

/-- TBLEDIT (R126). -/
def bodyTbledit : Body := fun x _ c =>
  let seat := immBits x.f.imm 0 3
  let word := immBits x.f.imm 4 3
  let old : Row := (c.sec.staged)[seat.toNat]
  let new : Row := upd old word.toFin fun w => (w &&& ~~~x.opB) ||| (x.opA &&& x.opB)
  let busy : Bool := match c.sec.stage with
    | none => false
    | some st => st.pressed || st.owner ≠ x.who.sid
  { illegal := noFields x.f,
    checks := [(!x.who.isSeat 0, .denied),
      (x.f.imm.getLsbD 3 || immBits x.f.imm 7 9 ≠ 0 || x.opC ≠ 0 || !rowAllowed seat new, .range), (busy, .busy)],
    queue := none,
    act := fun c =>
      reply .done (c.modSec fun s => { s with stage := some ⟨upd s.staged seat.toFin fun _ => new, x.who.sid, false⟩ }) }

/-- The first eight bytes of a digest. -/
def head8 (d : BitVec 256) : BitVec 64 := d.extractLsb' 192 64

/-- TBLPRESS (R127, R128). -/
def bodyTblpress : Body := fun x _ c =>
  match c.sec.stage with
  | none => { refuse .state with
      illegal := noFields x.f, checks := [(!x.who.isSeat 0, .denied), (true, .state)] }
  | some st =>
    let same := st.rows = c.sec.table
    { illegal := noFields x.f,
      checks := [(!x.who.isSeat 0, .denied), (x.opA ≠ c.sec.tblGen, .state),
        (head8 (tableDigest st.rows) ≠ x.opB ++ x.opC, .refused), (st.pressed || st.owner ≠ x.who.sid, .busy)]
        ++ (if same then [] else c.auditRefusals x.who 1),
      queue := none,
      act := fun c =>
        if same then reply .done (c.modSec fun s => { s with stage := none })
        else
          let brk := c.wouldBreak && pressBreaks c.sec.table st.rows
          let c1 := c.modSec fun s => { s with stage := some { st with pressed := true } }
          c1.acceptAudit x.who .tblpress brk none
            [(192, bytesBE (c.sec.tblGen + 1) 4 ++ bytesBE (head8 (tableDigest c.sec.table)) 8
              ++ bytesBE (head8 (tableDigest st.rows)) 8)] }

/-! ### Keys (R100 to R102) -/

/-- The immediate of KEYSET: reserved bits and seat 7 return RANGE, and so does a packet without CONF. -/
def keysetRange (x : Ctx) : Bool :=
  immBits x.f.imm 3 12 ≠ 0 || immBits x.f.imm 0 3 = 7 || (match x.who with
    | .host _ _ conf => !conf
    | .thread _ => true)

/-- KEYSET PART 0 stages key bytes 0 to 7 in the session (R100). -/
def bodyKeysetPart0 : Body := fun x _ _ =>
  { illegal := noFields x.f,
    checks := [(!x.who.isSeat 0, .denied), (keysetRange x || x.opC ≠ 0, .range)],
    queue := none,
    act := fun c =>
      reply .done (c.modSession x.who.sid.toFin fun s => { s with stage := some (immBits x.f.imm 0 3, x.opA ++ x.opB) }) }

/-- The check value of a key: AES-128(key, sixteen zero bytes). -/
def keyCheck (key : Block) : Block := aes key 0

/-- KEYSET PART 1 (R100, R101). -/
def bodyKeysetPart1 : Body := fun x _ c =>
  let seat := immBits x.f.imm 0 3
  let n : SessionId := x.who.sid.toFin
  let key? : Option Block := match (c.sec.sessions[n.val]).stage with
    | none => none
    | some (i, k) => if i = seat then some (k ++ x.opA ++ x.opB) else none
  let mismatch : Bool := match key? with
    | none => false
    | some key => decide ((keyCheck key).extractLsb' 96 32 ≠ x.opC)
  let dropStage := fun c : Chip => c.modSession n fun s => { s with stage := none }
  { illegal := noFields x.f,
    checks := [(!x.who.isSeat 0, .denied), (keysetRange x || key? == some (0 : Block), .range), (key?.isNone, .state),
      (mismatch, .refused)] ++ c.auditRefusals x.who 1,
    queue := none,
    onRefusal := fun st c => if st = .refused then dropStage c else c,
    act := fun c =>
      match key?, fin? 7 seat.toNat with
      | some key, some i =>
        let brk := c.wouldBreak && (i.val = 1 || i.val = 2)
        (dropStage c).acceptAudit x.who (.keyset i key) brk none
          [(193, seat.setWidth 8 :: bytesBE ((keyCheck key).extractLsb' 112 16) 2)]
      | _, _ => reply .state c }

/-! ### Seal (R132, R133) -/

/-- The immediate and operands of STARCH and UNSTARCH must be 0. -/
def sealRange (x : Ctx) : Bool := x.f.imm ≠ 0 || x.opA ≠ 0 || x.opB ≠ 0 || x.opC ≠ 0

/-- STARCH: the seal that stands refuses a second one, and the record shows what the earlier changes will leave (R129, R132). -/
def bodyStarch : Body := fun x _ c =>
  let p := c.projected
  { illegal := noFields x.f,
    checks := [(!x.who.isSeat 1, .denied), (sealRange x, .range), (c.sec.sealSt = .sealed_, .state)] ++ c.auditRefusals x.who 1,
    queue := none,
    act := fun c =>
      c.acceptAudit x.who .starch false none [(197, bytesBE (p.sps.digest.extractLsb' 128 128) 16 ++ [p.sec.breaks])] }

/-- The witness whose age has not passed the SEC_WITNESSTO in force (R133). -/
def Sec.liveWitness (s : Sec) (limit : BitVec 11) : Option Witness :=
  match s.witness with
  | none => none
  | some w => if w.age.toNat ≤ limit.toNat then some w else none

/-- UNSTARCH: the first witness, or the completing one (R133, R135). -/
def bodyUnstarch : Body := fun x _ c =>
  let p := c.projected
  let pre : List (Bool × Status) := [(!x.who.isSeat 1 && !x.who.isSeat 2, Status.denied), (sealRange x, .range), (p.sec.sealSt = .open_, .state)]
  match p.sec.liveWitness c.sec.witnessTo with
  | none =>
    { illegal := noFields x.f, checks := pre, queue := none,
      act := fun c =>
        reply .done ((c.modSec fun s => { s with witness := some ⟨x.who.seat, 0⟩ }).record 134 none [x.who.seat.setWidth 8]) }
  | some w =>
    { illegal := noFields x.f, checks := pre ++ [(decide (w.seat = x.who.seat), Status.state)] ++ c.auditRefusals x.who 1, queue := none,
      act := fun c =>
        c.acceptAudit x.who (.unseal x.who.seat) false none
          [(198, w.seat.setWidth 8 :: bytesBE (w.age.setWidth 16) 2)] }

/-! ### Program load and DARN (R165, R192) -/

/-- n bytes of the image digest input: words 0 to N - 1, each most significant byte first (R164). -/
def Mems.imageDigest (m : Mems) (n : Nat) : BitVec 256 := sha256 (m.prog.bytes 0 (4 * n))

/-- The refusals common to every PLOAD: the right, a reserved bit of the immediate, ADMIT alone, the timeline, a supply warning
(DESIGN CHOICE, log entry 40). -/
def ploadChecks (x : Ctx) (c : Chip) : List (Bool × Status) :=
  [(c.lacks x.who 13, .denied), (immBits x.f.imm 0 14 ≠ 0, .range), (c.dev.state ≠ .admitting, .state), (c.dev.tick.toNat < 2000, .busy),
    (c.warning, .busy)]

/-- PLOAD BEGIN (R165). -/
def bodyPloadBegin : Body := fun x _ c =>
  let other : Bool := match c.sec.load with
    | none => false
    | some l => l.owner ≠ x.who.sid || l.sealing.isSome
  { illegal := noFields x.f,
    checks := ploadChecks x c ++
      [(x.opA.toNat < 208 || 64512 < x.opA.toNat || x.opB ≠ 0 || x.opC ≠ 0, .range), (other, .busy)],
    queue := none,
    act := fun c =>
      reply .done (c.modSec fun s => { s with load := some ⟨x.who.sid, x.opA.setWidth 17, none⟩, progSeal := none }) }

/-- PLOAD DATA (R165). -/
def bodyPloadData : Body := fun x _ c =>
  let l? := match c.sec.load with
    | none => none
    | some l => if l.owner = x.who.sid then some l else none
  match l? with
  | none => { illegal := noFields x.f, checks := ploadChecks x c ++ [(true, .state)], queue := none, act := fun c => reply .state c }
  | some l =>
    let last := x.opC.toNat + 1 = l.n.toNat
    { illegal := noFields x.f,
      checks := ploadChecks x c ++
        [(l.n.toNat ≤ x.opC.toNat || (last && x.opB ≠ 0), .range), (l.sealing.isSome, .busy)],
      queue := none,
      act := fun c =>
        ⟨.done, [], if last then [.prog x.opC.toNat x.opA] else [.prog x.opC.toNat x.opA, .prog (x.opC.toNat + 1) x.opB], c⟩ }

/-- PLOAD SEAL (R165) (DESIGN CHOICE, log entry 40). -/
def bodyPloadSeal : Body := fun x _ c =>
  let l? := match c.sec.load with
    | none => none
    | some l => if l.owner = x.who.sid then some l else none
  match l? with
  | none => { illegal := noFields x.f, checks := ploadChecks x c ++ [(true, .state)], queue := none, act := fun c => reply .state c }
  | some l =>
    { illegal := noFields x.f,
      checks := ploadChecks x c ++ [(l.sealing.isSome, .busy), (c.noCredit x.who, .full), (c.journal.fault, .fault)],
      queue := none,
      act := fun c =>
        reply .queued ((c.takeCredit x.who.sid x.who.seat).modSec fun s =>
          { s with load := some { l with sealing := some (x.opB ++ x.opC, some c.nextCredit) } }) }

/-- A DARN is accepted and not yet in effect. -/
def Sec.darnPending (s : Sec) : Bool := s.audits.any fun a => match a.change with
  | .darn _ _ => true
  | .tblpress | .keyset _ _ | .zeroize _ | .secreg _ _ _ | .readmit | .sps _ _ _ | .starch | .unseal _ => false

/-- DARN (R192). -/
def bodyDarn : Body := fun x m c =>
  let a := x.opA.toNat
  let n := m.imageLength
  let plan : Plan :=
    { illegal := noFields x.f,
      checks := [(!x.who.isSeat 0, .denied), (x.f.imm ≠ 0 || a < 208 || !m.inImage a, .range), (c.sec.darnPending, .busy)]
        ++ c.auditRefusals x.who 2,
      queue := none,
      act := fun c =>
        let after := m.write (.prog a x.opC)
        c.acceptAudit x.who (.darn (BitVec.ofNat 16 a) x.opC) false none
          [(200, bytesBE (BitVec.ofNat 16 a) 2 ++ bytesBE x.opB 4 ++ bytesBE x.opC 4),
           (201, bytesBE (head8 (m.imageDigest n)) 8 ++ bytesBE (head8 (after.imageDigest n)) 8)] }
  plan.reads c x.who 12 1 (fun w => decide (w < n)) [(m.progWord a ≠ x.opB, .refused)]

/-! ### Stream selection (R195) -/

/-- A session other than the given one owns the stream area, now or from the next boundary. -/
def Lnk.streamTaken (l : Lnk) (sid : BitVec 4) : Bool :=
  (l.stream ≠ .none && l.streamOwner ≠ sid) || (match l.streamNext with
    | some (o, sel) => sel ≠ .none && o ≠ sid
    | none => false)

/-- STREAM: an accepted selection changes at the next tick boundary (DESIGN CHOICE, log entry 41). -/
def streamPlan (x : Ctx) (sel : StreamSel) (checks : List (Bool × Status)) : Plan :=
  { illegal := noFields x.f, checks := checks, queue := none,
    act := fun c => reply .done (c.modLnk fun l => { l with streamNext := some (x.who.sid, sel) }) }

/-- STREAM selecting NONE (R195). -/
def bodyStreamNone : Body := fun x _ c =>
  let owns := (c.lnk.stream ≠ .none && c.lnk.streamOwner = x.who.sid) || (match c.lnk.streamNext with
    | some (o, sel) => sel ≠ .none && o = x.who.sid
    | none => false)
  streamPlan x .none [(!owns, .denied), (immBits x.f.imm 3 13 ≠ 0, .range)]

/-- STREAM selecting REPLAY (R138, R195). -/
def bodyStreamReplay : Body := fun x _ c =>
  streamPlan x .replay [(c.lacks x.who 7, .denied), (c.whoLevel x.who ≠ 0 || !c.whoSecured x.who, .veiled),
    (immBits x.f.imm 3 13 ≠ 0, .range), (c.lnk.streamTaken x.who.sid, .busy)]

/-- STREAM selecting TRACE (R195). -/
def bodyStreamTrace : Body := fun x _ c =>
  streamPlan x .trace [(c.lacks x.who 8, .denied), (immBits x.f.imm 3 13 ≠ 0, .range), (c.lnk.streamTaken x.who.sid, .busy)]

/-- STREAM selecting JOURNAL; IMM[8] selects the audit area (R195). -/
def bodyStreamJournal : Body := fun x _ c =>
  let auditArea := x.f.imm.getLsbD 8
  let may := ((c.row x.who.seat)[4]).getLsbD (if auditArea then 3 else 4)
  streamPlan x (.journal auditArea) [(c.lacks x.who 9 || !may, .denied),
    (immBits x.f.imm 3 5 ≠ 0 || immBits x.f.imm 9 7 ≠ 0, .range), (c.lnk.streamTaken x.who.sid, .busy)]

/-! ### The rows -/

/-- An immediate with its low n bits fixed by the row. -/
def fixLow (f : Enc) (n : Nat) (v : BitVec 16) : Enc := { f with imm := (f.imm >>> n <<< n) ||| v }
/-- An immediate with bit 15 fixed by the row. -/
def fix15 (f : Enc) (b : Bool) : Enc := { f with imm := (f.imm &&& 0x7FFF) ||| (if b then 0x8000 else 0) }
/-- An immediate with bits [15:14] fixed by the row. -/
def fixTop2 (f : Enc) (v : BitVec 2) : Enc := { f with imm := (f.imm &&& 0x3FFF) ||| (v.setWidth 16 <<< 14) }

/-- CHAL. -/
def runChal (i : Issuer) (f : Enc) (s : State) : State := issue i 0x36 f 12 (hostOnly bodyChal) s
/-- SESSION opening. -/
def runSessionOpen (i : Issuer) (f : Enc) (s : State) : State := issue i 0x37 (fix15 f false) 40 (hostOnly bodySessionOpen) s
/-- SESSION closing. -/
def runSessionClose (i : Issuer) (f : Enc) (s : State) : State := issue i 0x37 (fix15 f true) 40 (hostOnly bodySessionClose) s
/-- TBLEDIT. -/
def runTbledit (i : Issuer) (f : Enc) (s : State) : State := issue i 0x38 f 8 (hostOnly bodyTbledit) s
/-- TBLPRESS. -/
def runTblpress (i : Issuer) (f : Enc) (s : State) : State := issue i 0x39 f 12 (hostOnly bodyTblpress) s
/-- KEYSET PART 0. -/
def runKeysetPart0 (i : Issuer) (f : Enc) (s : State) : State := issue i 0x3A (fix15 f false) 24 (hostOnly bodyKeysetPart0) s
/-- KEYSET PART 1. -/
def runKeysetPart1 (i : Issuer) (f : Enc) (s : State) : State := issue i 0x3A (fix15 f true) 24 (hostOnly bodyKeysetPart1) s
/-- STARCH. -/
def runStarch (i : Issuer) (f : Enc) (s : State) : State := issue i 0x3B f 8 (hostOnly bodyStarch) s
/-- UNSTARCH. -/
def runUnstarch (i : Issuer) (f : Enc) (s : State) : State := issue i 0x3C f 8 (hostOnly bodyUnstarch) s
/-- PLOAD BEGIN. -/
def runPloadBegin (i : Issuer) (f : Enc) (s : State) : State := issue i 0x3D (fixTop2 f 0) 8 (hostOnly bodyPloadBegin) s
/-- PLOAD DATA. -/
def runPloadData (i : Issuer) (f : Enc) (s : State) : State := issue i 0x3D (fixTop2 f 1) 8 (hostOnly bodyPloadData) s
/-- PLOAD SEAL. -/
def runPloadSeal (i : Issuer) (f : Enc) (s : State) : State := issue i 0x3D (fixTop2 f 2) 8 (hostOnly bodyPloadSeal) s
/-- DARN. -/
def runDarn (i : Issuer) (f : Enc) (s : State) : State := issue i 0x3E f 12 (hostOnly bodyDarn) s
/-- STREAM NONE. -/
def runStreamNone (i : Issuer) (f : Enc) (s : State) : State := issue i 0x35 (fixLow f 3 0) 4 (hostOnly bodyStreamNone) s
/-- STREAM REPLAY. -/
def runStreamReplay (i : Issuer) (f : Enc) (s : State) : State := issue i 0x35 (fixLow f 3 1) 4 (hostOnly bodyStreamReplay) s
/-- STREAM TRACE. -/
def runStreamTrace (i : Issuer) (f : Enc) (s : State) : State := issue i 0x35 (fixLow f 3 2) 4 (hostOnly bodyStreamTrace) s
/-- STREAM JOURNAL. -/
def runStreamJournal (i : Issuer) (f : Enc) (s : State) : State := issue i 0x35 (fixLow f 3 3) 4 (hostOnly bodyStreamJournal) s

/-! ### Events of sessions, challenges and witnesses -/

/-- SESSION_IDLE_TIMEOUT: a session idle for SEC_SESSTO ticks closes at the next boundary, unless a packet of the tick still restarts its
idle count (R114, Table 5-3). -/
def runSessionIdleTimeout (n : SessionId) (s : State) : State :=
  s.clock fun c =>
    if n.val ≠ 0 && (c.sec.sessions[n.val]).isOpen && c.sec.sessTo.toNat ≤ (c.sec.sessions[n.val]).idle.toNat then
      c.toClose n 2
    else c

/-- SESSION_MACLIMIT: a session at its failure limit closes at the next boundary (R112, R114). -/
def runSessionMaclimit (n : SessionId) (s : State) : State :=
  s.clock fun c =>
    let fails := (recent 1024 c.dev.tick (c.sec.sessions[n.val]).macTicks).length
    if n.val ≠ 0 && (c.sec.sessions[n.val]).isOpen && c.sec.macMaxSession.toNat ≤ fails then c.toClose n 3 else c

/-- SEAT_LOCKOUT: a seat at its failure limit is locked, but for KEEPER, and its sessions close at the next boundary; under a supply
warning the write of its LOCKED bit waits (R86, R112 to R114) (DEDUCED, log entry 43). -/
def runSeatLockout (i : Fin 7) (s : State) : State :=
  s.clock fun c =>
    if c.sec.macMaxSeat.toNat ≤ c.seatCount i && !(c.sec.locked ||| c.sec.lockDue).getLsbD i.val then
      let seat := BitVec.ofNat 3 i.val
      if i.val = 0 then c.toCloseSeat seat 4
      else
        let mark := BitVec.ofNat 7 (2 ^ i.val)
        let c1 := c.modSec fun x =>
          if c.warning then { x with lockDue := x.lockDue ||| mark } else { x with locked := x.locked ||| mark }
        (c1.record 139 none [seat.setWidth 8]).toCloseSeat seat 4
    else c

/-- CHALLENGE_EXPIRY: a challenge whose age has passed 255 is discarded (R103). -/
def runChallengeExpiry (n : SessionId) (s : State) : State :=
  s.clock fun c => match c.sec.challenges[n.val] with
    | none => c
    | some h => if 255 < h.age.toNat then c.modSec fun x => { x with challenges := upd x.challenges n fun _ => none } else c

/-- WITNESS_EXPIRY: a first witness whose age passes SEC_WITNESSTO is discarded (R133). -/
def runWitnessExpiry (s : State) : State :=
  s.clock fun c => match c.sec.witness with
    | none => c
    | some w => if c.sec.witnessTo.toNat < w.age.toNat then c.modSec fun x => { x with witness := none } else c

/-- AUDITED_CHANGE_EFFECT: at cycle 0 of a tick the first accepted change whose records were all committed before it takes effect, and
nothing else of the tick goes before it; one that ends in a nonvolatile write waits for a supply warning to clear (R28, R84, R86, R128,
R129, R192) (DEDUCED, log entry 43). -/
def runAuditedChangeEffect (s : State) : State :=
  match s.chip.sec.audits with
  | [] => s
  | a :: r =>
    if !s.chip.changeDue then s
    else
      let straps := (s.chip.inputs.latched.map TickInputs.dropsel).getD s.chip.dev.dropsel
      let c := s.chip.modSec fun x => { x with audits := r }
      match a.change with
      | .readmit => { s with chip := c.enterHunt true straps }
      | .darn addr v =>
        let m := s.mem.write (.prog addr.toNat v)
        s.with [.prog addr.toNat v] (c.modSec fun x => { x with progSeal := some (m.imageDigest m.imageLength) })
      | .tblpress | .keyset _ _ | .zeroize _ | .secreg _ _ _ | .sps _ _ _ | .starch | .unseal _ =>
        { s with chip := c.applyChange a.seq a.change }

/-! ### Entropy (R115) -/

/-- One raw bit through the two health tests: the new state and the test that fails, 0 for none. The manual does not say which cause is
shown where one bit fails both: it is 1, the repetition count (R115) (DESIGN CHOICE, log entry 111). -/
def Sec.rawBit (s : Sec) (b : Bool) : Sec × BitVec 2 :=
  let run : BitVec 6 := if s.entropyRun ≠ 0 && b = s.entropyBit then satInc s.entropyRun else 1
  let first := if s.entropyLen = 0 then b else s.entropyFirst
  let count : BitVec 11 := (if s.entropyLen = 0 then 0 else s.entropyCount) + (if b = first then 1 else 0)
  let len : BitVec 11 := if s.entropyLen.toNat + 1 = 1024 then 0 else s.entropyLen + 1
  ({ s with
      entropyBit := b, entropyRun := run, entropyFirst := first, entropyCount := count, entropyLen := len,
      entropyRunMax := if s.entropyRunMax.toNat < run.toNat then run else s.entropyRunMax,
      entropyApMax := if s.entropyApMax.toNat < count.toNat then count else s.entropyApMax },
    if 41 ≤ run.toNat then 1 else if 840 < count.toNat then 2 else 0)

/-- Raw bits in order, with the first failure among them; the tests go on behind it. -/
def Sec.rawBits (s : Sec) : List Bool → Sec × BitVec 2
  | [] => (s, 0)
  | b :: r =>
    let x := s.rawBit b
    let y := Sec.rawBits x.1 r
    (y.1, if x.2 = 0 then y.2 else x.2)

/-- The start-up test: both tests over the 4,096 bits of admission cycle counts 0 to 32,767, first bit most significant (R115). -/
def Sec.startUp (s : Sec) (bits : BitVec 4096) : Sec × BitVec 2 := s.rawBits ((List.range 4096).map fun i => bits.getLsbD (4095 - i))

/-- An entropy failure: the buffer is emptied, the source stays failed, and the device trips with ENTROPY (R115). -/
def Chip.entropyFail (c : Chip) (code : BitVec 2) (cycle : BitVec 14) : Chip :=
  (c.modSec fun x => { x with entropyBuf := [], entropyCause := code }).trip 8 (code.setWidth 32) cycle

/-- The admission cycle count behind interval n of the grid (R115). -/
def entropyEnd (n : Nat) : Nat := 32768 + 4096 * n

/-- The cycle of the present tick behind the next interval of the grid; 0 where that interval ended before the tick (R115). -/
def Chip.entropyCycle (c : Chip) : Nat := entropyEnd (c.sec.entropyTaken + 1) - c.dev.tick.toNat * c.lnk.ticklen.toNat

/-- The phase of the tick that ends no earlier than a cycle (Table 1-4). -/
def Chip.phaseAt (c : Chip) (cycle : Nat) : Stage :=
  if cycle ≤ 256 then .host
  else if cycle ≤ 1280 then .loop 0
  else if cycle ≤ 1536 then .profile 0
  else if cycle ≤ c.lnk.ticklen.toNat - 256 then .thread
  else .close 0

/-- The next interval of the grid ends in the present tick or before it, the packets of the cycles before its end have executed, and the
start-up test does not wait for its step (R18, R115) (DESIGN CHOICE, log entry 97). -/
def Chip.entropyDue (c : Chip) : Bool :=
  decide (c.entropyCycle ≤ c.lnk.ticklen.toNat) && !c.changeDue
    && (c.stage ≠ .host || c.entropyCycle ≤ c.dev.hostCycles.toNat || c.lnk.section_.isEmpty || c.dev.hostStopped)
    && !(c.dev.state = .admitting && c.dev.phase = 1 && !c.dev.stepRun)

/-- The tick has come to a cycle: the phases and the turns of the thread window before it are over (R18, R20). -/
def Chip.reach (c : Chip) (cycle : Nat) : Chip :=
  let c1 := if c.stage.place < (c.phaseAt cycle).place then c.enter (c.phaseAt cycle) else c
  if c1.stage = .thread && c1.turn.1 < cycle then { c1 with turn := (cycle, 0) } else c1

/-- ENTROPY_INTERVAL: the 512 raw bits of the next interval of the grid pass the health tests, which go on behind a failure, and enter
the buffer where the source has not failed and it holds fewer than four values, in the cycle of the tick in which the interval ends; the
first bit is the most significant of the bytes that SHA-256 takes, an order that the manual does not give (R93, R115)
(DESIGN CHOICE, log entry 97). -/
def runEntropyInterval (bits : BitVec 512) (s : State) : State :=
  s.clock fun c =>
    if c.dev.state = .dark || c.dev.state = .hunt || !c.entropyDue then c
    else
      let r := c.sec.rawBits ((List.range 512).map fun i => bits.getLsbD (511 - i))
      let c1 : Chip := { c.reach c.entropyCycle with sec := { r.1 with entropyTaken := r.1.entropyTaken + 1 } }
      if c.entropyFailed then c1
      else if r.2 ≠ 0 then c1.entropyFail r.2 (BitVec.ofNat 14 (c.entropyCycle - 1))
      else if c.sec.entropyBuf.length < 4 then
        c1.modSec fun x => { x with entropyBuf := x.entropyBuf ++ [sha16 (bytesBE bits 64)] }
      else c1

/-! ### The TAP (R24, R140) -/

/-- The next state of the IEEE 1149.1 TAP controller (DESIGN CHOICE, log entry 20). -/
def TapState.next (t : TapState) (tms : Bool) : TapState :=
  match t, tms with
  | .testLogicReset, true => .testLogicReset
  | .testLogicReset, false => .runTestIdle
  | .runTestIdle, true => .selectDr
  | .runTestIdle, false => .runTestIdle
  | .selectDr, true => .selectIr
  | .selectDr, false => .captureDr
  | .captureDr, true => .exit1Dr
  | .captureDr, false => .shiftDr
  | .shiftDr, true => .exit1Dr
  | .shiftDr, false => .shiftDr
  | .exit1Dr, true => .updateDr
  | .exit1Dr, false => .pauseDr
  | .pauseDr, true => .exit2Dr
  | .pauseDr, false => .pauseDr
  | .exit2Dr, true => .updateDr
  | .exit2Dr, false => .shiftDr
  | .updateDr, true => .selectDr
  | .updateDr, false => .runTestIdle
  | .selectIr, true => .testLogicReset
  | .selectIr, false => .captureIr
  | .captureIr, true => .exit1Ir
  | .captureIr, false => .shiftIr
  | .shiftIr, true => .exit1Ir
  | .shiftIr, false => .shiftIr
  | .exit1Ir, true => .updateIr
  | .exit1Ir, false => .pauseIr
  | .pauseIr, true => .exit2Ir
  | .pauseIr, false => .pauseIr
  | .exit2Ir, true => .updateIr
  | .exit2Ir, false => .shiftIr
  | .updateIr, true => .selectDr
  | .updateIr, false => .runTestIdle

/-- TAP_TCK: an edge of TCK moves the TAP controller while SEC_TAPCTL.EN is 1 outside RUN; TRST_N low holds it in Test-Logic-Reset; on a
falling edge in a shift state TDO takes a value that the manual does not give (R24, R140, R382). No TAP instruction drives a pin
(DESIGN CHOICE, log entry 20). -/
def runTapTck (rising : Bool) (control : TapControl) (s : State) : State :=
  s.act fun c =>
    if c.running || c.dev.state = .dark || !c.sec.tapEn then c
    else if control.trst then c.modSec fun x => { x with tap := .testLogicReset }
    else if rising then c.modSec fun x => { x with tap := x.tap.next control.tms }
    else if c.sec.tap = .shiftDr || c.sec.tap = .shiftIr then
      (c.modSec fun x => { x with tdo := Config.tdo c.free }).draw
    else c

end Sys2Proof.Machine
end

