-- ==== Sys2Proof/Machine/JournalEngine.lean ====
section
/-! DEFINITION. The journal engine: the record's bytes and chain (R349, R350), starting and committing a record (R351 to
R354), recovery at admission step 4 (R355), and the journal scrub (R356). -/

namespace Sys2Proof.Machine

/-- "TU1224 JOURNAL" in ASCII. -/
def journalLabel : List Byte := [0x54, 0x55, 0x31, 0x32, 0x32, 0x34, 0x20, 0x4A, 0x4F, 0x55, 0x52, 0x4E, 0x41, 0x4C]

/-- The chain value before the first record of an area (R350). -/
def Chip.genesis (c : Chip) (auditArea : Bool) : Block :=
  sha16 (journalLabel ++ [if auditArea then 1 else 0] ++ bytesBE c.dev.uid 8)

/-- Bytes 1 to 43 of a record (Table 17-1). -/
def recordHead (type source flags : Byte) (seq : Word) (admission : BitVec 16) (tick wall : BitVec 48) (body : List Byte) :
    List Byte :=
  [type, source, flags] ++ bytesBE seq 4 ++ bytesBE admission 2 ++ bytesBE tick 6 ++ bytesBE wall 6 ++ [0, 0]
    ++ (body ++ List.replicate (20 - body.length) 0).take 20

/-- The sixteen words of a record with a STATE byte, its bytes 1 to 43 and its chain value (Table 17-1). -/
def recordWords (st : Byte) (head : List Byte) (chain : Block) : List Word :=
  let b := head ++ bytesBE chain 16
  let all := st :: b ++ bytesBE (crc32 b) 4
  (List.range 16).map fun i => ofBytes 32 ((all.drop (4 * i)).take 4)

/-! ### Recovery (R355) -/

/-- A slot of an area as read: its number, STATE and word 0, SEQ, chain, and its CRC as computed and as read. -/
structure SlotView where
  index : Nat
  st : Byte
  seq : Word
  admission : BitVec 16
  tick : BitVec 48
  wall : BitVec 48
  chain : Block
  head : List Byte
  word0 : Word
  crcCalc : Word
  crcRead : Word

/-- What recovery reports: the kind, the word address, the expected value where there is one, and the value read
(Table 17-4). -/
structure Found where
  kind : BitVec 4
  address : BitVec 20
  expected : Word
  got : Word

/-- Read the slot at a word address (DEDUCED, log entry 80). -/
def Mems.slotView (m : Mems) (base index : Nat) : SlotView :=
  let b := m.journal.bytes (4 * (base + 16 * index)) 64
  { index := index, st := b.getD 0 0, seq := ofBytes 32 ((b.drop 4).take 4), admission := ofBytes 16 ((b.drop 8).take 2),
    tick := ofBytes 48 ((b.drop 10).take 6), wall := ofBytes 48 ((b.drop 16).take 6), chain := ofBytes 128 ((b.drop 44).take 16),
    head := (b.drop 1).take 43, word0 := ofBytes 32 (b.take 4), crcCalc := crc32 ((b.drop 1).take 59),
    crcRead := ofBytes 32 (b.drop 60) }

/-- The slots of an area that are not all zero, in slot order; the others are EMPTY. -/
def Mems.slots (m : Mems) (base count : Nat) : List SlotView :=
  let used := (m.journal.map fun x => x.1 / 64).dedup
  (used.filter fun n => base / 16 ≤ n && n < base / 16 + count).map fun n => m.slotView base (n - base / 16)

/-- The committed slots in SEQ order (R350). -/
def committed (l : List SlotView) : List SlotView := (l.filter fun v => v.st = 0xC3).mergeSort fun a b => a.seq.toNat ≤ b.seq.toNat

/-- The first record that breaks the chain, with the chain value it should hold, from a chain value and the SEQ before (R350)
(DEDUCED, log entry 80). -/
def chainBreak (chain : Block) (seq : Nat) : List SlotView → Option (SlotView × Block)
  | [] => none
  | v :: r =>
    let want := sha16 (bytesBE chain 16 ++ v.head)
    if v.seq.toNat ≠ seq + 1 || want ≠ v.chain then some (v, want) else chainBreak v.chain v.seq.toNat r

/-- The operational chain from its oldest record, which is the anchor unless its SEQ is 1 (R350) (DEDUCED, log entry 80). -/
def opChainBreak (genesis : Block) : List SlotView → Option (SlotView × Block)
  | [] => none
  | v :: r => if v.seq = 1 then chainBreak genesis 0 (v :: r) else chainBreak v.chain v.seq.toNat r

/-- A slot fails its classification: a STATE byte outside Table 17-1 (kind 5) or a COMMITTED slot with a bad CRC (kind 6)
(DEDUCED, log entry 80). -/
def badSlot (base : Nat) (v : SlotView) : Option Found :=
  if v.st ≠ 0 && v.st ≠ 0x4F && v.st ≠ 0xC3 && v.st ≠ 0x7A then some ⟨5, BitVec.ofNat 20 (base + 16 * v.index), 0, v.word0⟩
  else if v.st = 0xC3 && v.crcCalc ≠ v.crcRead then
    some ⟨6, BitVec.ofNat 20 (base + 16 * v.index + 15), v.crcCalc, v.crcRead⟩
  else none

/-- A broken chain as recovery reports it: at the first word of the record's chain value (kind 7) (DEDUCED, log entry 80). -/
def badChain (base : Nat) (x : SlotView × Block) : Found :=
  ⟨7, BitVec.ofNat 20 (base + 16 * x.1.index + 11), x.2.extractLsb' 96 32, x.1.chain.extractLsb' 96 32⟩

/-- The first fault that recovery finds in the words themselves: an uncorrectable word of the journal or the last-word area at the margin
test, then items 2 and 3 (R355) (DEDUCED, log entry 80). -/
def Chip.recoveryFault (c : Chip) (m : Mems) : Option Found :=
  let a := m.slots 0 4096
  let o := m.slots 0x10000 12288
  (((c.badWord 3 fun _ => true).orElse fun _ => c.badWord 4 fun _ => true).map fun w => (⟨4, BitVec.ofNat 20 w, 0, 0⟩ : Found)).orElse fun _ =>
  ((a.findSome? (badSlot 0)).orElse fun _ => o.findSome? (badSlot 0x10000)).orElse fun _ =>
    ((chainBreak (c.genesis true) 0 (committed a)).map (badChain 0)).orElse fun _ =>
      (opChainBreak (c.genesis false) (committed o)).map (badChain 0x10000)

/-- The latest committed record of two areas: nearer below the new admission number, then the greater TICK (R43)
(DEDUCED, log entry 80). -/
def latestOf (admission : BitVec 16) (a o : Option SlotView) : Option SlotView :=
  match a, o with
  | none, x => x
  | x, none => x
  | some a, some o =>
    let da := (admission - a.admission).toNat
    let d_o := (admission - o.admission).toNat
    if da < d_o then some a else if d_o < da then some o else if a.tick.toNat ≥ o.tick.toNat then some a else some o

/-- The GAP record's body: the reference of the retained registers, else of the last committed record; with no committed record in either
area the reference is 0 and REF 0, whatever is retained (Table 17-2, R43) (DEDUCED, log entry 32). -/
def Chip.gapBody (c : Chip) (previous : BitVec 16) (last : Option SlotView) : List Byte :=
  let kept : Option Retained := c.dev.retained
  let ref : Byte × BitVec 48 × BitVec 48 := match last, kept with
    | none, _ => (0, 0, 0)
    | some _, some r => (1, r.tick, r.wall)
    | some v, none => (0, v.tick, v.wall)
  [ref.1, ((kept.map Retained.cause).getD 0).setWidth 8] ++ bytesBE previous 2 ++ bytesBE ref.2.1 6 ++ bytesBE ref.2.2 6
    ++ bytesBE ((kept.map Retained.syndrome).getD 0) 4

/-- The LASTWORD record's body from the last-word area as read, or kind Fh for a damaged one (Table 17-2, R357). -/
def lastWordBody (w : Vector Word 8) (damaged : Bool) : List Byte :=
  if damaged then 0xF0 :: List.replicate 19 0
  else
    [slice w[0] 0 8] ++ bytesBE (slice w[1] 0 24) 3 ++ bytesBE w[2] 4 ++ bytesBE w[3] 4 ++ bytesBE (slice w[5] 16 16) 2
      ++ bytesBE (slice w[5] 0 16) 2 ++ bytesBE w[4] 4

/-- Admission step 1 reads the last-word area (R357). -/
def Chip.readLastWord (c : Chip) : Chip :=
  let w := c.journal.lastWord
  if slice w[0] 16 16 ≠ 0x4C57 then c.modJournal fun j => { j with lwState := 0 }
  else c.modJournal fun j => { j with volatile := some w, lwState := if lastWordGood w then 1 else 3 }

/-- The words that recovery rewrites: word 0 of every OPEN slot with STATE TORN (R355, item 4). -/
def Mems.tornWrites (m : Mems) (base : Nat) (l : List SlotView) : List MemWrite :=
  (l.filter fun v => v.st = 0x4F).map fun v =>
    .journal (base + 16 * v.index) ((m.journal.readBE (base + 16 * v.index) &&& 0x00FFFFFF) ||| 0x7A000000)

/-- The journal registers rebuilt from the words, and the records GAP, TORN and LASTWORD ahead of the queue; GAP carries LOSS where a
device record has been dropped before it (R354, R355, item 5, R359) (DEDUCED, log entry 80). -/
def Chip.recover (c : Chip) (m : Mems) (previous : BitVec 16) : Chip :=
  let a := m.slots 0 4096
  let o := m.slots 0x10000 12288
  let ca := committed a
  let co := committed o
  let torn := (((a.filter fun v => v.st = 0x4F).map fun v => (true, v)) ++ ((o.filter fun v => v.st = 0x4F).map fun v => (false, v)))
  let lastA := ca.getLast?
  let lastO := co.getLast?
  let after := fun (l : List SlotView) => (l.map fun v => v.index + 1).foldl max 0
  let newer := fun (x v : SlotView) =>
    let committedLater := v.st = 0xC3 && x.st ≠ 0xC3
    let sameKind := decide ((v.st = 0xC3) = (x.st = 0xC3))
    if x.seq.toNat < v.seq.toNat || (x.seq = v.seq && (committedLater || (sameKind && decide (x.index ≤ v.index)))) then v else x
  let opLast := match (o.filter fun v => v.st = 0x4F).head? with
    | some v => v.index + 1
    | none => match o with
      | v :: r => (r.foldl newer v).index + 1
      | [] => 0
  let flags := recordFlags false false false false none
  let mk := fun (type : Byte) (body : List Byte) (id : Nat) => (⟨id, type, 0xFF, flags, body, none, none⟩ : JRecord)
  let n := c.journal.nextId
  let tornRecs := torn.map fun v =>
    mk 129 ((if v.1 then (1 : Byte) else 0) :: bytesBE (BitVec.ofNat 16 v.2.index) 2 ++ bytesBE v.2.seq 4) (n + 1)
  let lwRecs := match c.journal.volatile with
    | none => []
    | some w => if c.journal.lwState = 0 then [] else [mk 130 (lastWordBody w (c.journal.lwState = 3)) (n + 2)]
  c.modJournal fun j =>
    { j with
      queue := { mk 128 (c.gapBody previous (latestOf (previous + 1) lastA lastO)) n with flags := recordFlags false false j.loss false none }
        :: (tornRecs ++ lwRecs ++ j.queue),
      loss := false,
      nextId := n + 3, ready := true, auditHead := BitVec.ofNat 13 (after a),
      auditCount := (lastA.map fun v => v.seq).getD 0, auditChain := (lastA.map fun v => v.chain).getD (c.genesis true),
      opHead := (lastO.map fun v => v.seq).getD 0, opChain := (lastO.map fun v => v.chain).getD (c.genesis false),
      opTail := (co.head?.map fun v => v.seq).getD 0, opNext := BitVec.ofNat 14 (opLast % 12288),
      tornFound := !torn.isEmpty, tornArea := (torn.head?.map fun v => v.1).getD false,
      tornTotal := if torn.isEmpty then j.tornTotal else satInc j.tornTotal }

/-- Item 4 of recovery on the words: every OPEN slot becomes TORN, and a torn last slot ends a lap of the operational ring
(R355, R359) (DEDUCED, log entry 80). -/
def State.tearOpen (s : State) : State :=
  let o := s.mem.slots 0x10000 12288
  let last := o.any fun v => v.st = 0x4F && v.index = 12287
  s.with (s.mem.tornWrites 0 (s.mem.slots 0 4096) ++ s.mem.tornWrites 0x10000 o)
    (s.chip.modJournal fun j => { j with laps := if last then satInc j.laps else j.laps, tornWaits := false })

/-- The recovery of admission step 4 behind a previous admission number: classify and verify, rewrite OPEN slots to TORN, and queue GAP,
TORN and LASTWORD; under a supply warning the rewrites, which are nonvolatile writes, wait as the records do (R43, R86, R355)
(DEDUCED, log entry 80). -/
def State.recoverJournal (s : State) (previous : BitVec 16) : State :=
  match s.chip.recoveryFault s.mem with
  | some e => s.act fun c => c.journalFault e.kind 0 e.address e.expected e.got false 0
  | none =>
    let c := s.chip.recover s.mem previous
    if c.warning then { s with chip := c.modJournal fun j => { j with tornWaits := true } }
    else { s.tearOpen with chip := (s.tearOpen.chip.recover s.mem previous) }

/-! ### Records -/

/-- The SEQ and chain value that the next record of an area continues (R350). -/
def Chip.chainTail (c : Chip) (auditArea : Bool) : Word × Block :=
  let seq := if auditArea then c.journal.auditCount else c.journal.opHead
  (seq, if seq = 0 then c.genesis auditArea else if auditArea then c.journal.auditChain else c.journal.opChain)

/-- The word address of the slot that the next record of an area takes (R346 to R348). -/
def Chip.nextSlot (c : Chip) (auditArea : Bool) : Nat :=
  if auditArea then 16 * c.journal.auditHead.toNat else 0x10000 + 16 * c.journal.opNext.toNat

/-- The GAP record of the admission waits at the head of the queue (R43). -/
def Journal.gapWaits (j : Journal) : Bool := (j.queue.head?.map fun r => decide (r.type = 128)).getD false

/-- The record that the engine takes next: the TRIP record ahead of the queue, with LOSS where a device record has been dropped
before it; but the first record of an admission is its GAP record (R43, R354, Table 17-2) (DEDUCED, log entry 79). -/
def Chip.nextRecord (c : Chip) : Option (JRecord × Bool) :=
  if c.journal.tripDue && !c.journal.gapWaits then
    some (⟨c.journal.nextId, 131, 0xFF, recordFlags false false c.journal.loss false none,
      [c.dev.cause.setWidth 8] ++ bytesBE (c.dev.others.setWidth 16) 2 ++ bytesBE c.dev.syndrome 4, none, none⟩, false)
  else match c.journal.queue with
    | [] => none
    | r :: _ => some (r, true)

/-- A BROWNOUT trip stands: no word write starts (R354). -/
def Chip.brownedOut (c : Chip) : Bool := c.dev.state = .tripped && c.dev.cause = 10

/-- The engine may start a record (R351, R354, R356): it stands before the thread window of a tick in which it has started none, the
journal answers, no warning stands, none is in progress, and in admission step 4 has run (R43) (DEDUCED, log entry 79). -/
def Chip.journalFree (c : Chip) : Bool :=
  (c.dev.state = .run || c.dev.state = .tripped || c.dev.state = .admitting && c.journal.ready) && !c.warning && !c.journal.fault
    && c.journal.writing.isNone && !c.brownedOut && !c.journal.started && c.may (.profile 36)

/-- What the engine does before it takes a record: the TORN rewrites that a supply warning has held up; and in a trip of admission steps
1 to 3, which leaves the journal unread, the recovery of step 4 under the admission number that stands, so that the TRIP record finds its
slot and chain, behind the GAP record that comes first in every admission (R43, R86, R354, R355) (DEDUCED, log entry 79). -/
def State.journalReady (s : State) : State :=
  if s.chip.journal.ready then (if s.chip.journal.tornWaits then s.tearOpen else s)
  else if s.chip.journal.tripDue || !s.chip.journal.queue.isEmpty then s.recoverJournal s.chip.journal.admission
  else s

/-- JOURNAL_RECORD_START: at cycle 1,536, before any thread runs, the engine takes the head record and forms its words with the header of
this tick; the record that its operational slot held is lost (R348, R349, R351, R354) (DEDUCED, log entry 79). -/
def runJournalRecordStart (s : State) : State :=
  if !s.chip.journalFree then s else
  let s := s.journalReady
  s.act fun c =>
    if c.journal.fault then c
    else match c.nextRecord with
      | none => c
      | some (r, fromQueue) =>
        let auditArea := r.flags.getLsbD 7
        let tail := c.chainTail auditArea
        let seq := tail.1 + 1
        let wall := if r.type = 128 then c.dev.wallSeen.getD c.dev.wall else c.dev.wall
        let head := recordHead r.type r.source r.flags seq c.journal.admission c.dev.tick wall r.body
        let chain := sha16 (bytesBE tail.2 16 ++ head)
        let slot := c.nextSlot auditArea
        let held := s.mem.journal.readBE slot
        let lost := !auditArea && slice held 24 8 = 0xC3 && s.mem.journal.readBE (slot + 1) = c.journal.opTail
        (c.enter (.profile 36)).modJournal fun j =>
          { j with
            started := true, loss := j.loss && fromQueue, writing := some ⟨r, BitVec.ofNat 18 slot, seq, chain, recordWords 0xC3 head chain, fromQueue, none⟩,
            opTail := if lost then j.opTail + 1 else j.opTail }

/-- The value of write i of the seventeen: word 0 with STATE OPEN, words 1 to 15, word 0 COMMITTED (Table 17-3)
(DEDUCED, log entry 79). -/
def JWriting.write (w : JWriting) (i : Nat) : Nat × Word :=
  let w0 := w.words.getD 0 0
  if i = 0 then (w.slot.toNat, (w0 &&& 0x00FFFFFF) ||| 0x4F000000)
  else if i = 16 then (w.slot.toNat, w0)
  else (w.slot.toNat + i, w.words.getD i 0)

/-- The first n writes of a record. -/
def JWriting.writes (w : JWriting) (n : Nat) : List MemWrite :=
  (List.range n).map fun i => .journal (w.write i).1 (w.write i).2

/-- The write step of write i (Table 17-3). -/
def writeStep (i : Nat) : BitVec 4 := if i ≤ 5 then 1 else if i ≤ 14 then 2 else if i = 15 then 3 else 4

/-- An audit record is committed: its change no longer waits for it (R128). -/
def Sec.recordCommitted (x : Sec) (id : Nat) (seq : Word) : Sec :=
  { x with
    audits := x.audits.map fun a => if a.waits.contains id then { a with waits := a.waits.erase id, seq := seq } else a }

/-- A record is committed: pointers, chain, its place in the queue, its credit, the JOURNAL event, and for a LASTWORD record
the clearing of the last-word area (R159, R161, R347 to R351, R357). -/
def Chip.commitRecord (c : Chip) (w : JWriting) : Chip :=
  let auditArea := w.item.flags.getLsbD 7
  let c1 := c.modJournal fun j =>
    let j := { j with
      writing := none, queue := if w.fromQueue then j.queue.drop 1 else j.queue,
      tripDue := if w.fromQueue then j.tripDue else false }
    let j := if auditArea then
        { j with
          auditHead := j.auditHead + 1, auditReserved := j.auditReserved - 1, auditCount := w.seq, auditChain := w.chain }
      else
        { j with
          opHead := w.seq, opChain := w.chain, opTail := if j.opTail = 0 then w.seq else j.opTail,
          opNext := if j.opNext.toNat = 12287 then 0 else j.opNext + 1,
          laps := if j.opNext.toNat = 12287 then satInc j.laps else j.laps }
    if w.item.type = 130 then
      { j with lastWord := j.lastWord.set 0 0, volatile := none, lwState := 0 }
    else j
  let c2 := if w.fromQueue then c1.placeFreed .journal else c1
  ((c2.release w.item.credit).modSec fun x => x.recordCommitted w.item.id w.seq).raiseAll 11

/-- What stands in the journal once the record in progress has been cut off: some first words are written, and without clock or
supply the next one holds either value; neither their number nor that value is stated (R352, R353). Behind a write that a stop of SCK
has already interrupted, no later one begins before SCK is back (R352) (DESIGN CHOICE, log entry 16). -/
def State.cutRecord (s : State) (whole : Bool) : State :=
  match s.chip.journal.writing with
  | none => s
  | some r =>
    if r.cut.isSome && !s.chip.lnk.sckRunning then s.act fun c => c.modJournal fun j => { j with writing := none } else
    let n := max (r.cut.getD 0) ((Config.openWord s.chip.free).toNat % 18)
    let next : List MemWrite :=
      if whole || n = 17 then []
      else if Config.interruptedWord s.chip.free then [.journal (r.write n).1 (r.write n).2] else []
    s.with (r.writes n ++ next) (s.chip.modJournal fun j => { j with writing := none }).draw

/-- JOURNAL_COMMIT: how the writes of the record in progress end: all verified and word 0 COMMITTED; a write that fails its verify,
which is JOURNAL_FAULT; or a stop before write i was complete: after a BROWNOUT trip no write begins, so that the record stays as it
is, unless all seventeen had begun and it commits; and while SCK stands still the record waits, to go on at that word when SCK is back
(R28, R351 to R357)
(DESIGN CHOICE, log entry 16; DEDUCED, log entry 79). -/
def runJournalCommit (w : RecordWrite) (s : State) : State :=
  match s.chip.journal.writing with
  | none => s
  | some r =>
    let runs := s.chip.lnk.sckRunning && !s.chip.brownedOut && !s.chip.journal.fault
    match w with
    | .verified => if runs then s.with (r.writes 17) ((s.chip.note (.verify 3 r.slot.toNat true)).commitRecord r) else s
    | .verifyFail index got lastWordFails =>
      if !runs then s
      else
        let i := min 16 index.toNat
        let wi := r.write i
        s.with (r.writes i ++ [.journal wi.1 got])
          ((s.chip.note (.verify 3 wi.1 false)).journalFault 1 (writeStep i) (BitVec.ofNat 20 wi.1) wi.2 got lastWordFails
            (BitVec.ofNat 14 (1559 + 24 * i)))
    | .interrupted index =>
      let i := max (r.cut.getD 0) (min 17 index.toNat)
      if s.chip.brownedOut && s.chip.lnk.sckRunning then
        if i = 17 then s.with (r.writes 17) ((s.chip.note (.verify 3 r.slot.toNat true)).commitRecord r)
        else s.with (r.writes i) (s.chip.modJournal fun j => { j with writing := none })
      else if s.chip.lnk.sckRunning || r.cut.isSome then s
      else
        let i := min 16 i
        let wi := r.write i
        s.with (r.writes i ++ (if Config.interruptedWord s.chip.free then [.journal wi.1 wi.2] else []))
          (s.chip.modJournal fun j => { j with writing := some { r with cut := some i } }).draw

/-- A scrub corrects the single-bit errors of the words that it has read: each enters the input record, and its word is rewritten, with
the verify outcome of a nonvolatile one; the word that fails its verify keeps its error (R342, R356, Table 2-4). -/
def Chip.scrubbed (c : Chip) (m : Fin 6) (words : List Nat) (failed : Option Nat) : Chip :=
  words.foldl (fun c w =>
    let c1 := c.note (.corrected m w)
    let c2 := if m = 1 || m = 3 then c1.note (.verify m w (failed ≠ some w)) else c1
    { c2 with flaws := c.flaws.filter fun f => f.memory ≠ m || f.word ≠ w || f.double || failed = some w }) c

/-- The correction of a visit that fails its verify. -/
def scrubUnverified (e : ScrubErrors) (fixed : List Nat) : Option Nat :=
  (e.verifyFail.map BitVec.toNat).filter fun a => fixed.contains a

/-- The words of a visit that hold a single-bit error, by the state's errors and those that the command brings. -/
def Chip.singles (c : Chip) (m : Fin 6) (visited : List Nat) (e : ScrubErrors) : List Nat :=
  visited.filter fun w => (e.single.any fun a => a.toNat = w) || c.flaws.any fun f => f.memory = m && f.word = w && !f.double

/-- The word of a visit that holds an uncorrectable error. -/
def Chip.doubleIn (c : Chip) (m : Fin 6) (visited : List Nat) (e : ScrubErrors) : Option Nat :=
  visited.find? fun w => (e.double.any fun a => a.toNat = w) || c.flaws.any fun f => f.memory = m && f.word = w && f.double

/-- JOURNAL_SCRUB: once in a tick, during the Loop phase, two words are read, holding while a supply warning stands; an uncorrectable
word or a correction that fails its verify is JOURNAL_FAULT (R28, R356) (DESIGN CHOICE, log entry 34). -/
def runJournalScrub (e : ScrubErrors) (s : State) : State :=
  s.act fun c =>
    if c.dev.state = .dark || c.dev.state = .hunt || c.warning || c.journal.fault || c.journal.scrubbed || !c.may (.loop 84) then c
    else
      let visited := [c.journal.scrubNext.toNat, (c.journal.scrubNext + 1).toNat]
      let fixed := c.singles 3 visited e
      let c1 := (c.leaveHost.scrubbed 3 fixed (scrubUnverified e fixed)).modJournal fun j =>
        { j with scrubNext := j.scrubNext + 2, scrubbed := true }
      match c.doubleIn 3 visited e, scrubUnverified e fixed with
      | some a, _ => c.journalFault 2 0 (BitVec.ofNat 20 a) 0 0 false 256
      | none, some a => c1.journalFault 3 0 (BitVec.ofNat 20 a) 0 0 false 256
      | none, none => c1

end Sys2Proof.Machine
end

