-- ==== Sys2Proof/Machine/Monitors.lean ====
section
/-! DEFINITION. The monitors that the control core latches at cycle 0 of every tick from the first ADMIT tick on: die temperature,
rails and timing slack (R18, R87 to R89). -/

namespace Sys2Proof.Machine

/-- The lowest slack of the tick with its monitor, the lower number on a tie (DEDUCED, log entry 81). -/
def leastSlack (v : Vector (BitVec 6) 16) : BitVec 6 × BitVec 4 :=
  v.toList.zipIdx.foldl (fun m s => if s.1.toNat < m.1.toNat then (s.1, BitVec.ofNat 4 s.2) else m) (v[0], 0)

/-- TEMP_WARNING: the sensor's value, the warning with its record at a crossing, and the run at or above TRIP; WARN is signed
(R87, R95) (DESIGN CHOICE, log entry 95). -/
def Chip.tempBoundary (c : Chip) (temp : BitVec 16) : Chip :=
  let warn := decide (c.pwr.act.tempWarn.toInt ≤ temp.toInt)
  let hot := decide (c.pwr.act.tempTrip.toInt ≤ temp.toInt)
  let c1 := c.modDev fun d =>
    { d with tempPrev := d.temp, temp := temp, otWarn := warn, hotRun := if hot then (if d.hotRun.toNat < 4 then d.hotRun + 1 else 4) else 0 }
  if warn && !c.dev.otWarn then c1.record 132 none (bytesBE temp 2) else c1

/-- The monitors and supplies of the tick; AVS_MARGIN_TRIP at the floor (R88, R89). Whether the tick is one of a decision is noted
from DEV_TICK alone: a device that enters RUN in it decides too (R88)
(DEDUCED, log entry 81; DESIGN CHOICE, log entry 83). -/
def Chip.powerBoundary (c : Chip) (x : TickInputs) : Chip :=
  let least := leastSlack x.slack
  let c1 := c.modPwr fun p =>
    let p := { p with
      act := p.cfg, worst := least.1, railMv := x.railMv, due := decide (c.dev.tick.toNat % 1024 = 0),
      vid := if c.running then p.vid else p.cfg.vboot, islandHold := false }
    if least.1.toNat < p.least.toNat then { p with least := least.1, leastMon := least.2 } else p
  let c2 := c1.tempBoundary x.temp
  if least.1.toNat ≤ 4 then c2.trip 12 (field c2.pwr.vid 4 ||| field least.2 0) 0 else c2

end Sys2Proof.Machine
end

