-- ==== Sys2Proof/Machine/Link.lean ====
section
/-! DEFINITION. The Switas link: synchronisation (R53), the down frame with its section and adaptive loops (R54 to R69), the
deferral and dark trips, and the SCK gap (R37, R70). -/

namespace Sys2Proof.Machine

/-- The down SYNC (R52). -/
def downSync : BitVec 64 := 0x7A12E5C39B0D64F8

/-- The number of bits set. -/
def popCount {w : Nat} (x : BitVec w) : Nat := ((List.range w).filter fun i => x.getLsbD i).length

/-- The bytes of a header that its CRC covers: bits 64 to 191 (Table 3-1, Table 3-8). -/
def headerBytes (h : Header) : List Byte :=
  bytesBE h.frameNo 5 ++ bytesBE h.wall 6 ++ [h.err[0], h.err[1], h.err[2], h.err[3]] ++ [h.flags]

/-- The header's CRC is good. -/
def headerGood (h : Header) : Bool := crc16 (headerBytes h) = h.crc

/-- A magnitude of a signed value. -/
def sAbs {w : Nat} (x : BitVec w) : Nat := x.toInt.natAbs

/-- Dune tracking: the new launch offset and whether its limit stopped the change (R65). -/
def duneMove (o e : BitVec 8) (maxStep : BitVec 2) : BitVec 8 × Bool :=
  let m : Int := maxStep.toNat
  let want := o.toInt - max (-m) (min m e.toInt)
  let lim := max (-64) (min 64 want)
  (BitVec.ofInt 8 lim, lim ≠ want)

/-- The device tracks the slot error of a header with ERR_VALID (R65). -/
def Lnk.dune (l : Lnk) (h : Header) : Lnk :=
  if !h.flags.getLsbD 7 then l
  else
    let e := h.err[l.drop.toNat]
    let l := { l with lastErr := e }
    if h.flags.getLsbD 6 || sAbs e ≤ l.act.deadband.toNat || l.sinceChange.toNat < l.act.hold.toNat then l
    else
      let r := duneMove l.txOfs e l.act.maxStep
      { l with
        txOfs := r.1, duneEdge := l.duneEdge || r.2, sinceChange := if r.1 = l.txOfs then l.sinceChange else 0 }

/-- One sampling point after a move of at most one step, and whether it stands at its bound about home (R66). Where a PUT has
lowered LNK_DUNECFG.RXWIN below the point's distance from home, the point goes to the new bound at once: the manual does not say
whether the window or the one step holds there. A move that the end of the field's 0 to 127 stops counts as one that the bound stops
(DESIGN CHOICE, log entry 21; DESIGN CHOICE, log entry 85; DESIGN CHOICE, log entry 112). -/
def rxStep (point home : BitVec 7) (win : BitVec 6) (move : BitVec 2) : BitVec 7 × Bool :=
  let h : Int := home.toNat
  let w : Int := win.toNat
  let want : Int := point.toNat + (if move = 1 then -1 else if move = 2 then 1 else 0)
  let lim := max (max 0 (h - w)) (min (min 127 (h + w)) want)
  (BitVec.ofInt 7 lim, lim ≠ want || lim = h - w || lim = h + w)

/-- Receive placement of a non-dark frame: a free move per lane (R66). -/
def Chip.placement (c : Chip) (h : Header) : Chip :=
  if h.flags.getLsbD 6 then c
  else
    let a := rxStep c.lnk.rx0 c.lnk.home0 c.lnk.act.rxWin (Config.rxMove c.free)
    let b := rxStep c.lnk.rx1 c.lnk.home1 c.lnk.act.rxWin (Config.rxMove (c.free + 1))
    (c.modLnk fun l => { l with rx0 := a.1, rx1 := b.1, rxEdge := l.rxEdge || a.2 || b.2 }).draw.draw

/-- A dark frame: nothing of it is used (R68). A count of consecutive dark frames above its field's 31 has no stated value. Its own section
is not checked: SECT_BAD reads 0 for it and LNK_CRCERR.SECTION stays (DESIGN CHOICE, log entry 115). -/
def Chip.darkFrame (c : Chip) (syncGood : Bool) : Chip :=
  let full := c.lnk.darkRun = 31
  let c1 := c.modLnk fun l =>
    { l with
      frameIn := true, darkIn := true, sectBad := false, frameSkipped := false,
      darkRun := if full then (Config.openWord c.free).setWidth 5 else l.darkRun + 1,
      darkTotal := satInc l.darkTotal, crcHeader := if syncGood then satInc l.crcHeader else l.crcHeader, adaptHold := true,
      received := [], nextWall := none }
  if full then c1.draw else c1

/-- The own section is good: it stands behind the sections ahead, no count read is above 20, its own is that of its packets, it ends
in time, and its CRC holds (R55, R56, R69). -/
def sectionGood (l : Lnk) (fr : DownFrame) : Bool :=
  let bitsOf := fun n : Nat => 48 + 256 * n
  let ends := 224 + ((fr.ahead.map fun n => bitsOf n.toNat).foldl (· + ·) 0) + bitsOf fr.count.toNat
  fr.ahead.length = l.drop.toNat && (fr.ahead.all fun n => decide (n.toNat ≤ 20)) && fr.count.toNat ≤ 20 && fr.packets.length = fr.count.toNat
    && ends ≤ 4 * (l.ticklen.toNat - 64)
    && crc32 (bytesBE fr.count 2 ++ fr.packets.flatMap fun p => bytesBE p 32) = fr.crc

/-- The own section of a frame that is not dark (R58, R69, Table 3-12) (DESIGN CHOICE, log entry 4). -/
def Lnk.section (l : Lnk) (fr : DownFrame) : Lnk :=
  if sectionGood l fr then
    { l with
      sectBad := false, received := fr.packets, pktTotal := l.pktTotal + BitVec.ofNat 24 fr.packets.length,
      pktLast := BitVec.ofNat 5 fr.packets.length }
  else { l with sectBad := true, received := [], crcSection := satInc l.crcSection }

/-- A frame that is not dark: frame number, wall time, adaptive loops and own section (R42, R54, R65 to R69). FRAMESKIP compares with
the latest accepted number: after a dark frame the next good one counts as a skip (DESIGN CHOICE, log entry 86). -/
def Chip.goodFrame (c : Chip) (fr : DownFrame) : Chip :=
  let skip := fr.header.frameNo ≠ c.lnk.frameNo + 1
  let c1 := c.modLnk fun l =>
    { l with
      frameIn := true, darkIn := false, darkRun := 0, frameSkipped := skip, frameSkip := l.frameSkip || skip,
      frameSkips := if skip then satInc l.frameSkips else l.frameSkips, frameNo := fr.header.frameNo,
      nextWall := some fr.header.wall, adaptHold := fr.header.flags.getLsbD 6 }
  ((c1.modLnk fun l => l.dune fr.header).placement fr.header).modLnk fun l => l.section fr

/-- The link is up: ADMIT, RUN or TRIPPED with SCK running. -/
def Chip.linkUp (c : Chip) : Bool :=
  (c.dev.state = .admitting || c.dev.state = .run || c.dev.state = .tripped) && c.lnk.sckRunning

/-- DOWN_FRAME: the frame of the tick is received whole, once in a tick (R54, R55, R68, R69)
(DESIGN CHOICE, log entry 21; DESIGN CHOICE, log entry 25; DESIGN CHOICE, log entry 27). -/
def runDownFrame (fr : DownFrame) (s : State) : State :=
  s.act fun c =>
    if !c.linkUp || c.lnk.frameIn then c
    else
      let syncGood := popCount (fr.header.sync ^^^ downSync) ≤ 2
      if syncGood && headerGood fr.header then c.goodFrame fr else c.darkFrame syncGood

/-- LINK_DARK_TRIP: the consecutive dark frames have reached LNK_DARKMAX (R68, Table 4-6). -/
def runLinkDarkTrip (cycle : BitVec 14) (s : State) : State :=
  s.act fun c =>
    if c.linkUp && c.lnk.act.darkMax.toNat ≤ c.lnk.darkRun.toNat then
      c.trip 1 ((c.lnk.frameNo.extractLsb' 0 16).setWidth 32) cycle
    else c

/-- SLOT_DEFER_TRIP: the consecutive deferrals have reached LNK_DARKMAX (R67, Table 4-6). -/
def runSlotDeferTrip (cycle : BitVec 14) (s : State) : State :=
  s.act fun c =>
    if c.linkUp && c.lnk.act.darkMax.toNat ≤ c.lnk.defRun.toNat then c.trip 3 (c.lnk.defIndex.setWidth 32) cycle else c

/-- The boost of a lane. -/
def Lnk.boost (l : Lnk) : EqLane → BitVec 4
  | .sck => l.eqSck
  | .dn1 => l.eqDn1
  | .dn0 => l.eqDn0

/-- The link with the boost of a lane set. -/
def Lnk.setBoost (l : Lnk) (lane : EqLane) (v : BitVec 4) : Lnk :=
  match lane with
  | .sck => { l with eqSck := v }
  | .dn1 => { l with eqDn1 := v }
  | .dn0 => { l with eqDn0 := v }

/-- A trial setting of one step comes into force, at most once per 256 ticks; at a bound EQ_EDGE (R66). A boost that a PUT of LNK_EQCFG
leaves outside the new bounds stays there and comes back one step per trial (DESIGN CHOICE, log entry 113). -/
def Chip.eqTry (c : Chip) (lane : EqLane) (up : Bool) (eye : BitVec 16) : Chip :=
  let b := c.lnk.boost lane
  let atBound := if up then c.lnk.act.eqMax.toNat ≤ b.toNat else b.toNat ≤ c.lnk.act.eqMin.toNat
  c.modLnk fun l =>
    let l := { l with lastTrial := some c.dev.tick }
    if atBound then { l with eqEdge := true }
    else { l.setBoost lane (if up then b + 1 else b - 1) with eqTrial := some ⟨lane, b, eye, c.dev.tick⟩ }

/-- The trial is over: the new setting stays where the eye is not smaller, otherwise the previous one returns (R66). -/
def Lnk.eqDecide (l : Lnk) (x : EqTrial) (eye : BitVec 16) : Lnk :=
  if x.eye.toNat ≤ eye.toNat then { l with eqTrial := none } else { l.setBoost x.lane x.boost with eqTrial := none }

/-- EQ_TRIAL: begins a trial with the eye width measured before it, or, 256 ticks after its start, decides the trial in progress
with the eye width measured in them (R66) (DESIGN CHOICE, log entry 44). -/
def runEqTrial (lane : EqLane) (up : Bool) (before after : BitVec 16) (s : State) : State :=
  s.act fun c =>
    if !c.linkUp || c.lnk.adaptHold then c
    else match c.lnk.eqTrial with
      | some x => if (c.dev.tick - x.start).toNat < 256 then c else c.modLnk fun l => l.eqDecide x after
      | none =>
        let early := match c.lnk.lastTrial with
          | none => false
          | some t => decide ((c.dev.tick - t).toNat < 256)
        if early then c else c.eqTry lane up before

/-- SCK_GAP_TRIP: the gap detector fires; a gap below 8 µs never fires it (R37, R41) (DESIGN CHOICE, log entry 82). -/
def runSckGapTrip (cycle : BitVec 14) (gapNs : BitVec 32) (s : State) : State :=
  s.act fun c =>
    if !c.linkUp || gapNs.toNat < 8000 then c
    else (c.modLnk fun l => { l with gaps := satInc l.gaps, sckRunning := false }).trip 2 (cycle.setWidth 32) cycle

/-- SCK_RESUME: SCK edges return; the tick grid is unchanged and every state goes on from where it stood, an up slot that the gap has
interrupted too (R39, R70) (DESIGN CHOICE, log entry 82; DESIGN CHOICE, log entry 114). -/
def runSckResume (s : State) : State :=
  s.act fun c => c.modLnk fun l => { l with sckRunning := true }

/-- Clamp a searched boost to the bounds of LNK_EQCFG (R66). -/
def clampEq (l : Lnk) (v : BitVec 4) : BitVec 4 :=
  if v.toNat < l.act.eqMin.toNat then l.act.eqMin else if l.act.eqMax.toNat < v.toNat then l.act.eqMax else v

/-- Three consistent SYNCs: exact, with good headers, equally spaced from 4,000 to 12,500 cycles, frame numbers consecutive
(R53) (DESIGN CHOICE, log entry 44). -/
def huntConsistent (x : HuntLock) : Bool :=
  x.h1.sync = downSync && x.h2.sync = downSync && x.h3.sync = downSync && headerGood x.h1 && headerGood x.h2 && headerGood x.h3
    && x.spacing1 = x.spacing2 && 4000 ≤ x.spacing1.toNat && x.spacing1.toNat ≤ 12500
    && x.h2.frameNo = x.h1.frameNo + 1 && x.h3.frameNo = x.h2.frameNo + 1

/-- Free places of a queue as a 6-bit count of Table 3-7. -/
def Chip.free6 (c : Chip) (q : QueueId) : BitVec 6 := BitVec.ofNat 6 (c.queueFree q)

/-- QFREE of a credit page (Table 3-7). -/
def Chip.qfree (c : Chip) (page : BitVec 4) : BitVec 24 :=
  match fin? 12 page.toNat with
  | some k =>
    c.free6 (.moves (carAxis k)) ++ c.free6 (.moves (doorAxis (frontDoor k))) ++ c.free6 (.moves (doorAxis (rearDoor k)))
      ++ c.free6 (.cals k)
  | none =>
    let q : BitVec 6 :=
      if page = 12 then c.free6 .scan else if page = 13 then c.free6 .journal else if page = 14 then c.free6 .traces else 0
    q ++ (0 : BitVec 18)

/-- DEV_STATE as encoded in Table 4-1. -/
def DevState.code : DevState → BitVec 3
  | .dark => 0 | .hunt => 1 | .admitting => 2 | .run => 3 | .tripped => 4

/-- SEC_SEAL.STATE as encoded in R131. -/
def Seal.code : Seal → BitVec 2
  | .open_ => 0 | .sealed_ => 1 | .broken => 2

/-- DIAG: a word of the held last-word syndrome while there is one, otherwise DEV_SYNDROME (Table 3-6). -/
def Chip.diag (c : Chip) : BitVec 3 × Word :=
  match c.journal.volatile with
  | none => (0, c.dev.syndrome)
  | some w => let i := c.dev.tick.extractLsb' 0 3; (i, w[i.toNat])

/-- The bytes of the stream area with n results, at four bits a cycle; with an odd LNK_SLOTLEN four more bits follow them (Table
3-5) (DESIGN CHOICE, log entry 41). -/
def LnkCfg.areaBytes (q : LnkCfg) (n : Nat) : Nat := (q.slotLen.toNat - 60 - 64 * n) / 2

/-- The stream selection of the next tick. -/
def Lnk.nextStream (l : Lnk) : StreamSel :=
  match l.streamNext with
  | none => l.stream
  | some x => x.2

/-- The input record of the tick does not fit whole into the stream area of the next slot (R46, R62). -/
def Chip.replayMissed (c : Chip) : Bool :=
  let area := c.lnk.cfg.areaBytes c.lnk.received.length
  c.lnk.nextStream = .replay && (area < 16 || decide (area < (Config.replayRecord c.inputs).length + 10))

/-- The status block (Table 3-6), captured with the flags of the present tick. -/
def Chip.statusBlock (c : Chip) (page : BitVec 4) : BitVec 128 :=
  let d := c.diag
  let l := c.lnk
  c.dev.state.code ++ (if c.dev.state = .tripped then c.dev.cause else 0) ++ BitVec.ofBool l.darkIn ++ BitVec.ofBool l.sectBad
    ++ BitVec.ofBool c.replayMissed ++ BitVec.ofBool l.frameSkipped ++ BitVec.ofBool l.deferred
    ++ BitVec.ofBool (l.duneEdge || l.rxEdge || l.eqEdge) ++ BitVec.ofBool c.journal.volatile.isSome ++ (0 : BitVec 1)
    ++ c.sec.sealSt.code ++ BitVec.ofNat 7 (64 - c.sec.credits.length) ++ (0 : BitVec 4) ++ d.1
    ++ c.sec.tblGen.extractLsb' 0 16 ++ l.frameNo.extractLsb' 0 16 ++ page ++ c.qfree page ++ (0 : BitVec 4) ++ d.2

/-- HUNT_SYNC_LOCK: three consistent SYNCs end HUNT; the tick that begins at the third is the first ADMIT tick, with DEV_TICK 0
and the first trip pending from HUNT is taken at its cycle 0, where the monitors are latched too; no later cause of that cycle takes its
place (R18, R33, R40, R53, R61, R65, R66, R75, R87, R89,
R281, R345)
(DEDUCED, log entry 32; DESIGN CHOICE, log entry 44). -/
def runHuntSyncLock (x : HuntLock) (s : State) : State :=
  s.act fun c =>
    if c.dev.state ≠ .hunt || !huntConsistent x then c
    else
      let pending := c.dev.pendingTrips
      let c1 : Chip := { c with
        dev := { c.dev with
          state := .admitting, tick := 0, cause := 0, others := 0, syndrome := 0, digest := 0, phase := 1, steps := 0, stepStart := 0,
          stepRun := false, rerun := false, stepHold := false, wallSeen := none, pendingTrips := [], tripThisTick := false,
          hostCycles := 0, hostStopped := false },
        lnk := { c.lnk with
          ticklen := x.spacing1, rx0 := x.rx0, rx1 := x.rx1, home0 := x.rx0, home1 := x.rx1, eqSck := clampEq c.lnk x.eqSck,
          eqDn1 := clampEq c.lnk x.eqDn1, eqDn0 := clampEq c.lnk x.eqDn0, txOfs := 0, sinceChange := 255,
          frameNo := x.h2.frameNo, darkIn := false, sectBad := false, frameSkipped := false, deferred := false,
          frameIn := false },
        sine := Vector.replicate 4 sineDefault, stage := .host, inputs := ⟨some x.inputs, []⟩, ramLog := [], turn := (0, 0),
        scan := { c.scan with scrub := vmap (fun _ b => { b with corr := 0, next := 0 }) c.scan.scrub } }
      let c2 := (match pending with
        | [] => c1
        | p :: _ => (c1.trip p.1 p.2 0).modDev fun d => { d with tripAt := none }).powerBoundary x.inputs
      c2.modLnk fun l =>
        let h := l.act.drops
        let top := if h.getLsbD 3 then 4 else if h.getLsbD 2 then 3 else if h.getLsbD 1 then 2 else 1
        { l with
          status := c2.statusBlock 0 &&& ~~~((1 : BitVec 128) <<< 117),
          noFit := !(h.getLsbD l.drop.toNat && decide (top * (l.act.slotLen.toNat + l.act.wadi.toNat) ≤ l.ticklen.toNat)) }

end Sys2Proof.Machine
end

