-- ==== Sys2Proof/Machine/Power.lean ====
section
/-! DEFINITION. Reset, supplies, temperature and the adaptive core voltage (R72 to R74, R86 to R89, R374), and the lock-step
comparison (R14, Table 4-6). -/

namespace Sys2Proof.Machine

/-- A rail below its power-on-reset level, in mV (Table 4-8); VLNK and VANA have none. -/
def belowPor (rail : Fin 5) (mv : BitVec 16) : Bool :=
  match rail.val with
  | 0 => mv.toNat < 700
  | 1 => mv.toNat < 2700
  | 4 => mv.toNat < 1500
  | _ => false

/-- V_VID in tenths of a millivolt (R86). -/
def vVid (c : Chip) : Nat := 8000 + 25 * c.pwr.vid.toNat

/-- The warning level of a rail in tenths of a millivolt (Table 4-8) (DEDUCED, log entry 81). -/
def warnLevel (c : Chip) (rail : Fin 5) : Nat :=
  match rail.val with
  | 0 => vVid c - 300
  | 1 => 31000
  | 2 => 31000
  | 3 => 47000
  | _ => 16800

/-- The under-voltage and over-voltage trip levels of a rail in tenths of a millivolt (Table 4-8) (DEDUCED, log entry 81). -/
def tripLevels (c : Chip) (rail : Fin 5) : Nat × Nat :=
  match rail.val with
  | 0 => (vVid c - 500, 10000)
  | 1 => (30000, 36000)
  | 2 => (30000, 36000)
  | 3 => (45500, 54000)
  | _ => (16200, 19800)

/-- Entry to DARK: every output harmless, volatile state gone; what is left is the nonvolatile contents (R72 to R74)
(DEDUCED, log entry 32). -/
def Chip.goDark (c : Chip) : Chip :=
  let c1 := c.harmless.enterHunt false c.dev.dropsel
  { c1 with dev := { c1.dev with state := .dark, retained := none } }

/-- RST_N_ASSERT: RST_N low takes the device to DARK; a pulse below 50 ns may be taken or ignored. A journal word that has been begun
completes while SCK runs (R352). The retention cells are kept while VCORE holds (R73, R74, R374) (DESIGN CHOICE, log entry 15). -/
def runRstNAssert (lowNs : BitVec 32) (s : State) : State :=
  if s.chip.dev.state = .dark then s
  else
    let taken := 50 ≤ lowNs.toNat || Config.shortResetTaken s.chip.free
    let s := if lowNs.toNat < 50 then s.act Chip.draw else s
    if !taken then s
    else (s.cutRecord s.chip.lnk.sckRunning).act fun c =>
      let keep : Option Retained :=
        if c.dev.state = .hunt then c.dev.retained else some c.dev.retainable
      let c1 := c.goDark
      { c1 with dev := { c1.dev with retained := keep } }

/-- SUPPLY_POR_LOSS: a rail below its power-on-reset level takes the device to DARK without SCK; with VCORE lost the retention
cells are gone, and with VIO lost its pins are unpowered (R74, R80, R86) (DEDUCED, log entry 32). -/
def runSupplyPorLoss (rail : Fin 5) (mv : BitVec 16) (s : State) : State :=
  if !belowPor rail mv then s
  else (s.cutRecord false).act fun c =>
      let keep : Option Retained :=
        if rail.val = 0 then none
        else if c.dev.state = .hunt || c.dev.state = .dark then c.dev.retained
        else some c.dev.retainable
      let c1 := c.goDark
      { c1 with
        dev := { c1.dev with retained := keep },
        pwr := { c1.pwr with railMv := (upd c1.pwr.railMv rail fun _ => mv), vioOn := c1.pwr.vioOn && rail.val ≠ 1 } }

/-- LEAVE_DARK: every rail above its power-on-reset level and RST_N high on sixteen SCK edges leads to HUNT, where the straps
are sampled; with VLNK absent, which is 0 mV here, no SCK is received and the device stays DARK, where VIO powers its pins or not;
PWR_VMON reads 0 until the first tick latches the rails (Table 4-2, Table 4-5, Table 4-11, R53, R74, R373)
(DESIGN CHOICE, log entry 108). -/
def runLeaveDark (railMv : Vector (BitVec 16) 5) (highEdges : BitVec 8) (dropsel : BitVec 2) (s : State) : State :=
  s.act fun c =>
    let good := (List.finRange 5).all fun r => !belowPor r railMv[r.val]
    if c.dev.state ≠ .dark then c
    else
      let c := c.modPwr fun p => { p with vioOn := !belowPor 1 railMv[1] }
      if !good || railMv[2] = 0 || highEdges.toNat < 16 then c
      else
      let c1 := c.enterHunt false dropsel
      { c1 with dev := { c1.dev with retained := c.dev.retained }, pwr := { c1.pwr with railMv := Vector.replicate 5 0 } }

/-- SUPPLY_WARNING: a rail below its warning level, with its result in the input record (R46, R86) (DEDUCED, log entry 81). -/
def runSupplyWarning (rail : Fin 5) (mv : BitVec 16) (s : State) : State :=
  s.clock fun c =>
    if c.dev.state ≠ .dark && 10 * mv.toNat < warnLevel c rail then
      let b := BitVec.ofNat 5 (2 ^ rail.val)
      (c.note (.supply rail mv true)).modPwr fun p =>
        { p with live := p.live ||| b, sticky := p.sticky ||| b, railMv := upd p.railMv rail fun _ => mv }
    else c

/-- SUPPLY_WARNING_CLEAR: a rail back inside for sixteen consecutive cycles, with its result in the input record (R46, R86). -/
def runSupplyWarningClear (rail : Fin 5) (mv : BitVec 16) (cycles : BitVec 8) (s : State) : State :=
  s.clock fun c =>
    if c.dev.state ≠ .dark && warnLevel c rail ≤ 10 * mv.toNat && 16 ≤ cycles.toNat then
      (c.note (.supply rail mv false)).modPwr fun p =>
        { p with live := p.live &&& ~~~(BitVec.ofNat 5 (2 ^ rail.val)), railMv := upd p.railMv rail fun _ => mv }
    else c

/-- BROWNOUT_TRIP: a rail beyond a trip threshold for sixteen consecutive cycles (R86, Table 4-6) (DEDUCED, log entry 81). -/
def runBrownoutTrip (rail : Fin 5) (mv : BitVec 16) (cycles : BitVec 8) (cycle : BitVec 14) (s : State) : State :=
  s.clock fun c =>
    let t := tripLevels c rail
    let high := t.2 < 10 * mv.toNat
    if (high || 10 * mv.toNat < t.1) && 16 ≤ cycles.toNat then
      c.trip 10 (BitVec.ofNat 32 ((if high then 8 else 0) + rail.val)) cycle
    else c

/-- OVERTEMP_TRIP: four consecutive ticks at or above PWR_TEMPTRIP.TRIP (R87, Table 4-6). -/
def runOvertempTrip (cycle : BitVec 14) (s : State) : State :=
  s.clock fun c => if 4 ≤ c.dev.hotRun.toNat then c.trip 11 (c.dev.temp.setWidth 32) cycle else c

/-- AVS_DECISION: the decision of a tick with DEV_TICK mod 1,024 = 0 in RUN (R88). Where VID stands outside VIDMIN to VIDMAX and a
step away from them is wanted, VID stays and EDGE is set, as at a bound (DEDUCED, log entry 81; DESIGN CHOICE, log entry 91). -/
def runAvsDecision (s : State) : State :=
  s.clock fun c =>
    if !c.running || !c.pwr.due then c
    else c.modPwr fun p =>
      let w := p.least.toNat
      let up := w < p.act.slackLo.toNat
      let down := p.act.slackHi.toNat < w
      let p := { p with due := false, mon := p.leastMon, slack := p.least, least := 63, leastMon := 0 }
      if up && p.vid.toNat < p.act.vidMax.toNat then { p with vid := p.vid + 1 }
      else if up then { p with avsEdge := true }
      else if down && p.act.vidMin.toNat < p.vid.toNat then { p with vid := p.vid - 1 }
      else if down then { p with avsEdge := true }
      else p

/-- LOCKSTEP_TRIP: the outputs of a cluster's cores differ, or an instruction does not retire (Table 4-6). -/
def runLockstepTrip (cluster : BitVec 2) (thread : BitVec 6) (cycle : BitVec 14) (s : State) : State :=
  s.clock fun c => c.trip 4 (field cluster 30 ||| field thread 24 ||| field cycle 0) cycle

end Sys2Proof.Machine
end

