-- ==== Sys2Proof/Machine/Events.lean ====
section
/-! DEFINITION. The commands of the secrecy group, the journal engine, the link and the supplies as outcomes: each always
completes. -/

namespace Sys2Proof.Machine

/-- `runChal` as the outcome of its command. -/
def execChal (i : Issuer) (f : Enc) (s : State) : Out := .next (runChal i f s)
/-- `runSessionOpen` as the outcome of its command. -/
def execSessionOpen (i : Issuer) (f : Enc) (s : State) : Out := .next (runSessionOpen i f s)
/-- `runSessionClose` as the outcome of its command. -/
def execSessionClose (i : Issuer) (f : Enc) (s : State) : Out := .next (runSessionClose i f s)
/-- `runTbledit` as the outcome of its command. -/
def execTbledit (i : Issuer) (f : Enc) (s : State) : Out := .next (runTbledit i f s)
/-- `runTblpress` as the outcome of its command. -/
def execTblpress (i : Issuer) (f : Enc) (s : State) : Out := .next (runTblpress i f s)
/-- `runKeysetPart0` as the outcome of its command. -/
def execKeysetPart0 (i : Issuer) (f : Enc) (s : State) : Out := .next (runKeysetPart0 i f s)
/-- `runKeysetPart1` as the outcome of its command. -/
def execKeysetPart1 (i : Issuer) (f : Enc) (s : State) : Out := .next (runKeysetPart1 i f s)
/-- `runStarch` as the outcome of its command. -/
def execStarch (i : Issuer) (f : Enc) (s : State) : Out := .next (runStarch i f s)
/-- `runUnstarch` as the outcome of its command. -/
def execUnstarch (i : Issuer) (f : Enc) (s : State) : Out := .next (runUnstarch i f s)
/-- `runPloadBegin` as the outcome of its command. -/
def execPloadBegin (i : Issuer) (f : Enc) (s : State) : Out := .next (runPloadBegin i f s)
/-- `runPloadData` as the outcome of its command. -/
def execPloadData (i : Issuer) (f : Enc) (s : State) : Out := .next (runPloadData i f s)
/-- `runPloadSeal` as the outcome of its command. -/
def execPloadSeal (i : Issuer) (f : Enc) (s : State) : Out := .next (runPloadSeal i f s)
/-- `runDarn` as the outcome of its command. -/
def execDarn (i : Issuer) (f : Enc) (s : State) : Out := .next (runDarn i f s)
/-- `runStreamNone` as the outcome of its command. -/
def execStreamNone (i : Issuer) (f : Enc) (s : State) : Out := .next (runStreamNone i f s)
/-- `runStreamReplay` as the outcome of its command. -/
def execStreamReplay (i : Issuer) (f : Enc) (s : State) : Out := .next (runStreamReplay i f s)
/-- `runStreamTrace` as the outcome of its command. -/
def execStreamTrace (i : Issuer) (f : Enc) (s : State) : Out := .next (runStreamTrace i f s)
/-- `runStreamJournal` as the outcome of its command. -/
def execStreamJournal (i : Issuer) (f : Enc) (s : State) : Out := .next (runStreamJournal i f s)
/-- `runSessionIdleTimeout` as the outcome of its command. -/
def execSessionIdleTimeout (n : SessionId) (s : State) : Out := .next (runSessionIdleTimeout n s)
/-- `runSessionMaclimit` as the outcome of its command. -/
def execSessionMaclimit (n : SessionId) (s : State) : Out := .next (runSessionMaclimit n s)
/-- `runSeatLockout` as the outcome of its command. -/
def execSeatLockout (i : Fin 7) (s : State) : Out := .next (runSeatLockout i s)
/-- `runChallengeExpiry` as the outcome of its command. -/
def execChallengeExpiry (n : SessionId) (s : State) : Out := .next (runChallengeExpiry n s)
/-- `runWitnessExpiry` as the outcome of its command. -/
def execWitnessExpiry (s : State) : Out := .next (runWitnessExpiry s)
/-- `runAuditedChangeEffect` as the outcome of its command. -/
def execAuditedChangeEffect (s : State) : Out := .next (runAuditedChangeEffect s)
/-- `runEntropyInterval` as the outcome of its command. -/
def execEntropyInterval (bits : BitVec 512) (s : State) : Out := .next (runEntropyInterval bits s)
/-- `runTapTck` as the outcome of its command; the manual names no register that TDI shifts into (log entry
20). -/
def execTapTck (rising : Bool) (control : TapControl) (_tdi : Bool) (s : State) : Out := .next (runTapTck rising control s)
/-- `runJournalRecordStart` as the outcome of its command. -/
def execJournalRecordStart (s : State) : Out := .next (runJournalRecordStart s)
/-- `runJournalCommit` as the outcome of its command. -/
def execJournalCommit (w : RecordWrite) (s : State) : Out := .next (runJournalCommit w s)
/-- `runJournalScrub` as the outcome of its command. -/
def execJournalScrub (e : ScrubErrors) (s : State) : Out := .next (runJournalScrub e s)
/-- `runDownFrame` as the outcome of its command. -/
def execDownFrame (fr : DownFrame) (s : State) : Out := .next (runDownFrame fr s)
/-- `runLinkDarkTrip` as the outcome of its command. -/
def execLinkDarkTrip (cycle : BitVec 14) (s : State) : Out := .next (runLinkDarkTrip cycle s)
/-- `runSlotDeferTrip` as the outcome of its command. -/
def execSlotDeferTrip (cycle : BitVec 14) (s : State) : Out := .next (runSlotDeferTrip cycle s)
/-- `runEqTrial` as the outcome of its command. -/
def execEqTrial (lane : EqLane) (up : Bool) (before after : BitVec 16) (s : State) : Out :=
  .next (runEqTrial lane up before after s)
/-- `runSckGapTrip` as the outcome of its command. -/
def execSckGapTrip (cycle : BitVec 14) (gapNs : BitVec 32) (s : State) : Out := .next (runSckGapTrip cycle gapNs s)
/-- `runSckResume` as the outcome of its command. -/
def execSckResume (s : State) : Out := .next (runSckResume s)
/-- `runHuntSyncLock` as the outcome of its command. -/
def execHuntSyncLock (x : HuntLock) (s : State) : Out := .next (runHuntSyncLock x s)
/-- `runRstNAssert` as the outcome of its command. -/
def execRstNAssert (lowNs : BitVec 32) (s : State) : Out := .next (runRstNAssert lowNs s)
/-- `runSupplyPorLoss` as the outcome of its command. -/
def execSupplyPorLoss (rail : Fin 5) (mv : BitVec 16) (s : State) : Out := .next (runSupplyPorLoss rail mv s)
/-- `runLeaveDark` as the outcome of its command. -/
def execLeaveDark (railMv : Vector (BitVec 16) 5) (highEdges : BitVec 8) (dropsel : BitVec 2) (s : State) : Out :=
  .next (runLeaveDark railMv highEdges dropsel s)
/-- `runSupplyWarning` as the outcome of its command. -/
def execSupplyWarning (rail : Fin 5) (mv : BitVec 16) (s : State) : Out := .next (runSupplyWarning rail mv s)
/-- `runSupplyWarningClear` as the outcome of its command. -/
def execSupplyWarningClear (rail : Fin 5) (mv : BitVec 16) (cycles : BitVec 8) (s : State) : Out :=
  .next (runSupplyWarningClear rail mv cycles s)
/-- `runBrownoutTrip` as the outcome of its command. -/
def execBrownoutTrip (rail : Fin 5) (mv : BitVec 16) (cycles : BitVec 8) (cycle : BitVec 14) (s : State) : Out :=
  .next (runBrownoutTrip rail mv cycles cycle s)
/-- `runOvertempTrip` as the outcome of its command. -/
def execOvertempTrip (cycle : BitVec 14) (s : State) : Out := .next (runOvertempTrip cycle s)
/-- `runAvsDecision` as the outcome of its command. -/
def execAvsDecision (s : State) : Out := .next (runAvsDecision s)
/-- `runLockstepTrip` as the outcome of its command. -/
def execLockstepTrip (cluster : BitVec 2) (thread : BitVec 6) (cycle : BitVec 14) (s : State) : Out :=
  .next (runLockstepTrip cluster thread cycle s)

end Sys2Proof.Machine
end

