-- ==== Sys2Proof/Machine/Flow.lean ====
section
/-! DEFINITION. Data RAM and program store access (R147 to R149, R179) and the flow instructions (R153, R154, R175,
R180). -/

namespace Sys2Proof.Machine

/-! ### Memory -/

/-- The regions of a data RAM bank (Table 7-1). -/
inductive Region where
  | privateOf (slot : Nat)
  | shared
  | doorbell (slot : Nat)
  | mailbox
  deriving DecidableEq, Repr

/-- The bank and region of a data RAM byte address below 30000h (Table 7-1). -/
def regionOf (a : Nat) : Nat × Region :=
  let o := a % 0xC000
  (a / 0xC000,
    if o < 0x6000 then .privateOf (o / 0x800)
    else if o < 0xA000 then .shared
    else if o < 0xA030 then .doorbell ((o - 0xA000) / 4)
    else .mailbox)

/-- Table 7-1 lets a thread write to a byte address. -/
def threadMayWrite (t : ThreadId) (a : Nat) : Bool :=
  let own := clusterOf t
  match regionOf a with
  | (b, .privateOf j) => b = own.1 && j = own.2
  | (b, .shared) => b = own.1
  | (_, .doorbell _) => true
  | (_, .mailbox) => true

/-- The host may access a byte address: a doorbell or mailbox word (R149). -/
def hostMayAccess (a : Nat) : Bool :=
  a < 0x30000 && a % 4 = 0 &&
    (match (regionOf a).2 with
      | .privateOf _ | .shared => false
      | .doorbell _ | .mailbox => true)

/-- A write to a doorbell word raises DOORBELL of its thread (R148). -/
def Chip.ring (c : Chip) (a : Nat) : Chip :=
  match regionOf a with
  | (b, .doorbell j) =>
    (match fin? 4 b, fin? 12 j with
      | some n, some k => c.raise (threadAt n k) 1
      | _, _ => c)
  | _ => c

/-- The address of LD and ST: W(A) + IMM, modulo 2^32 (R179) (DESIGN CHOICE, log entry 100). -/
def memAddress (w : Vector Word 16) (f : Enc) : Nat := (regOf w f.a + f.imm.setWidth 32).toNat

/-- LD in a thread: of two clusters that touch a word in one cycle, the read sees the word from before the cycle; an uncorrectable
word trips the device (R147 to R149, R179). -/
def threadLd (t : ThreadId) (f : Enc) (s : State) : State :=
  threadRun t 2 s fun s =>
    let x := s.chip.threads[t.val]
    let a := memAddress x.w f
    let at_ := s.chip.cycleOf t 2
    let fails := fun code : Byte => s.act fun c => c.modThread t fun x => x.fault code
    let loads := fun (v : Word) (s : State) => s.act fun c => c.modThread t fun x => { x with w := setReg x.w f.d v, pc := x.pc + 1 }
    if f.m = 0 then
      if 0x30000 ≤ a || a % 4 ≠ 0 then fails 4 else s.reading 0 (fun w => decide (w = a / 4)) at_ (loads (s.chip.ramSeen s.mem a at_))
    else if f.m = 1 then
      if s.mem.inImage a then s.reading 1 (fun w => decide (w = a)) at_ (loads (s.mem.progWord a)) else fails 4
    else fails 2

/-- LD from the host (R149, R179). -/
def bodyLd : Body := fun x m c =>
  let a := memAddress x.w x.f
  let plan : Plan :=
    { illegal := 1 < x.f.m.toNat,
      checks := [(!c.classBit x.who.seat 6 0, .denied), (x.f.m = 1 || !hostMayAccess a, .range)],
      queue := none,
      act := fun c => ⟨.done, [(x.f.d, m.ram.readLE a)], [], c⟩ }
  plan.reads c x.who 2 0 (fun w => decide (w = a / 4)) []

/-- LD of either issuer. -/
def runLd (i : Issuer) (f : Enc) (s : State) : State :=
  match i with
  | .thread t => threadLd t f s
  | .host p => hostIssue p 0x10 f 2 bodyLd s

/-- ST in a thread: of two writes of a word in one cycle, that of the higher cluster stands (R147, R148, R179). -/
def threadSt (t : ThreadId) (f : Enc) (s : State) : State :=
  threadRun t 2 s fun s =>
    let x := s.chip.threads[t.val]
    let a := memAddress x.w f
    if f.m ≠ 0 then { s with chip := s.chip.modThread t fun x => x.fault 2 }
    else if 0x30000 ≤ a || a % 4 ≠ 0 || !threadMayWrite t a then { s with chip := s.chip.modThread t fun x => x.fault 4 }
    else
      let c := (s.chip.noteScanned 0 (a / 4) (s.chip.cycleOf t 2)).logRam s.mem ⟨a, s.chip.cycleOf t 2, (clusterOf t).1 + 1, regOf x.w f.d⟩
      s.with [.ram a (c.ramStands s.mem a)] ((c.modThread t fun x => { x with pc := x.pc + 1 }).ring a)

/-- ST from the host (R149, R179). -/
def bodySt : Body := fun x _ c =>
  let a := memAddress x.w x.f
  { illegal := x.f.m ≠ 0,
    checks := [(!c.classBit x.who.seat 6 1, .denied), (!hostMayAccess a, .range)],
    queue := none,
    act := fun c => ⟨.done, [], [.ram a (regOf x.w x.f.d)], c.ring a⟩ }

/-- ST of either issuer. -/
def runSt (i : Issuer) (f : Enc) (s : State) : State :=
  match i with
  | .thread t => threadSt t f s
  | .host p => hostIssue p 0x11 f 2 bodySt s

/-! ### Flow -/

/-- The target of BR and CALL (Table 8-4). -/
def branchTarget (w : Vector Word 16) (f : Enc) : BitVec 16 :=
  if f.m = 0 then f.imm else (regOf w f.a).setWidth 16

/-- A branch encoding is ILLEGAL: reserved condition, reserved M, or IMM not 0 with a register target (R172, R175)
(DEDUCED, log entry 47). -/
def branchIllegal (f : Enc) : Bool := f.d = 15 || 1 < f.m.toNat || (f.m = 1 && f.imm ≠ 0)

/-- BR (R180). -/
def runBr (t : ThreadId) (f : Enc) (s : State) : State :=
  threadPlain t 2 (branchIllegal f) (fun x =>
    { x with pc := if condHolds x.flags f.d then branchTarget x.w f else x.pc + 1 }) s

/-- CALL: with 8 return addresses on the stack a fault STACK (R180). -/
def runCall (t : ThreadId) (f : Enc) (s : State) : State :=
  threadPlain t 2 (branchIllegal f) (fun x =>
    if !condHolds x.flags f.d then { x with pc := x.pc + 1 }
    else if 8 ≤ x.stack.length then x.fault 3
    else { x with stack := (x.pc + 1) :: x.stack, pc := branchTarget x.w f }) s

/-- RET: with an empty stack a fault STACK (R180). -/
def runRet (t : ThreadId) (f : Enc) (s : State) : State :=
  threadPlain t 2 (f.d ≠ 0 || f.a ≠ 0 || f.m ≠ 0 || f.imm ≠ 0) (fun x =>
    match x.stack with
    | [] => x.fault 3
    | p :: r => { x with stack := r, pc := p }) s

/-- YIELD ends the slot; the thread continues at the next instruction (R153). -/
def runYield (t : ThreadId) (f : Enc) (s : State) : State :=
  threadPlain t 1 (f.d ≠ 0 || f.a ≠ 0 || f.m ≠ 0 || f.imm ≠ 0) (fun x =>
    { x with pc := x.pc + 1, slotLeft := 0, progressed := true }) s

/-- The mask that a WAIT waits for: bit 0 is ignored (R180). -/
def waitMask (imm : BitVec 16) : BitVec 16 := imm &&& 0xFFFE

/-- A WAIT completes with its matched event bits in W15 and clears them (R154) (DESIGN CHOICE, log entry 45). -/
def Thread.completeWait (x : Thread) (matched timeout : BitVec 16) : Thread :=
  { x with
    st := .ready, pend := x.pend &&& ~~~matched, w := setReg x.w 15 ((matched ||| timeout).setWidth 32),
    deadline := none, progressed := true }

/-- WAIT (R154, R180) (DEDUCED, log entry 42). -/
def runWait (t : ThreadId) (f : Enc) (s : State) : State :=
  let now := s.chip.dev.tick
  let count := regOf (s.chip.threads[t.val]).w f.a
  threadPlain t 2
    (f.d ≠ 0 || f.m ≠ 0 || f.imm.getLsbD 14 || f.imm.getLsbD 15 || (waitMask f.imm = 0 && count = 0)) (fun x =>
    let matched := x.pend &&& waitMask f.imm
    if matched ≠ 0 then { x.completeWait matched 0 with pc := x.pc + 1 }
    else
      { x with
        pc := x.pc + 1, st := .waiting, mask := waitMask f.imm, slotLeft := 0, progressed := true,
        deadline := if count = 0 then none else some (now + count.setWidth 48) }) s

/-- ASSERT: a fault ASSERT where the condition is false (Table 8-4). -/
def runAssert (t : ThreadId) (f : Enc) (s : State) : State :=
  threadPlain t 1 (f.d = 15 || f.a ≠ 0 || f.m ≠ 0 || f.imm ≠ 0) (fun x =>
    if condHolds x.flags f.d then { x with pc := x.pc + 1 } else x.fault 5) s

/-- The meaning of LD. -/
def execLd (i : Issuer) (f : Enc) (s : State) : Out := .next (runLd i f s)
/-- The meaning of ST. -/
def execSt (i : Issuer) (f : Enc) (s : State) : Out := .next (runSt i f s)
/-- The meaning of BR. -/
def execBr (t : ThreadId) (f : Enc) (s : State) : Out := .next (runBr t f s)
/-- The meaning of CALL. -/
def execCall (t : ThreadId) (f : Enc) (s : State) : Out := .next (runCall t f s)
/-- The meaning of RET. -/
def execRet (t : ThreadId) (f : Enc) (s : State) : Out := .next (runRet t f s)
/-- The meaning of YIELD. -/
def execYield (t : ThreadId) (f : Enc) (s : State) : Out := .next (runYield t f s)
/-- The meaning of WAIT. -/
def execWait (t : ThreadId) (f : Enc) (s : State) : Out := .next (runWait t f s)
/-- The meaning of ASSERT. -/
def execAssert (t : ThreadId) (f : Enc) (s : State) : Out := .next (runAssert t f s)

end Sys2Proof.Machine
end

