-- ==== Sys2Proof/Machine/Faults.lean ====
section
/-! DEFINITION. Service states of a car and its stop table (R248, R254), car faults (R252, Table 12-9), door faults (R291,
R292, Table 13-3), and the forcing of loops (R238). -/

namespace Sys2Proof.Machine

/-- Conditions with the refusal that each calls for, in any order (R11). -/
abbrev Checks := List (Bool × Status)

/-- CAR_SERVICE changes; a car that leaves IN loses its stop table, and SERVICE and CALLS are raised (R248, R254). -/
def Chip.setService (c : Chip) (k : CarId) (dest : Service) : Chip :=
  let was := (c.cars[k.val]).service
  if was = dest then c
  else
    let c1 := (c.modCar k fun x => { x with service := dest }).raiseSee k 13
    if was = .in_ then
      (c1.modCar k fun x => { x with calls := [], present := none, arriving := none }).raiseSee k 12
    else c1

/-- Queue a command for the next advance of an axis (R185). -/
def Chip.axisCmd (c : Chip) (a : AxisId) (m : AxisCmd) : Chip := c.modAxis a fun x => { x with cmds := x.cmds ++ [m] }

/-- The bit of a fault code in an OTHERS field: register bit 15 + code (Tables 12-10, 13-4). -/
def faultBit (code : Nat) : BitVec 12 := BitVec.ofNat 12 (2 ^ (code - 1))

/-- A loop that is off: its output reads 0 and its next run is a start (R234, R238, R241) (DEDUCED, log entry 69). -/
def Loop.quiet (x : Loop) : Loop := { x with starting := true, u := 0, sig := { x.sig with u := 0 } }

/-- A fault comes before the standing cause: detected earlier in the present tick, or in the same cycle with a lower code (R252, R291)
(DEDUCED, log entry 59). -/
def Chip.faultFirst (c : Chip) (standing : Option Nat) (cause code stamp : Nat) : Bool :=
  match standing with
  | none => false
  | some n => decide (c.stamp 0 ≤ n) && (decide (stamp < n) || (decide (stamp = n) && decide (code < cause)))

/-- The body of a record of a car fault (Table 17-2). -/
def carFaultBody (x : Car) (code : Nat) : List Byte := BitVec.ofNat 8 code :: bytesBE (x.faultOthers.setWidth 16) 2 ++ bytesBE x.pos 4

/-- The body of a record of a door fault (Table 17-2). -/
def doorFaultBody (d : DoorId) (pos : Word) (code : Nat) : List Byte := [BitVec.ofNat 8 d.val, BitVec.ofNat 8 code] ++ bytesBE pos 4

/-- A queue of records with the body of the latest one of a kind replaced (DEDUCED, log entry 59). -/
def rewriteLatest (kind : JRecord → Bool) (body : List Byte) (q : List JRecord) : List JRecord :=
  let latest := (q.filter kind).getLast?.map JRecord.id
  q.map fun r => if some r.id = latest then { r with body := body } else r

/-- The record of the standing fault of a car, and of a door, with what the cycle of its detection has brought since (R252, R291)
(DEDUCED, log entry 59). -/
def Chip.rewriteCarFault (c : Chip) (k : CarId) : Chip :=
  let mine := fun r : JRecord => decide (r.type = 137) && decide (r.flags.extractLsb' 0 4 = BitVec.ofNat 4 k.val)
  let body := carFaultBody (c.cars[k.val]) (c.cars[k.val]).faultCause.toNat
  c.modJournal fun j => { j with queue := rewriteLatest mine body j.queue }
/-- The same of a door. -/
def Chip.rewriteDoorFault (c : Chip) (d : DoorId) : Chip :=
  let mine := fun r : JRecord => decide (r.type = 138) && decide (r.body.head? = some (BitVec.ofNat 8 d.val))
  let body := doorFaultBody d (c.doors[d.val]).pos (c.doors[d.val]).faultCause.toNat
  c.modJournal fun j => { j with queue := rewriteLatest mine body j.queue }

/-- A car fault of Table 12-9, detected at an admission cycle count: STOPPED_FAULT at once, with a STOP and the discards of R212 at the
next advance; SLIP and the two FEEDBACK faults clear HOMED; the first detected is the cause, of the faults of one cycle the lowest code,
and every other one sets its OTHERS bit (R252). It takes precedence over an accepted request (R249). A car that is ISLAND_OFF has no
faults (DEDUCED, log entry 53; DEDUCED, log entry 59). -/
def Chip.carFault (c : Chip) (k : CarId) (code stamp : Nat) : Chip :=
  let x := c.cars[k.val]
  if x.service = .islandOff then c
  else
    let c0 := (if code ≤ 3 then c.modAxis (carAxis k) fun a => { a with homed := false } else c).modCar k fun x => { x with goto := none }
    if x.service = .stoppedFault then
      if x.faultCause.toNat = code then c0
      else if c.faultFirst x.faultAt x.faultCause.toNat code stamp then
        (c0.modCar k fun x =>
          { x with
            faultCause := BitVec.ofNat 8 code, faultOthers := x.faultOthers ||| faultBit x.faultCause.toNat,
            faultAt := some stamp }).rewriteCarFault k
      else
        let c1 := c0.modCar k fun x => { x with faultOthers := x.faultOthers ||| faultBit code }
        if x.faultAt = some stamp then c1.rewriteCarFault k else c1
    else
      let c1 := (c0.setService k .stoppedFault).modCar k fun x =>
        { x with
          faultActive := true, faultCause := BitVec.ofNat 8 code, calls := [], present := none, arriving := none,
          faultAt := some stamp, pulseOk := false }
      let c2 := ((c1.axisCmd (carAxis k) .purge).axisCmd (carAxis k) .stop).raiseSee k 8
      (c2.modLoop (carLoop k) Loop.quiet).record 137 (some k) (carFaultBody x code)

/-- A door is in use: its TYPE is not NONE (R272) (DEDUCED, log entry 75). -/
def Door.inUse (x : Door) : Bool := x.act.type ≠ .none

/-- DOOR_STATE.STATE as it reads: a door that is not in use reads STOPPED (R272). -/
def Door.shown (x : Door) : DoorState := if x.inUse then x.st else .stopped

/-- The other door of the same car. -/
def otherDoor (d : DoorId) : DoorId :=
  if h : d.val % 2 = 0 then ⟨d.val + 1, by omega⟩ else ⟨d.val - 1, by omega⟩

/-- The two doors of the car are coupled by a cam (R292). -/
def Chip.coupled (c : Chip) (d : DoorId) : Bool :=
  (c.axes[(doorAxis d).val]).engaged.isSome || (c.axes[(doorAxis (otherDoor d)).val]).engaged.isSome

/-- The three loops of a door off (R238, R286). -/
def Chip.quietDoor (c : Chip) (d : DoorId) : Chip := foldFin 3 (fun s c => c.modLoop (doorLoop d s) Loop.quiet) c

/-- A fault of one door, detected at an admission cycle count (R291): gates low and loops forced off at once; the discards of R212 and the
re-seating at the next advance; a learn in progress ends; the first detected is the cause, of the faults of one cycle the lowest code.
CONF is formed at the end of the Profile phase alone (R287) (DEDUCED, log entry 53; DEDUCED, log entry 59). -/
def Chip.doorFaultOne (c : Chip) (d : DoorId) (code stamp : Nat) : Chip :=
  let k := carOfDoor d
  let x := c.doors[d.val]
  if !x.inUse || !(c.cars[k.val]).on then c
  else if x.st = .fault then
    if x.faultCause.toNat = code then c
    else if c.faultFirst x.faultAt x.faultCause.toNat code stamp then
      (c.modDoor d fun x =>
        { x with
          faultCause := BitVec.ofNat 8 code, faultOthers := x.faultOthers ||| faultBit x.faultCause.toNat,
          faultAt := some stamp }).rewriteDoorFault d
    else c.modDoor d fun x => { x with faultOthers := x.faultOthers ||| faultBit code }
  else
    let c1 := (c.quietDoor d).modDoor d fun x =>
      { x.gatesLow with
        st := .fault, faultActive := true, faultCause := BitVec.ofNat 8 code, faultAt := some stamp,
        learn := none, learnResult := if x.learn.isSome then 5 else x.learnResult }
    let c2 := (c1.axisCmd (doorAxis d) .purge).raiseSee k 8
    c2.record 138 (some k) (doorFaultBody d x.pos code)

/-- A door fault of Table 13-3; a fault of either engaged door puts the other into FAULT with COUPLED (R292)
(DEDUCED, log entry 59). -/
def Chip.doorFault (c : Chip) (d : DoorId) (code stamp : Nat) : Chip :=
  let fresh := (c.doors[d.val]).st ≠ .fault
  let c1 := c.doorFaultOne d code stamp
  if fresh && c.coupled d && (c1.doors[d.val]).st = .fault then c1.doorFaultOne (otherDoor d) 9 stamp else c1

/-- A door of the car in use is in FAULT. -/
def Chip.anyDoorFault (c : Chip) (k : CarId) : Bool :=
  [frontDoor k, rearDoor k].any fun d => (c.doors[d.val]).inUse && (c.doors[d.val]).st = .fault

/-- DRVEN or BRKEN of the car is latched low (R308). -/
def Chip.driveLow (c : Chip) (k : CarId) : Bool := (c.cars[k.val]).ilk.out &&& 3 ≠ 3

/-- DOOREN of the car is latched low (R286). -/
def Chip.doorLow (c : Chip) (k : CarId) : Bool := !(c.cars[k.val]).ilk.out.getLsbD 2

/-- The door that a loop below 72 serves. -/
def doorOfLoop (l : LoopId) : Option DoorId := fin? 24 (l.val / 3)

/-- The engine forces a loop off under R238: a standing loop fault, a door in FAULT, a car in STOPPED_FAULT. -/
def Chip.loopFaulted (c : Chip) (l : LoopId) : Bool :=
  (c.loops[l.val]).fault ≠ 0 ||
    (if 72 ≤ l.val then (c.cars[(carOfLoop l).val]).service = .stoppedFault
    else match doorOfLoop l with
      | none => false
      | some d => (c.doors[d.val]).st = .fault)

/-- The enables of a loop's car, as latched, force it off: DRVEN or BRKEN low for the car's own loop (R308), DOOREN low for a door's
(R286). -/
def Chip.enableLow (c : Chip) (l : LoopId) : Bool := if 72 ≤ l.val then c.driveLow (carOfLoop l) else c.doorLow (carOfLoop l)

/-- The engine forces a loop off: under R238, or with DOOREN low (R286), or DRVEN or BRKEN low (R308) (DEDUCED, log entry 69). -/
def Chip.loopForced (c : Chip) (l : LoopId) : Bool :=
  c.loopFaulted l || c.enableLow l

/-- The latest output of a loop: 0 while it is OFF, forced off, or its door is not in use (R235, R238, R272). -/
def Chip.loopOut (c : Chip) (l : LoopId) : Int :=
  let x := c.loops[l.val]
  let used := if 72 ≤ l.val then true else match doorOfLoop l with
    | none => false
    | some d => (c.doors[d.val]).inUse
  if (c.cars[(carOfLoop l).val]).on && x.act.run && used && !c.loopForced l then x.u.toInt else 0

/-- Every member of the safety parameter set of the car, its doors and its interlock is set (Table 12-3, bit 16)
(DEDUCED, log entry 51). -/
def Chip.spsSet (c : Chip) (k : CarId) : Bool :=
  ((List.finRange 9).all fun m => (c.sps.get (.car m k)).isSome)
    && ((List.finRange 7).all fun m => (c.sps.get (.ilk m k)).isSome)
    && ((List.finRange 6).all fun m =>
      [frontDoor k, rearDoor k].all fun d => (c.sps.get (.door m d)).isSome)

end Sys2Proof.Machine
end

