-- ==== Sys2Proof/Machine/Profile.lean ====
section
/-! DEFINITION. The profile generator: tick units and working limits (R199, R203), the rule of the advance (R201, R202), the
travel range (R205), axis commands (R206 to R209), cams (R213, R214), and the end of a move (R202, R215). -/

namespace Sys2Proof.Machine

/-! ### Arithmetic (R199) -/

/-- One µm in generator units. -/
def unit : Int := 2 ^ 48

/-- n ÷ d to the nearest integer, halves up. -/
def roundUp (n d : Int) : Int := (2 * n + d) / (2 * d)

/-- n ÷ d to the nearest integer, halves away from zero; d is positive. -/
def roundAway (n d : Int) : Int := if n < 0 then -((2 * -n + d) / (2 * d)) else (2 * n + d) / (2 * d)

/-- SCK cycles per second (Table 0-2). -/
def sckHz : Int := 125000000

/-- LNK_TICKLEN as an integer. -/
def Chip.tick (c : Chip) : Int := c.lnk.ticklen.toNat

/-- A speed in µm/s in units per tick. -/
def Chip.speedUnits (c : Chip) (v : Nat) : Int := roundUp (v * c.tick * 2 ^ 48) sckHz

/-- The axis bound of a limit (Table 9-2): 0 VLIM, 1 ALIM, 2 DLIM, 3 JLIM; an unset bound counts as 0. -/
def Chip.axisBound (c : Chip) (a : AxisId) (lim : BitVec 2) : Nat :=
  if a.val < 12 then
    let k := carOfAxis a
    match lim.toNat with
    | 0 => if (c.cars[k.val]).service = .inspect then c.sps0 (.car 3 k) else c.sps0 (.car 0 k)
    | 1 | 2 => c.sps0 (.car 1 k)
    | _ => c.sps0 (.car 2 k)
  else match lim.toNat with
    | 0 => 2000000
    | 1 | 2 => 20000000
    | _ => 2000000000

/-- The PRF register of a limit. -/
def Axis.limit (x : Axis) (lim : BitVec 2) : Word :=
  match lim.toNat with
  | 0 => x.vlim
  | 1 => x.alim
  | 2 => x.dlim
  | _ => x.jlim

/-- The axis with a limit register written. -/
def Axis.setLimit (x : Axis) (lim : BitVec 2) (v : Word) : Axis :=
  match lim.toNat with
  | 0 => { x with vlim := v }
  | 1 => { x with alim := v }
  | 2 => { x with dlim := v }
  | _ => { x with jlim := v }

/-- The working limit: the smaller of the register and its bound (R203). -/
def Chip.workLimit (c : Chip) (a : AxisId) (lim : BitVec 2) : Nat :=
  min ((c.axes[a.val]).limit lim).toNat (c.axisBound a lim)

/-- The working limits in tick units (R199). -/
def Chip.limitsOf (c : Chip) (a : AxisId) : Limits :=
  let l := c.tick
  let conv := fun (n : Nat) (p : Int) (q : Int) => (roundUp (n * p * 2 ^ 48) q).toNat
  { vt := conv (c.workLimit a 0) l sckHz, at_ := conv (c.workLimit a 1) (l * l) (sckHz * sckHz),
    dt := conv (c.workLimit a 2) (l * l) (sckHz * sckHz), jt := conv (c.workLimit a 3) (l * l * l) (sckHz * sckHz * sckHz) }

/-- A working limit is 0 (R203). -/
def Chip.limitsZero (c : Chip) (a : AxisId) : Bool :=
  c.workLimit a 0 = 0 || c.workLimit a 1 = 0 || c.workLimit a 2 = 0 || c.workLimit a 3 = 0

/-- PRF_FLAGS.BOUNDCLIP: a working limit is below its register (R203). -/
def Chip.boundClips (c : Chip) (a : AxisId) : Bool :=
  [0, 1, 2, 3].any fun i => decide (c.axisBound a i < ((c.axes[a.val]).limit i).toNat)

/-! ### The advance (R201) -/

/-- The new acceleration: never more than Jt from w. -/
def accelStep (jt : Int) (w j lo hi : Int) : Int := max (w - jt) (min (w + jt) (max (-lo) (min hi (w + j))))

/-- The speed once w has been returned to 0 at Jt per tick, in closed form: q full steps of Jt and a rest r. -/
def coast (jt : Nat) (u w : Int) : Int :=
  let q : Int := w.natAbs / jt
  let r : Int := w.natAbs % jt
  u + w.sign * (jt * (q * (q - 1) / 2) + q * r)

/-- The braking acceleration of stopdist. -/
def brakeAccel (l : Limits) (u w : Int) : Int :=
  let jt : Int := l.jt
  let pick := fun j : Int => accelStep jt w j l.dt l.at_
  let good := fun w1 : Int => decide (u + w1 ≤ 0 ∧ -jt ≤ w1 ∧ w1 ≤ 0) || decide (0 ≤ coast l.jt (u + w1) w1)
  if good (pick (-jt)) then pick (-jt) else if good (pick 0) then pick 0 else pick jt

/-- The loop of stopdist, for at most n ticks. -/
def brakeLoop (l : Limits) : Nat → Int → Int → Int → Int
  | 0, _, _, d => d
  | n + 1, u, w, d =>
    if u ≤ 0 ∧ w ≤ 0 then d
    else
      let w1 := brakeAccel l u w
      let u1 := u + w1
      if u1 ≤ 0 then d else brakeLoop l n u1 w1 (d + u1)

/-- Ticks within which braking from (u, w) ends: no more than w to return the acceleration, and one per unit of the speed then
reached, which is at most |u| + w². -/
def brakeFuel (u w : Int) : Nat := 4 * (u.natAbs + w.natAbs + w.natAbs * w.natAbs) + 16

/-- Travel toward E until rest, braking at the limits. -/
def stopdist (l : Limits) (u w : Int) : Int :=
  if u < 0 ∨ (u = 0 ∧ w < 0) then -(brakeLoop l (brakeFuel u w) (-u) (-w) 0) else brakeLoop l (brakeFuel u w) u w 0

/-- The choice of one advance in the frame turned toward E: the new speed and acceleration, and whether LIMITED is set. -/
def advanceFrame (l : Limits) (vc x u w : Int) : Int × Int × Bool :=
  let jt : Int := l.jt
  let lo : Int := if 0 < u then l.dt else l.at_
  let hi : Int := if u < 0 then l.dt else l.at_
  let pass := fun j : Int =>
    let w1 := accelStep jt w j lo hi
    let u1 := u + w1
    decide ((coast l.jt u1 w1).natAbs ≤ vc ∧ stopdist l u1 w1 ≤ x - u1)
  let take := fun j : Int => (u + accelStep jt w j lo hi, accelStep jt w j lo hi)
  let r :=
    if pass jt then (take jt, false)
    else if pass 0 then (take 0, false)
    else if pass (-jt) then (take (-jt), false)
    else
      let b := take (if 0 < u then -jt else jt)
      (b, decide (x - b.1 < stopdist l b.1 b.2))
  let u1 := r.1.1
  let w1 := r.1.2
  if 0 < u ∧ u1 ≤ 0 ∧ -jt ≤ w1 ∧ w1 ≤ 0 then (0, 0, r.2) else (u1, w1, r.2)

/-- A generator value. -/
def gen (x : Int) : BitVec 80 := BitVec.ofInt 80 x

/-- A position in µm as a generator value. -/
def genPos (x : Word) : BitVec 80 := gen (x.toInt * unit)

/-- The position of a generator value in µm, halves away from zero (R199). -/
def umOf (x : BitVec 80) : Word := BitVec.ofInt 32 (roundAway x.toInt unit)

/-- The sign of the direction of travel (R201). -/
def Axis.dir (x : Axis) : Int :=
  if x.v.toInt ≠ 0 then x.v.toInt.sign
  else if x.a.toInt ≠ 0 then x.a.toInt.sign
  else if x.e.toInt ≠ x.p.toInt then (x.e.toInt - x.p.toInt).sign
  else 1

/-- The rest point in the direction of travel (R201). -/
def Axis.restPoint (x : Axis) (l : Limits) : Int :=
  let s := x.dir
  x.p.toInt + s * stopdist l (s * x.v.toInt) (s * x.a.toInt)

/-- One advance toward E with speed bound Vc: the axis after it, and whether the move ended (R201, R202). -/
def Axis.advance (x : Axis) (l : Limits) (vc : Int) : Axis × Bool :=
  let p := x.p.toInt
  let v := x.v.toInt
  let e := x.e.toInt
  let s := if e ≠ p then (e - p).sign else if v ≠ 0 then -v.sign else 1
  let d := s * (e - p)
  let u := s * v
  let w := s * x.a.toInt
  if u = 0 ∧ w = 0 ∧ d < unit then ({ x with p := x.e }, true)
  else
    let r := advanceFrame l vc d u w
    ({ x with
        p := gen (p + s * r.1), v := gen (s * r.1), a := gen (s * r.2.1), limited := x.limited || r.2.2,
        limSeen := x.limSeen || r.2.2 }, false)

/-- The set-point velocity, PRF_SETVEL, in µm/s (R199). -/
def Chip.setVel (c : Chip) (a : AxisId) : Int := roundAway ((c.axes[a.val]).v.toInt * sckHz) (c.tick * unit)

/-- The set-point acceleration in µm/s² (R235). -/
def Chip.setAccel (c : Chip) (a : AxisId) : Int :=
  roundAway ((c.axes[a.val]).a.toInt * sckHz * sckHz) (c.tick * c.tick * unit)

/-- PRF_SETPOS in µm (R199). -/
def Chip.setPos (c : Chip) (a : AxisId) : Word := umOf (c.axes[a.val]).p

/-! ### Ends of moves and sequences -/

/-- The axis discards its queue and frees its places and credits; QEMPTY where it held any (R205, R209, R212). -/
def Chip.dropQueue (c : Chip) (a : AxisId) : Chip :=
  let q := (c.axes[a.val]).queue
  if q.isEmpty then c
  else
    let c1 := c.modAxis a fun x => { x with queue := [] }
    let c2 := q.foldl (fun c m => c.release m.credit) c1
    (c2.placeFreed (.moves a)).raise (threadOfAxis a) 3

/-- A homing sequence ends: a car that is HOMING becomes OUT (Table 12-2). -/
def Chip.endHoming (c : Chip) (a : AxisId) (homed : Bool) : Chip :=
  let c1 := c.modAxis a fun x => { x with homing := none, homed := homed }
  if a.val < 12 && (c.cars[(carOfAxis a).val]).service = .homing then c1.setService (carOfAxis a) .out else c1

/-- A door state in which the close or open motion of the axis stands still is classified by where the move ended
(Table 13-2). -/
def Chip.classifyRest (c : Chip) (d : DoorId) : Chip :=
  let x := c.doors[d.val]
  let e := umOf (c.axes[(doorAxis d).val]).e
  if x.st = .fault then c
  else
    let st : DoorState :=
      if e.toInt ≤ x.act.lockWin.toNat then .closed
      else if e.toInt = x.act.width.toNat then .open_
      else .stopped
    c.modDoor d fun x => { x with st := if st = .closed && x.st = .closedLocked then .closedLocked else st }

/-- Enter a door state that holds L at BASE (R283). -/
def Door.enter (x : Door) (st : DoorState) : Door :=
  let base := st = .homing || st = .learning || st = .reversing
  { x with st := st, limit := if base then x.act.base else x.limit, atCap := if base then false else x.atCap }

/-- The door takes a move with end point E from p: OPENING, CLOSING or NUDGING (Table 13-2). -/
def Chip.classifyMove (c : Chip) (d : DoorId) : Chip :=
  let a := c.axes[(doorAxis d).val]
  let x := c.doors[d.val]
  if x.st = .fault || x.st = .homing || x.st = .learning then c
  else if a.p.toInt < a.e.toInt then c.modDoor d fun x => x.enter .opening
  else if a.e.toInt < a.p.toInt then c.modDoor d fun x => x.enter (if x.armed then .nudging else .closing)
  else c

/-! ### Axis commands (R206 to R211) -/

/-- A release of the cam: STOPPING toward the rest point (R214); PRF_MASTER keeps the table and the master of the cam that was engaged
(DESIGN CHOICE, log entry 101). -/
def Axis.release (x : Axis) (l : Limits) : Axis :=
  match x.engaged with
  | none => x
  | some (t, m) =>
    let e := x.restPoint l
    { x with
      engaged := none, lastTable := t, lastMaster := BitVec.ofNat 6 m.val, e := gen e, st := .stopping,
      remain := 0, stopAt := none, cap := none }

/-- STOP on the axis alone (R206) (DEDUCED, log entry 53). -/
def Axis.stop (x : Axis) (l : Limits) : Axis :=
  match x.st with
  | .moving | .homing =>
    let e := x.restPoint l
    { x with e := gen e, target := umOf (gen e), remain := 0, stopAt := none, st := .stopping, homing := none }
  | .held => { x with remain := 0, stopAt := none, target := umOf x.p, st := .idle }
  | .cam => x.release l
  | .idle | .stopping | .off => x

/-- STOP with what it does to a homing sequence or a learn (R206, R286). -/
def Chip.applyStop (c : Chip) (a : AxisId) (l : Limits) : Chip :=
  let was := (c.axes[a.val]).st
  let c1 := c.modAxis a fun x => x.stop l
  let c2 := if was = .homing then c1.endHoming a false else c1
  match doorOfAxis a with
  | none => c2
  | some d =>
    if (c2.doors[d.val]).st = .learning && (c2.doors[d.val]).learn.isSome then
      c2.modDoor d fun x => { x with learn := none, learnResult := 5 }
    else c2

/-- The state of an axis after a command, as R209 checks later commands against it. -/
def Axis.after (x : Axis) (l : Limits) : AxisCmd → Axis
  | .stop => x.stop l
  | .stopat j p =>
    if x.st = .moving then { x with e := genPos p, remain := x.target - p, stopAt := some j } else x
  | .resume =>
    if x.remain ≠ 0 && (x.st = .held || x.st = .moving) then { x with e := genPos x.target, remain := 0, stopAt := none, st := .moving } else x
  | .engage t m => if x.st = .idle then { x with st := .cam, engaged := some (t, m) } else x
  | .release => x.release l
  | .reopen target => { x.release l with e := genPos target, target := target, remain := 0, stopAt := none, st := .moving, cap := none, queue := [] }
  | .purge => { x.release l with queue := [], remain := 0, stopAt := none }

/-- The axis as the commands already accepted since its latest advance will leave it (R209). -/
def Axis.projected (x : Axis) : Axis := x.cmds.foldl (fun x m => x.after x.working m) x

/-! ### Landings -/

/-- The landings in force. -/
def Car.landings (x : Car) : List Landing :=
  match x.table with
  | none => []
  | some t => t.rows

/-- CAR_LANDINGS.LOADED. -/
def Car.loaded (x : Car) : Nat := x.landings.length

/-- Landing j. -/
def Car.landing? (x : Car) (j : Nat) : Option Landing := x.landings[j]?

/-- The landing at exactly a position, the lowest one. -/
def Car.landingAt (x : Car) (p : Word) : Option Nat := x.landings.findIdx? fun l => l.p = p

/-- A target lies inside the axis's travel range as it stands, where there is one (R205). -/
def Chip.inRange (c : Chip) (a : AxisId) (target : Word) : Bool :=
  match doorOfAxis a with
  | some d => decide (0 ≤ target.toInt) && decide (target.toInt ≤ (c.doors[d.val]).act.width.toNat)
  | none =>
    let t := (c.cars[(carOfAxis a).val]).landings
    match t.head?, t.getLast? with
    | some lo, some hi => decide (lo.p.toInt ≤ target.toInt) && decide (target.toInt ≤ hi.p.toInt)
    | _, _ => true

/-- A car axis has no travel range without a landing table (R205). -/
def Chip.noRange (c : Chip) (a : AxisId) : Bool := a.val < 12 && (c.cars[(carOfAxis a).val]).table.isNone

/-! ### Cams (R213, R214) -/

/-- Word n of cam table t. -/
def Mems.camWord (m : Mems) (t : BitVec 4) (n : Nat) : Word := m.cam.readLE (2048 * t.toNat + 4 * n)

/-- The cam output for a master position, and whether the master lies outside the table (R214) (DEDUCED, log entry 55). -/
def Mems.camOutput (m : Mems) (t : BitVec 4) (master : Int) : Int × Bool :=
  let s := (m.camWord t 1).toNat % 32
  let y := fun n : Nat => (m.camWord t (2 + n)).toInt * unit
  let dm := master - (m.camWord t 0).toInt * unit
  let pitch : Int := 2 ^ s * unit
  if dm < 0 then (y 0, true)
  else if 509 * pitch ≤ dm then (y 509, true)
  else
    let i := (dm / pitch).toNat
    let f := dm - i * pitch
    (y i + ((m.camWord t (3 + i)).toInt - (m.camWord t (2 + i)).toInt) * f / 2 ^ s, false)

/-- The words of cam memory that `camOutput` reads (R214). -/
def Mems.camReads (m : Mems) (t : BitVec 4) (master : Int) (w : Nat) : Bool :=
  let at_ := fun n => decide (w = 512 * t.toNat + n)
  let dm := master - (m.camWord t 0).toInt * unit
  let pitch : Int := 2 ^ ((m.camWord t 1).toNat % 32) * unit
  at_ 0 || at_ 1
    || (if dm < 0 then at_ 2
      else if 509 * pitch ≤ dm then at_ 511
      else at_ (2 + (dm / pitch).toNat) || at_ (3 + (dm / pitch).toNat))

/-- Word 1 of the table is in range: an interval shift of at most 20 and reserved bits 0 (Table 9-3). -/
def Mems.camShiftOk (m : Mems) (t : BitVec 4) : Bool := (m.camWord t 1).toNat ≤ 20

/-- One advance of an engaged slave from the master's position after the previous Profile phase (R214)
(DEDUCED, log entry 55). -/
def Axis.camStep (x : Axis) (l : Limits) (out : Int × Bool) : Axis :=
  let v1 := out.1 - x.p.toInt
  let a1 := v1 - x.v.toInt
  let j1 := a1 - x.a.toInt
  let x := { x with camEdge := x.camEdge || out.2 }
  let bad := decide ((l.vt : Int) < v1.natAbs) || decide ((l.jt : Int) < j1.natAbs)
    || decide ((if 0 < a1 * v1 then (l.at_ : Int) else l.dt) < a1.natAbs)
  if bad then { x.release l with camLim := true }
  else { x with p := gen out.1, e := gen out.1, v := gen v1, a := gen a1 }

end Sys2Proof.Machine
end

