-- ==== Sys2Proof/Machine/Cars.lean ====
section
/-! DEFINITION. Cars: service requests (R249 to R253), the landing table and the schedule table (R255, R270), stops, reach and
arrivals (R257 to R259), the slip check (R262), the run-time limiter (R264) and the drive port (R265 to R268), with the stop and
interlock instructions (R187 to R189). -/

namespace Sys2Proof.Machine

/-! ### Landings as seen (R137) -/

/-- Landing j is marked secured. -/
def Chip.secure (c : Chip) (j : Nat) : Bool := c.sec.secureMask.getLsbD j

/-- The landing that a seat without SECURED sees in place of j (R137). -/
def Chip.seenLanding (c : Chip) (k : CarId) (j : Nat) : Nat :=
  if !c.secure j then j
  else
    let free := (List.range (c.cars[k.val]).loaded).filter fun i => !c.secure i
    match (free.filter fun i => i < j).getLast? with
    | some i => i
    | none => free.head?.getD 0

/-- A landing as an issuer sees it. -/
def Chip.shownLanding (c : Chip) (who : Who) (k : CarId) (j : Nat) : Nat :=
  if c.whoSecured who then j else c.seenLanding k j

/-- A mask of landings as an issuer sees it: secured landings read 0 without SECURED (R137). -/
def Chip.shownMask (c : Chip) (who : Who) (x : BitVec 128) : BitVec 128 :=
  if c.whoSecured who then x else x &&& ~~~c.sec.secureMask

/-- The number of marked landings. -/
def countBits (x : BitVec 128) : Nat := ((List.range 128).filter fun i => x.getLsbD i).length

/-! ### Reach and the next stop (R258, R259) -/

/-- Travel ahead until rest, in the direction of travel, under the working limits of the latest advance. -/
def Axis.ahead (x : Axis) : Int := stopdist x.working (x.dir * x.v.toInt) (x.dir * x.a.toInt)

/-- Which positions an axis can still stop at: all at rest, those beyond the rest point while it moves (R258). -/
def Axis.reaches (x : Axis) : Word → Bool :=
  match x.st with
  | .idle | .held => fun _ => true
  | .moving | .stopping =>
    let need := x.ahead
    fun p => decide (need ≤ x.dir * (p.toInt * unit - x.p.toInt))
  | .off | .homing | .cam => fun _ => false

/-- A pass landing serves neither door (R255). -/
def Landing.isPass (l : Landing) : Bool := !l.front && !l.rear

/-- CAR_REACH (R258). -/
def Chip.reachMask (c : Chip) (k : CarId) : BitVec 128 :=
  let x := c.cars[k.val]
  if x.service ≠ .in_ && x.service ≠ .inspect then 0
  else
    let can := (c.axes[(carAxis k).val]).reaches
    (x.landings.zipIdx.foldl (fun m l => if !l.1.isPass && can l.1.p then m ||| (1#128 <<< l.2) else m) 0)

/-- Landing j holds a car call or a hall call in the direction (up true). -/
def serves (calls : List Call) (j : Nat) (up : Bool) : Bool :=
  calls.any fun x => x.landing.toNat = j && (x.kind = 0 || x.kind = (if up then 1 else 2))

/-- Landing j holds a hall call in the direction. -/
def hallCall (calls : List Call) (j : Nat) (up : Bool) : Bool :=
  calls.any fun x => x.landing.toNat = j && x.kind = (if up then 1 else 2)

/-- Landing j holds any call. -/
def anyCall (calls : List Call) (j : Nat) : Bool := calls.any fun x => x.landing.toNat = j

/-- The landing of a list nearest by a distance, the earlier on a tie. -/
def nearestBy (dist : Nat → Int) : List Nat → Option Nat
  | [] => none
  | j :: r => match nearestBy dist r with
    | none => some j
    | some i => if dist j ≤ dist i then some j else some i

/-- Position of landing j, 0 where there is none. -/
def Car.landingPos (x : Car) (j : Nat) : Int := ((x.landing? j).map fun l => l.p.toInt).getD 0

/-- The direction of the nearest landing that holds a call, UP on a tie (R259) (DEDUCED, log entry 22). -/
def Car.callDir (x : Car) (calls : List Call) : Bool :=
  let held := (List.range x.loaded).filter (anyCall calls)
  let dist := fun j => ((x.landingPos j - x.pos.toInt).natAbs : Int)
  match nearestBy dist held with
  | none => true
  | some i => held.any fun j => dist j = dist i && decide (x.pos.toInt ≤ x.landingPos j)

/-- The rule of R259 at rest, over a given stop table (DEDUCED, log entry 22). -/
def Chip.restStop (c : Chip) (k : CarId) (calls : List Call) : Option Nat :=
  let x := c.cars[k.val]
  let reach := c.reachMask k
  let first := match x.dir with
    | .up => true
    | .down => false
    | .idle => x.callDir calls
  let look := fun up : Bool =>
    let s : Int := if up then 1 else -1
    let dist := fun j => s * (x.landingPos j - x.pos.toInt)
    let set := (List.range x.loaded).filter fun j => reach.getLsbD j && decide ((c.sps0 (.car 4 k) : Int) < dist j)
    match nearestBy dist (set.filter fun j => serves calls j up) with
    | some j => some j
    | none => nearestBy (fun j => -dist j) (set.filter fun j => hallCall calls j !up)
  match look first with
  | some j => some j
  | none => look !first

/-- The next stop of the car (R259). -/
def Chip.nextStop (c : Chip) (k : CarId) : Option Nat :=
  let x := c.cars[k.val]
  let a := c.axes[(carAxis k).val]
  let here := x.landing.toNat
  if a.st = .moving || a.st = .stopping then
    let s := a.dir
    let reach := c.reachMask k
    let set := (List.range x.loaded).filter fun j =>
      reach.getLsbD j && decide (s * (x.landingPos j * unit - a.e.toInt) ≤ 0) && serves x.calls j (decide (0 < s))
    match nearestBy (fun j => s * (x.landingPos j * unit - a.p.toInt)) set with
    | some j => some j
    | none => (List.range x.loaded).find? fun j => x.landingPos j * unit = a.e.toInt
  else if x.level && anyCall x.calls here then some here
  else c.restStop k x.calls

/-- The direction toward landing j from the car's position. -/
def Car.toward (x : Car) (j : Nat) : Dir :=
  if x.pos.toInt < x.landingPos j then .up else if x.landingPos j < x.pos.toInt then .down else .idle

/-- A move has ended with E at the landing where the car stands level, and its arrival is to follow (R257). -/
def Car.arrives (x : Car) : Bool :=
  match x.arriving with
  | none => false
  | some j => x.level && decide (x.landing.toNat = j.toNat)

/-- CAR_REACH and CAR_DIR at the end of a Profile phase; the direction of travel stands until an arrival that is to follow has used it
(R257 to R259) (DEDUCED, log entry 22). -/
def Chip.afterProfile (c : Chip) (k : CarId) : Chip :=
  let x := c.cars[k.val]
  let a := c.axes[(carAxis k).val]
  let dir : Dir :=
    if a.st = .moving || a.st = .stopping || a.st = .homing then (if 0 < a.dir then .up else .down)
    else if x.arrives then x.dir
    else match c.nextStop k with
      | none => .idle
      | some j => if x.present.map BitVec.toNat = some j then .idle else x.toward j
  let reach := c.reachMask k
  c.modCar k fun x => { x with dir := dir, reach := reach }

/-- An arrival at landing j, from the direction of travel: its car calls and the hall calls of the direction that CAR_DIR then holds are cleared, both
directions when no stop remains, and j is present (R257; DEDUCED, log entry 22). -/
def Chip.arrive (c : Chip) (k : CarId) (j : BitVec 7) : Chip :=
  let x := c.cars[k.val]
  let others := x.calls.filter fun y => y.landing ≠ j
  let dir : Dir := match c.restStop k others with
    | none => .idle
    | some i => x.toward i
  let keep := x.calls.filter fun y =>
    y.landing ≠ j || (y.kind = 1 && dir = .down) || (y.kind = 2 && dir = .up)
  let c1 := c.modCar k fun x => { x with calls := keep, present := some j, arriving := none, dir := dir }
  if keep.length < x.calls.length then c1.raiseSee k 12 else c1

/-- CAR_ARRIVAL: a move has ended with E at a landing and LEVEL holds (R257) (DEDUCED, log entry 22). -/
def runCarArrival (k : CarId) (s : State) : State :=
  s.clock fun c => match (c.cars[k.val]).arriving with
    | none => c
    | some j => if c.running && (c.cars[k.val]).arrives then c.arrive k j else c

/-- A landing's bit in CAR_CALLS: any call, or present (R257). -/
def Car.callsMask (x : Car) : BitVec 128 :=
  let m := x.calls.foldl (fun m y => m ||| (1#128 <<< y.landing.toNat)) 0
  match x.present with
  | none => m
  | some j => m ||| (1#128 <<< j.toNat)

/-! ### Requests (R249, R250) -/

/-- Input errors of an interface in the last 1,024 ticks (R231). -/
def Chip.errorWindow (c : Chip) (i : FbkId) : Nat := min 1023 (recent 1024 c.dev.tick (c.fbks[i.val]).errTicks).length

/-- A disruptive test runs on the car (R93). -/
def Chip.testRunning (c : Chip) (k : CarId) : Bool := c.dev.tests.any fun t => 0x10 ≤ t.code.toNat && t.car = k

/-- A door will be in use, or still is: TYPE as it stands, or as it stands stored for the boundary at which a request acts (R272, R386). -/
def Door.counts (x : Door) : Bool := x.inUse || x.cfg.type ≠ .none

/-- The loops of the car meet R240 as their registers read, with which they act from the boundary of the entry on: RUN 1 and SATMAX set
for the outer loop and every loop of a door in use (R240, R386, R387). -/
def Chip.loopsReady (c : Chip) (k : CarId) : Bool :=
  let ready := fun l : LoopId => (c.loops[l.val]).cfg.run && (c.loops[l.val]).cfg.satMax ≠ 0
  ready (carLoop k) && [frontDoor k, rearDoor k].all fun d =>
    !(c.doors[d.val]).counts || (List.finRange 3).all fun s => ready (doorLoop d s)

/-- The feedback interfaces meet R217 as their registers read (R217, R386). -/
def Chip.feedbackReady (c : Chip) (k : CarId) : Bool :=
  (c.fbks[(machine k).val]).cfg.mode = .quad && (c.fbks[(hoistway k).val]).cfg.mode ≠ .off
    && (c.fbks[(machine k).val]).cfg.scale ≠ 0 && (c.fbks[(hoistway k).val]).cfg.scale ≠ 0

/-- A drive port fault stands in CAR_DPSTAT (R268, Table 12-3). -/
def Car.portFault (x : Car) : Bool :=
  x.dpcfg.missMax.toNat < x.miss.toNat || x.dpcfg.spdCnt.toNat ≤ x.spdRun.toNat || x.dpStatus.getLsbD 3

/-- The latest good drive reply has READY at 0 (R260) (DEDUCED, log entry 56). -/
def Car.notReady (x : Car) : Bool := x.dpSeen && !x.dpStatus.getLsbD 0

/-- A good drive reply has come since power-up, and the latest one has READY set (R312, Table 12-3). -/
def Car.driveReady (x : Car) : Bool := x.dpSeen && x.dpStatus.getLsbD 0

/-- The unmet conditions of Table 12-3, bit 0 for register bit 16 (DEDUCED, log entry 56). -/
def Chip.unmet (c : Chip) (k : CarId) : BitVec 12 :=
  let x := c.cars[k.val]
  let a := c.axes[(carAxis k).val]
  let conds : List Bool :=
    [c.spsSet k, c.feedbackReady k, c.loopsReady k, a.homed, x.table.isSome, x.loadValid,
      x.dpcfg.en && x.dpGood && !x.notReady && decide ((240 + x.dpcfg.turnMax.toNat) * 50
        ≤ (c.loops[(carLoop k).val]).cfg.div.toNat * c.lnk.ticklen.toNat),
      x.pulseOk,
      [frontDoor k, rearDoor k].all fun d => !(c.doors[d.val]).counts
        || ((c.doors[d.val]).st = .closedLocked && (c.axes[(doorAxis d).val]).homed),
      x.speed = 0 && (a.st = .idle || a.st = .held) && x.ilk.rb &&& 3 = 0,
      decide (c.errorWindow (machine k) ≤ (c.fbks[(machine k).val]).act.thresh.toNat)
        && decide (c.errorWindow (hoistway k) ≤ (c.fbks[(hoistway k).val]).act.thresh.toNat) && !x.portFault && x.loadValid]
  (conds.zipIdx.foldl (fun m b => if b.1 then m else m ||| (1#12 <<< b.2)) 0)

/-- What a request of CAR_SERVICE.REQ is answered with: a refusal where there is one, the WHY bits, and the state that it leads
to (R249, R250) (DEDUCED, log entry 56). -/
def Chip.request (c : Chip) (k : CarId) (req : BitVec 4) : Option Status × BitVec 12 × Option Service :=
  let x := c.cars[k.val]
  let u := c.unmet k
  let enter := fun (dest : Service) (mask : BitVec 12) =>
    if x.service = dest then (none, 0, none)
    else if x.service ≠ .out then (some Status.state, 0, none)
    else if u &&& mask ≠ 0 then (some .refused, u &&& mask, none)
    else if c.testRunning k then (some .busy, 0, none)
    else (none, 0, some dest)
  match req.toNat with
  | 1 =>
    if x.service = .out then (none, 0, none)
    else if x.service ≠ .in_ && x.service ≠ .inspect then (some .state, 0, none)
    else
      let a := c.axes[(carAxis k).val]
      if (a.st = .idle || a.st = .held) && a.queue.isEmpty then (none, 0, some .out) else (some .refused, 0x200, none)
  | 2 => enter .in_ 0x7FF
  | 3 => enter .inspect 0x7E7
  | 4 =>
    if x.service ≠ .stoppedFault then (some .state, 0, none)
    else if u &&& 0x600 ≠ 0 then (some .refused, u &&& 0x600, none)
    else (none, 0, some .out)
  | _ => (some .range, 0, none)

/-- A request as executed; an accepted CLEAR ends the READBACK fault and starts the check of SAFE_PULSE_RB afresh (R249, R310, R311)
(DEDUCED, log entry 56). -/
def Chip.acceptRequest (c : Chip) (k : CarId) (req : BitVec 4) (dest : Option Service) : Chip :=
  let c1 := c.modCar k fun x => { x with goto := dest.orElse fun _ => x.goto }
  if req = 4 && dest.isSome then c1.modIlk k fun i => { i with rbFault := false, rbWhich := 0, pulseRun := 0 } else c1

/-! ### Tables in data RAM (R255, R270) -/

/-- Landing i of a landing table at a byte address, absent where a reserved bit is set. -/
def Mems.landing (m : Mems) (addr i : Nat) : Option Landing :=
  let w := fun o => m.ram.readLE (addr + 8 + 16 * i + o)
  if w 4 &&& 0xFFFFFFFC ≠ 0 then none else some ⟨w 0, (w 4).getLsbD 0, (w 4).getLsbD 1, w 8, w 12⟩

/-- The order ZL < P < ZH < next ZL (DEDUCED, log entry 61). -/
def landingsOrdered : List Landing → Bool
  | [] => true
  | [l] => decide (l.zl.toInt < l.p.toInt) && decide (l.p.toInt < l.zh.toInt)
  | l :: n :: r =>
    decide (l.zl.toInt < l.p.toInt) && decide (l.p.toInt < l.zh.toInt) && decide (l.zh.toInt < n.zl.toInt)
      && landingsOrdered (n :: r)

/-- The landing table at a byte address with a count, absent where R255 answers RANGE. -/
def Mems.landingTable (m : Mems) (addr count : Nat) : Option LandingTable :=
  if addr % 8 ≠ 0 || count < 2 || 128 < count || 0x30000 < addr + 8 + 16 * count || m.ram.readLE (addr + 4) ≠ 0 then none
  else
    let rows := (List.range count).filterMap (m.landing addr)
    if rows.length = count && landingsOrdered rows then some ⟨m.ram.readLE addr, rows⟩ else none

/-- Strictly ascending minutes. -/
def minutesOrdered : List (BitVec 14 × BitVec 4) → Bool
  | [] => true
  | [_] => true
  | a :: b :: r => decide (a.1.toNat < b.1.toNat) && minutesOrdered (b :: r)

/-- The schedule table at a word address, absent where R270 answers RANGE. -/
def Mems.schedule (m : Mems) (w : Nat) : Option Schedule :=
  let h := m.ram.readLE (4 * w)
  let n := (slice h 0 6).toNat
  let off : BitVec 16 := slice h 16 16
  if 0x30000 < 4 * w + 4 || slice h 6 10 ≠ 0 || n = 0 || off.toInt < -1440 || 1440 < off.toInt
    || 0x30000 < 4 * w + 4 * (n + 1) then none
  else
    let words := (List.range n).map fun i => m.ram.readLE (4 * w + 4 + 4 * i)
    let es := words.map fun x => (slice x 0 14, slice x 14 4)
    if (words.all fun x => slice x 18 14 = 0 && (slice x 0 14 : BitVec 14).toNat ≤ 10079) && minutesOrdered es then
      some ⟨off, es⟩
    else none

/-- The entry of a schedule selected by a wall time (R270). -/
def Schedule.select (t : Schedule) (wall : BitVec 48) : Option (BitVec 14 × BitVec 4) :=
  let m : Int := (((wall.toNat / 60000 : Nat) : Int) + t.offset.toInt) % 10080
  match (t.entries.filter fun e => decide ((e.1.toNat : Int) ≤ m)).getLast? with
  | some e => some e
  | none => t.entries.getLast?

/-! ### Slip (R262) -/

/-- A slip check with error e: LAST, CHECKS, and fault SLIP outside the window (DEDUCED, log entry 57). -/
def Chip.slipCheck (c : Chip) (k : CarId) (e : Int) : Chip :=
  let x := c.cars[k.val]
  if x.service = .homing || x.service = .inspect || x.service = .in_ then
    let c1 := c.modCar k fun x => { x with slipLast := clampInt 20 e, slipChecks := x.slipChecks + 1 }
    match c.sps.get (.car 6 k) with
    | none => c1
    | some w => if w.toNat < e.natAbs then c1.carFault k 1 (c.stamp 0) else c1
  else c

/-- The door-zone edge position nearest to x (R262) (DEDUCED, log entry 57). -/
def Car.nearestEdge (c : Car) (x : Int) : Option Int :=
  (c.landings.flatMap fun l => [l.zl.toInt, l.zh.toInt]).foldl (fun b z => match b with
    | none => some z
    | some y => if (x - z).natAbs < (x - y).natAbs then some z else some y) none

/-! ### Run-time limiter (R264) -/

/-- A run begins: axis k takes a move or a HOME item from rest, or resumes. -/
def Chip.beginRun (c : Chip) (k : CarId) : Chip :=
  c.modCar k fun x => { x with run := ⟨true, 0⟩ }

/-- Axis k takes a move: no landing is present any longer (R257). -/
def Chip.leaveLanding (c : Chip) (k : CarId) : Chip := c.modCar k fun x => { x with present := none, arriving := none }

/-- RUNLIM_EXPIRY: CAR_RUNTIME has reached CAR_RUNLIM (R264). -/
def runRunlimExpiry (k : CarId) (s : State) : State :=
  s.clock fun c =>
    let x := c.cars[k.val]
    match c.sps.get (.car 7 k) with
    | none => c
    | some lim => if c.running && x.run.running && lim.toNat ≤ x.run.ticks.toNat then c.carFault k 7 (c.stamp 0) else c

/-! ### The drive port (R265 to R268) -/

/-- An enable is requested and presented to the matrix: not DRVEN or BRKEN in STOPPED_FAULT, not DOOREN with a door in FAULT or
during a gate driver test (R252, R291, R295). -/
def Chip.presented (c : Chip) (k : CarId) : BitVec 3 :=
  let x := c.cars[k.val]
  let drive : BitVec 3 := if x.service = .stoppedFault then 0 else 3
  let gate := c.dev.tests.any fun t => t.code = 0x11 && t.car = k
  let door : BitVec 3 := if c.anyDoorFault k || gate then 0 else 4
  x.ilk.req &&& (drive ||| door)

/-- CAR_ACCEL as cycle 0 forms it: the set-point acceleration of axis k (R256). -/
def Chip.carAccel (c : Chip) (k : CarId) : Word := clampInt 32 (c.setAccel (carAxis k))

/-- The command frame (Table 12-7): twelve bytes with their CRC. -/
def Chip.driveFrame (c : Chip) (k : CarId) (seq : Byte) : List Byte :=
  let x := c.cars[k.val]
  let test := x.ilk.test.isSome
  let speed : Word := if test then 0 else BitVec.ofInt 32 (c.loopOut (carLoop k))
  let levels : BitVec 2 := x.ilk.pad.extractLsb' 0 2
  let b3 : Byte := (0 : BitVec 5) ++ BitVec.ofBool ((c.presented k).getLsbD 0) ++ levels
  let ff : BitVec 16 := clampInt 16 (x.accel.toInt.tdiv 1000)
  let body := [0xD5, (1 : BitVec 4) ++ BitVec.ofNat 4 k.val, seq, b3] ++ bytesBE speed 4 ++ bytesBE ff 2
  body ++ bytesBE (crc16 body) 2

/-- The car's drive port runs: RUN, car logic island on, EN (R266). -/
def Chip.portRuns (c : Chip) (k : CarId) : Bool := c.running && (c.cars[k.val]).on && (c.cars[k.val]).dpcfg.en

/-- This tick launches a command frame (R266). -/
def Chip.frameDue (c : Chip) (k : CarId) : Bool := c.dev.tick.toNat % (c.loops[(carLoop k).val]).act.div.toNat = 0

/-- A reply that is missing or not good, at an admission cycle count (R268) (DEDUCED, log entry 58). -/
def Chip.badReply (c : Chip) (k : CarId) (err : BitVec 3) (stamp : Nat) : Chip :=
  c.modCar k fun x => { x with dpAwait := none, dpGood := false, miss := satInc x.miss, missAt := stamp, dpErr := err }

/-- DRIVE_COMMAND: a command frame is launched at cycle 1,280 of a tick in which the outer loop is due; a reply still outstanding
has missed its deadline (R266 to R268) (DEDUCED, log entry 58). -/
def runDriveCommand (k : CarId) (s : State) : State :=
  s.clock fun c =>
    if !c.may .output || !c.portRuns k || !c.frameDue k || (c.cars[k.val]).dpStart = some c.dev.tick then c
    else
      let c := c.enter .output
      let c1 := if (c.cars[k.val]).dpAwait.isSome then c.badReply k 1 (c.stamp 0) else c
      let seq := (c1.cars[k.val]).dpSeq
      let f := c1.driveFrame k seq
      c1.modCar k fun x => { x with dpSeq := seq + 1, dpAwait := some seq, dpStart := some c.dev.tick, command := f }

/-- The twelve bytes of a frame from the samples of its bit times: each bit by majority, each character with its start bit 0, its eight
bits least significant first and its stop bit 1; none where a start or stop bit is wrong (R265) (DEDUCED, log entry 58). -/
def frameBytes (samples : Vector (BitVec 3) 120) : Option (List Byte) :=
  let bits := samples.toList.map fun s => decide (2 ≤ (s.getLsbD 0).toNat + (s.getLsbD 1).toNat + (s.getLsbD 2).toNat)
  let char := fun i : Nat => (bits.drop (10 * i)).take 10
  let good := (List.range 12).all fun i => (char i).head? = some false && (char i).getLast? = some true
  if good then
    some ((List.range 12).map fun i =>
      (((char i).drop 1).take 8).zipIdx.foldl (fun b x => if x.1 then b ||| (1#8 <<< x.2) else b) 0)
  else none

/-- The reply begins between 1 and TURNMAX bit times after the command frame, and is complete before cycle 0 of the tick in which the
next frame is due (R265, R267): both frames take 120 bit times of 50 cycles, the first from cycle 1,280
(DEDUCED, log entry 58). -/
def Chip.replyInTime (c : Chip) (k : CarId) (r : DriveReply) : Bool :=
  let div := (c.loops[(carLoop k).val]).act.div.toNat
  decide (50 ≤ r.turn.toNat) && decide (r.turn.toNat ≤ 50 * (c.cars[k.val]).dpcfg.turnMax.toNat)
    && decide (1280 + 6000 + r.turn.toNat + 6000 ≤ div * c.lnk.ticklen.toNat)

/-- The admission cycle count at which a reply ends (R265 to R267) (DEDUCED, log entry 58). -/
def Chip.replyEnd (c : Chip) (k : CarId) (r : DriveReply) : Nat :=
  (((c.cars[k.val]).dpStart.getD c.dev.tick).toNat * c.lnk.ticklen.toNat) + 1280 + 6000 + r.turn.toNat + 6000

/-- What is wrong with a reply whose bytes have been read: 0 nothing, else the LASTERR code (R267, R268) (DEDUCED, log entry 58). -/
def replyError (k : CarId) (seq : Byte) (b : List Byte) : BitVec 3 :=
  if bytesBE (crc16 (b.take 10)) 2 ≠ b.drop 10 then 2
  else if b.take 2 ≠ [0xE9, BitVec.ofNat 8 (0x20 + k.val)] then 3
  else if (b.drop 2).take 1 ≠ [seq] then 4
  else 0

/-- DRIVE_REPLY: the reply to the command in flight is checked; a good one waits for its latch, and one with FAULT set stops the
car with DRIVE; one that comes at the wrong time or is no frame counts as missing (R265, R267, R268) (DEDUCED, log entry 58). -/
def runDriveReply (k : CarId) (r : DriveReply) (s : State) : State :=
  s.clock fun c =>
    match (c.cars[k.val]).dpAwait, frameBytes r.samples with
    | none, _ => c
    | some _, none => if c.portRuns k then c.badReply k 1 (c.replyEnd k r) else c
    | some seq, some b =>
      if !c.portRuns k then c
      else
        let c := c.note (.reply k b)
        let e := if c.replyInTime k r then replyError k seq b else 1
        if e ≠ 0 then c.badReply k e (c.replyEnd k r)
        else
          let st := b.getD 3 0
          let speed : Word := b.getD 4 0 ++ b.getD 5 0 ++ b.getD 6 0 ++ b.getD 7 0
          let c1 := c.modCar k fun x => { x with dpAwait := none, dpLatched := some (st, speed) }
          if st.getLsbD 3 then (c1.modCar k fun x => { x with dpErr := 5 }).carFault k 5 (c.replyEnd k r) else c1

/-- A good reply is latched: CAR_DPSTAT and the speed comparison (R267, R268) (DEDUCED, log entry 58). -/
def Car.latchReply (x : Car) : Car :=
  match x.dpLatched with
  | none => x
  | some (st, speed) =>
    let x := { x with dpLatched := none, dpStatus := st, dpGood := true, dpSeen := true, miss := 0, mspeed := clampInt 16 (speed.toInt.tdiv 1000) }
    if x.dpcfg.spdTol.toNat * 1000 < (speed.toInt - x.speed.toInt).natAbs then
      { x with spdRun := satInc x.spdRun, dpErr := 6 }
    else { x with spdRun := 0 }

/-- DRIVE_REPLY_MISSING: no complete reply before the tick in which the next frame is due (R267, R268)
(DEDUCED, log entry 58). -/
def runDriveReplyMissing (k : CarId) (s : State) : State :=
  s.clock fun c =>
    let x := c.cars[k.val]
    if c.portRuns k && x.dpAwait.isSome && x.dpStart ≠ some c.dev.tick && c.frameDue k then c.badReply k 1 (c.stamp 0) else c

/-- DRIVEPORT_FAULT: MISS exceeds MISSMAX (R268). -/
def runDriveportFault (k : CarId) (s : State) : State :=
  s.clock fun c =>
    let x := c.cars[k.val]
    if c.running && x.dpcfg.missMax.toNat < x.miss.toNat then c.carFault k 4 x.missAt else c

/-- DRIVESPEED_FAULT: SPDRUN reaches SPDCNT (R268). -/
def runDrivespeedFault (k : CarId) (s : State) : State :=
  s.clock fun c =>
    let x := c.cars[k.val]
    if c.running && x.dpcfg.spdCnt.toNat ≤ x.spdRun.toNat then c.carFault k 6 (c.stamp 0) else c

/-! ### Stop and interlock instructions (R187 to R189) -/

/-- The checks common to the stop instructions and DEOREQ for a named car: right, car bit, islands on. -/
def carChecks (x : Ctx) (c : Chip) (right : Nat) (acts : Bool) (k : CarId) : List (Bool × Status) :=
  [(c.lacks x.who right, .denied), (!(if acts then c.mayAct x.who k else c.maySee x.who k), .denied),
    (!(c.cars[k.val]).on, .state)]

/-- An instruction on a named car, or RANGE where it names none; `pre` are the refusals that need no car (R11). -/
def onCar (x : Ctx) (c : Chip) (right : Nat) (illegal : Bool) (pre : Checks) (f : CarId → Plan) : Plan :=
  match carOperand x.who x.f.imm with
  | none =>
    { illegal := illegal, checks := (c.lacks x.who right, .denied) :: (true, .range) :: pre, queue := none, act := fun c => reply .range c }
  | some k => { f k with illegal := illegal, checks := pre ++ (f k).checks }

/-- CALLSET and CALLCLR (R187, R257, Table 8-7) (DEDUCED, log entry 61). -/
def bodyCall (set : Bool) : Body := fun x _ c =>
  let w := regOf x.w x.f.d
  onCar x c 1 (x.f.a ≠ 0 || x.f.m ≠ 0) [(w.toNat < 128 && c.secure w.toNat && !c.whoSecured x.who, .denied)] fun k =>
    let car := c.cars[k.val]
    let kind := immBits x.f.imm 8 2
    let rear := x.f.imm.getLsbD 10
    let badLanding := match car.landing? w.toNat with
      | none => true
      | some l => set && (if rear then !l.rear else !l.front)
    let call : Call := ⟨w.setWidth 7, kind, rear⟩
    { illegal := false,
      checks := carChecks x c 1 true k ++
        [(x.f.imm &&& 0xF8B0 ≠ 0 || kind = 3 || badLanding, .range), (car.service ≠ .in_, .state)],
      queue := none,
      act := fun c =>
        if car.calls.contains call = set then reply .done c
        else
          let calls := if set then call :: car.calls else car.calls.erase call
          reply .done ((c.modCar k fun x => { x with calls := calls }).raiseSee k 12) }

/-- NEXTSTOP (R188) (DEDUCED, log entry 61). -/
def bodyNextstop : Body := fun x _ c =>
  onCar x c 1 (x.f.a ≠ 0 || x.f.m ≠ 0 || (if x.who.isHost then 2 else 13) < x.f.d.toNat)
    [(2 ≤ c.whoLevel x.who, .veiled)] fun k =>
    { illegal := false,
      checks := carChecks x c 1 false k ++ ([(x.f.imm &&& 0xFFB0 ≠ 0, .range)] : Checks),
      queue := none,
      act := fun c =>
        let r : Word × Word := match c.nextStop k with
          | none => (0xFFFFFFFF, 0xFFFFFFFF)
          | some j =>
            let i := c.shownLanding x.who k j
            (BitVec.ofNat 32 i, BitVec.ofInt 32 ((c.cars[k.val]).landingPos i))
        ⟨.done, [(x.f.d, r.1), (x.f.d + 1, r.2)], [], c⟩ }

/-- REACH (R188) (DEDUCED, log entry 61). -/
def bodyReach : Body := fun x _ c =>
  onCar x c 1 (x.f.a ≠ 0 || x.f.m ≠ 0 || (if x.who.isHost then 0 else 11) < x.f.d.toNat)
    [(3 ≤ c.whoLevel x.who, .veiled)] fun k =>
    { illegal := false,
      checks := carChecks x c 1 false k ++ ([(x.f.imm &&& 0xFFB0 ≠ 0, .range)] : Checks),
      queue := none,
      act := fun c =>
        let m := c.shownMask x.who (c.reachMask k)
        let shown : BitVec 128 := if 2 ≤ c.whoLevel x.who then BitVec.ofNat 128 (countBits m) else m
        ⟨.done, (List.range 4).map fun i => (x.f.d + BitVec.ofNat 4 i, shown.extractLsb' (32 * i) 32), [], c⟩ }

/-- DEOREQ (R189). -/
def bodyDeoreq : Body := fun x _ c =>
  onCar x c 2 (x.f.d ≠ 0 || x.f.a ≠ 0 || x.f.m ≠ 0) [] fun k =>
    { illegal := false,
      checks := carChecks x c 2 true k ++ ([(x.f.imm &&& 0xF8B0 ≠ 0, .range)] : Checks),
      queue := none,
      act := fun c => reply .done (c.modIlk k fun i => { i with req := immBits x.f.imm 8 3 }) }

/-- CALLSET (DEDUCED, log entry 61). -/
def runCallset (i : Issuer) (f : Enc) (s : State) : State := issue i 0x2C f 4 (bodyCall true) s
/-- CALLCLR (DEDUCED, log entry 61). -/
def runCallclr (i : Issuer) (f : Enc) (s : State) : State := issue i 0x2D f 4 (bodyCall false) s
/-- NEXTSTOP. -/
def runNextstop (i : Issuer) (f : Enc) (s : State) : State := issue i 0x2E f 8 bodyNextstop s
/-- REACH. -/
def runReach (i : Issuer) (f : Enc) (s : State) : State := issue i 0x2F f 12 bodyReach s
/-- DEOREQ. -/
def runDeoreq (i : Issuer) (f : Enc) (s : State) : State := issue i 0x30 f 3 bodyDeoreq s

/-- The meaning of CALLSET. -/
def execCallset (i : Issuer) (f : Enc) (s : State) : Out := .next (runCallset i f s)
/-- The meaning of CALLCLR. -/
def execCallclr (i : Issuer) (f : Enc) (s : State) : Out := .next (runCallclr i f s)
/-- The meaning of NEXTSTOP. -/
def execNextstop (i : Issuer) (f : Enc) (s : State) : Out := .next (runNextstop i f s)
/-- The meaning of REACH. -/
def execReach (i : Issuer) (f : Enc) (s : State) : Out := .next (runReach i f s)
/-- The meaning of DEOREQ. -/
def execDeoreq (i : Issuer) (f : Enc) (s : State) : Out := .next (runDeoreq i f s)
/-- The meaning of CAR_ARRIVAL. -/
def execCarArrival (k : CarId) (s : State) : Out := .next (runCarArrival k s)
/-- The meaning of RUNLIM_EXPIRY. -/
def execRunlimExpiry (k : CarId) (s : State) : Out := .next (runRunlimExpiry k s)
/-- The meaning of DRIVE_COMMAND. -/
def execDriveCommand (k : CarId) (s : State) : Out := .next (runDriveCommand k s)
/-- The meaning of DRIVE_REPLY. -/
def execDriveReply (k : CarId) (r : DriveReply) (s : State) : Out := .next (runDriveReply k r s)
/-- The meaning of DRIVE_REPLY_MISSING. -/
def execDriveReplyMissing (k : CarId) (s : State) : Out := .next (runDriveReplyMissing k s)
/-- The meaning of DRIVEPORT_FAULT. -/
def execDriveportFault (k : CarId) (s : State) : Out := .next (runDriveportFault k s)
/-- The meaning of DRIVESPEED_FAULT. -/
def execDrivespeedFault (k : CarId) (s : State) : Out := .next (runDrivespeedFault k s)

end Sys2Proof.Machine
end

