-- ==== Sys2Proof/Machine/Motion.lean ====
section
/-! DEFINITION. Motion instructions (R184 to R186, Table 8-6) and the Profile phase of an axis: the commands of the tick, taking
moves (R205, R260, R261, R286), homing (R215), the advance, reopenings and obstructions (R211, R288, R289), low enables (R286,
R308) and lock confirmation (R287). -/

namespace Sys2Proof.Machine

/-! ### Taps and locks (R287, R299 to R301) -/

/-- ILK_TAPMASK.USED of a tap, 0 while the mask is unset (DEDUCED, log entry 51). -/
def Chip.tapUsed (c : Chip) (s : TapId) : Bool := (BitVec.ofNat 32 (c.sps0 (.ilk 0 (carOfTap s)))).getLsbD (8 + s.val % 8)

/-- A used tap is on: its level is high and INV 0, or low and INV 1; a tap that is not decided reads 0 (R299, R300). -/
def Chip.tapOn (c : Chip) (s : TapId) : Bool :=
  let inv := (BitVec.ofNat 32 (c.sps0 (.ilk 0 (carOfTap s)))).getLsbD (s.val % 8)
  c.tapUsed s && (c.sps.get (.ilk 1 (carOfTap s))).isSome && (c.taps[s.val]).tracking && ((c.taps[s.val]).high != inv)

/-- The lock confirmation of a door as the Profile phase forms it (R287). -/
def Chip.lockConf (c : Chip) (d : DoorId) : Bool :=
  let x := c.doors[d.val]
  x.inUse && (x.st = .closed || x.st = .closedLocked) && decide (x.pos.toInt ≤ x.act.lockWin.toNat)
    && c.tapOn (carTap (carOfDoor d) x.act.lockTap.toFin)

/-- CONF and the changes between CLOSED and CLOSED_LOCKED at the end of the Profile phase (R285, R287, R289). -/
def Chip.formConf (c : Chip) (d : DoorId) : Chip :=
  let conf := c.lockConf d
  let st := (c.axes[(doorAxis d).val]).st
  let y := c.axes[(doorAxis d).val]
  let rest := st = .idle || st = .held || (st = .cam && y.v = 0 && y.a = 0)
  c.modDoor d fun x =>
    let x := { x with conf := conf }
    if x.st = .closed && conf then { x with st := .closedLocked, armed := false, revCycle := 0 }
    else if x.st = .closedLocked && !conf && rest then { x with st := .closed }
    else x

/-! ### Speed caps of closing doors (R284) -/

/-- The largest closing speed for the kinetic-energy cap, in µm/s. -/
def Chip.keSpeed (c : Chip) (d : DoorId) : Nat :=
  Nat.sqrt (20000000000 * c.sps0 (.door 2 d) / (c.doors[d.val]).act.mass.toNat)

/-- The smaller of a cap, where one is given, and a bound (DEDUCED, log entry 51). -/
def capped (cap : Option Nat) (n : Nat) : Option Nat :=
  match cap with
  | none => some n
  | some v => some (min v n)

/-- The cap of a move of door d toward E: v_KE for a closing one, and the nudging speed while NUDGING (R284). -/
def Chip.doorCap (c : Chip) (d : DoorId) (closing : Bool) (cap : Option Nat) : Option Nat :=
  if !closing then cap
  else
    let k := capped cap (c.keSpeed d)
    if (c.doors[d.val]).st = .nudging then capped k ((c.doors[d.val]).act.nudgeSpeed.toNat * 1000) else k

/-! ### Measured position (R223, R263) -/

/-- The measured position of a feedback interface in µm (R223). -/
def Fbk.measured (f : Fbk) : Int :=
  let n : Int := match f.act.mode with
    | .quad => f.latched.toInt
    | .ssi => f.pos.toNat
    | .off | .switch => 0
  roundAway (f.ofs.toInt + n * f.act.scale.toInt) (2 ^ 24)

/-- The measured position for a given count (R215, R223). -/
def Fbk.measuredAt (f : Fbk) (count : Int) : Int := roundAway (f.ofs.toInt + count * f.act.scale.toInt) (2 ^ 24)

/-- The hoistway position of car k in SSI mode (R263). -/
def Chip.hoistPos (c : Chip) (k : CarId) : Int :=
  (c.fbks[(hoistway k).val]).measured + (((c.cars[k.val]).table.map fun t => t.ssiOfs.toInt).getD 0)

/-- The car's position and generator-independent offset move by a shift in µm (R215, R223). -/
def Chip.shiftCar (c : Chip) (k : CarId) (shift : Int) : Chip :=
  let c1 := c.modFbk (machine k) fun f => { f with ofs := f.ofs + BitVec.ofInt 64 (shift * 2 ^ 24) }
  c1.modCar k fun x => { x with pos := BitVec.ofInt 32 (c1.fbks[(machine k).val]).measured }

/-! ### Re-seating (R253, R286, R291, R308) -/

/-- The generator at rest at a position: v and a are 0, p and E the position. -/
def Axis.reseat (x : Axis) (p : Word) : Axis := { x with p := genPos p, e := genPos p, v := 0, a := 0 }

/-- A running move ends by a re-seating: REMAIN 0, MOVEDONE, IDLE; a homing sequence ends without HOMED (R286, R308). -/
def Chip.reseatMove (c : Chip) (a : AxisId) (p : Word) : Chip :=
  let was := (c.axes[a.val]).st
  let running := was = .moving || was = .stopping || was = .homing || was = .cam
  let c1 := c.modAxis a fun x => x.reseat p
  if !running then c1
  else
    let c2 := c1.modAxis a fun x =>
      { x with st := .idle, remain := 0, stopAt := none, target := p, cap := none, engaged := none,
               lastTable := (match x.engaged with | some (t, _) => t | none => x.lastTable),
               lastMaster := (match x.engaged with | some (_, m) => BitVec.ofNat 6 m.val | none => x.lastMaster) }
    let c3 := if was = .homing then c2.endHoming a false else c2
    c3.raise (threadOfAxis a) 2

/-! ### The start of an advance (R185, R203) -/

/-- A RESUME from HELD waits while a car is held (R260, R308) (DEDUCED, log entry 53). -/
def Chip.startHeld (c : Chip) (k : CarId) (relevel : Bool) : Bool :=
  let x := c.cars[k.val]
  c.driveLow k || x.overload || x.notReady
    || (!relevel && [frontDoor k, rearDoor k].any fun d => (c.doors[d.val]).inUse && (c.doors[d.val]).st ≠ .closedLocked)

/-- Apply one axis command; a RESUME that is held comes back as still pending (R206 to R212). An engagement sets p alone, to c of the
master's present p (R214) (DEDUCED, log entry 53; DESIGN CHOICE, log entry 102). -/
def Chip.applyCmd (c : Chip) (m : Mems) (a : AxisId) (l : Limits) (cmd : AxisCmd) : Chip × List AxisCmd :=
  let x := c.axes[a.val]
  match cmd with
  | .stop => (c.applyStop a l, [])
  | .stopat j p => (c.modAxis a fun x => x.after l (.stopat j p), [])
  | .resume =>
    let held := x.st = .held && x.remain ≠ 0
    if held && a.val < 12 && c.startHeld (carOfAxis a) false then (c, [.resume])
    else
      let c1 := c.modAxis a fun x => x.after l .resume
      (if held && a.val < 12 then c1.beginRun (carOfAxis a) else c1, [])
  | .engage t master =>
    if x.st = .idle then
      let at_ := (c.axes[master.val]).p.toInt
      let out := m.camOutput t at_
      (c.reading 2 (m.camReads t at_) 1280 fun c => c.modAxis a fun x =>
        { x with
          st := .cam, engaged := some (t, master), p := gen out.1, e := gen out.1, v := 0, a := 0, taken := true }, [])
    else (c, [])
  | .release => (c.modAxis a fun x => x.release l, [])
  | .reopen target => ((c.dropQueue a).modAxis a fun x => { x.after l (.reopen target) with homing := none }, [])
  | .purge =>
    let c1 := (c.dropQueue a).modAxis a fun x => { x.release l with remain := 0, stopAt := none }
    match doorOfAxis a with
    | none => (c1, [])
    | some d =>
      let c2 := c1.modAxis a fun x =>
        { x.reseat (c1.doors[d.val]).pos with st := .idle, target := (c1.doors[d.val]).pos, cap := none, homing := none }
      (if x.st = .homing then c2.modAxis a fun x => { x with homed := false } else c2, [])

/-- A STOPAT, which acts only on an axis that moves (R207). -/
def AxisCmd.follows : AxisCmd → Bool
  | .stopat _ _ => true
  | .stop | .resume | .engage _ _ | .release | .reopen _ | .purge => false

/-- The axis advances in this device: RUN, its island on (R81, R198). -/
def Chip.axisRuns (c : Chip) (a : AxisId) : Bool :=
  c.running && (c.cars[(carOfAxis a).val]).on && (c.axes[a.val]).st ≠ .off

/-- The start of an advance: the working limits, and the commands received since the last one in execution order; a STOPAT behind a RESUME
that is held waits with it (R185, R203, R207, R209) (DEDUCED, log entry 53). -/
def Chip.beginAdvance (c : Chip) (m : Mems) (a : AxisId) : Chip :=
  let l := c.limitsOf a
  let cmds := (c.axes[a.val]).cmds
  let c1 := c.modAxis a fun x => { x with working := l, cmds := [] }
  let r := cmds.foldl (fun (r : Chip × List AxisCmd) cmd =>
    if cmd.follows && r.2.contains .resume then (r.1, r.2 ++ [cmd])
    else
      let y := r.1.applyCmd m a l cmd
      (y.1, r.2 ++ y.2)) (c1, [])
  r.1.modAxis a fun x => { x with cmds := r.2 }

/-! ### Taking moves (R205, R260, R261, R286) -/

/-- Door d takes no move: DOOREN low, no valid temperature yet, FAULT (R286). -/
def Chip.doorHeld (c : Chip) (d : DoorId) : Bool :=
  c.doorLow (carOfDoor d) || !(c.doors[d.val]).tempSeen || (c.doors[d.val]).st = .fault

/-- A MOVE to the present landing while RELEV is 1 (R261). -/
def Car.isRelevel (x : Car) (mv : Move) : Bool :=
  x.relev && mv.kind = .move && ((x.landing? x.landing.toNat).map fun l => l.p) = some mv.target

/-- The head of the queue waits: a move for R260 and R308, a HOME item for the enables alone (R260, R286, R308)
(DEDUCED, log entry 53). -/
def Chip.takeHeld (c : Chip) (a : AxisId) (mv : Move) : Bool :=
  let k := carOfAxis a
  match doorOfAxis a, mv.kind with
  | some d, _ => c.doorHeld d
  | none, .home _ => c.driveLow k
  | none, .move | none, .moveq => c.startHeld k ((c.cars[k.val]).isRelevel mv)

/-- The head of the queue leaves it: its place and its credit are freed (R159, R205). -/
def Chip.popMove (c : Chip) (a : AxisId) (mv : Move) : Chip :=
  let c1 := ((c.modAxis a fun x => { x with queue := x.queue.drop 1 }).release mv.credit).placeFreed (.moves a)
  if (c1.axes[a.val]).queue.isEmpty then c1.raise (threadOfAxis a) 3 else c1

/-- Start a move: PRF_TARGET and E, REMAIN 0, Vc, LIMITED clear, MOVING (R205). -/
def Chip.startMove (c : Chip) (a : AxisId) (target : Word) (cap : Option Word) : Chip :=
  let own := cap.map BitVec.toNat
  let c1 := c.modAxis a fun x =>
    { x with st := .moving, target := target, e := genPos target, remain := 0, stopAt := none, limited := false, cap := own, taken := true }
  match doorOfAxis a with
  | none => c1
  | some d =>
    let c2 := c1.classifyMove d
    let x := c2.axes[a.val]
    c2.modAxis a fun y => { y with cap := c2.doorCap d (decide (x.e.toInt < x.p.toInt)) own }

/-- HOMEFAIL: the flag, HOMED 0, IDLE, and the car or door fault (R215). -/
def Chip.homeFailed (c : Chip) (a : AxisId) : Chip :=
  let c1 := (c.modAxis a fun x => { x with homeFail := true, st := .idle }).endHoming a false
  match doorOfAxis a with
  | none => c1.carFault (carOfAxis a) 10 (c.stamp 1280)
  | some d => c1.doorFault d 6 (c.stamp 1280)

/-- A homing sequence completes: HOMED, MOVEDONE, IDLE (Table 9-4). -/
def Chip.homeDone (c : Chip) (a : AxisId) : Chip :=
  let c1 := ((c.modAxis a fun x => { x with st := .idle, cap := none }).endHoming a true).raise (threadOfAxis a) 2
  match doorOfAxis a with
  | none => c1
  | some d => (c1.modDoor d fun x => { x with angMax := 0, zCount := none }).classifyRest d

/-- Take a HOME item: step 1 of Table 9-4. -/
def Chip.startHome (c : Chip) (a : AxisId) (h : Homing) : Chip :=
  let k := carOfAxis a
  let c1 := c.modAxis a fun x => { x with homed := false, st := .homing, remain := 0, stopAt := none, limited := false, cap := none }
  let c2 := match doorOfAxis a with
    | some d => c1.modDoor d fun x => x.enter .homing
    | none =>
      let c2 := if (c1.cars[k.val]).service = Service.out then c1.setService k Service.homing else c1
      c2.beginRun k
  if h.kind = 1 then
    if (c2.fbks[(hoistway k).val]).everValid then
      let hp := BitVec.ofInt 32 (c2.hoistPos k)
      let c3 := (c2.modAxis a fun x => { x.reseat hp with target := hp }).modFbk (machine k) fun f =>
        { f with ofs := BitVec.ofInt 64 (hp.toInt * 2 ^ 24 - f.latched.toInt * f.act.scale.toInt) }
      (c3.modCar k fun x => { x with pos := hp }).homeDone a
    else c2.homeFailed a
  else
    c2.modAxis a fun x =>
      let far := x.p.toInt + (if h.dir then -1 else 1) * (h.limit.toNat * 4096) * unit
      { x with homing := some (h, .search), e := gen far, target := umOf (gen far) }

/-- Take the moves of a queue in order until one starts: one outside the travel range is discarded with MOVEDONE (R205)
(DESIGN CHOICE, log entry 52). -/
def Chip.takeMoves (c : Chip) (a : AxisId) : List Move → Chip
  | [] => c
  | mv :: rest =>
    if c.takeHeld a mv then c
    else
      let relevel := a.val < 12 && (c.cars[(carOfAxis a).val]).isRelevel mv
      let c1 := c.popMove a mv
      match mv.kind with
      | .home h => c1.startHome a h
      | .move | .moveq =>
        if !c1.inRange a mv.target then
          Chip.takeMoves ((c1.modAxis a fun x => { x with discard := true }).raise (threadOfAxis a) 2) a rest
        else
          let cap : Option Word :=
            if relevel then
              let v := BitVec.ofNat 32 ((slice (BitVec.ofNat 32 (c.sps0 (.car 5 (carOfAxis a)))) 20 12).toNat * 1000)
              match mv.cap with
              | none => some v
              | some w => some (if v.toNat < w.toNat then v else w)
            else mv.cap
          let c2 := c1.startMove a mv.target cap
          if a.val < 12 then (c2.beginRun (carOfAxis a)).leaveLanding (carOfAxis a) else c2

/-! ### Reopening and obstruction (R211, R288, R289, R292) -/

/-- Where a reopening asked of door d acts: on the master of its cam with REOPENMASTER 1 (R292). -/
def Chip.reopenDoor (c : Chip) (d : DoorId) : DoorId :=
  match (c.axes[(doorAxis d).val]).engaged with
  | some (_, m) => if (c.doors[d.val]).act.reopenMaster then (doorOfAxis m).getD d else d
  | none => d

/-- A reopening starts: counted, perhaps arming nudging; REVERSING, and E at DOOR_WIDTH in the next advance (R211, R288,
R289). -/
def Chip.startReopen (c : Chip) (d : DoorId) : Chip :=
  let t := c.reopenDoor d
  let c1 := c.modDoor t fun x =>
    let x := x.enter .reversing
    let n := satInc x.revCycle
    { x with
      revCycle := n, revTotal := satInc x.revTotal,
      armed := x.armed || (x.act.nudgeAfter ≠ 0 && decide (x.act.nudgeAfter.toNat ≤ n.toNat)) }
  c1.axisCmd (doorAxis t) (.reopen ((c1.doors[t.val]).act.width.setWidth 32))

/-- The condition of R288 that holds, 0 for none (DEDUCED, log entry 63). -/
def Chip.obstruction (c : Chip) (d : DoorId) : BitVec 2 :=
  let x := c.doors[d.val]
  if x.pos.toInt ≤ x.act.lockWin.toNat then 0
  else if x.act.obstTicks.toNat ≤ x.obstRun.toNat then 1
  else if x.act.obstPerr.toNat * 1000 < ((c.setPos (doorAxis d)).toInt - x.pos.toInt).natAbs then 2
  else if x.atCap then 3
  else 0

/-- The obstruction test of a door (R288) (DEDUCED, log entry 63). -/
def Chip.obstructionTest (c : Chip) (d : DoorId) : Chip :=
  let x := c.doors[d.val]
  let n := c.obstruction d
  if n = 0 then c
  else
    let count := fun c : Chip => c.modDoor d fun x => { x with obstCount := satInc x.obstCount, obstLast := n }
    if x.st = .closing || x.st = .nudging then
      let c1 := ((count c).startReopen d).raise (doorThread d) 8
      c1.modDoor d fun x => { x with limit := x.act.base }
    else if x.st = .opening then (count c).axisCmd (doorAxis d) .stop
    else c

/-- The start of the Profile phase: every door that advances is tested for an obstruction before any axis does (R18, R288). -/
def Chip.startProfile (c : Chip) : Chip :=
  if c.stage.place < 100 then
    foldFin 24 (fun d c => if c.axisRuns (doorAxis d) then c.obstructionTest d else c) c
  else c

/-! ### The advance -/

/-- A running move comes to rest at its end point (R202, R215, R257, R285, R294). -/
def Chip.moveEnd (c : Chip) (a : AxisId) : Chip :=
  let x := c.axes[a.val]
  let c0 := c.raise (threadOfAxis a) 2
  match x.st, x.homing with
  | .homing, some (_, .search) => c0.homeFailed a
  | .homing, some (h, .braking) =>
    c0.modAxis a fun x => { x with homing := some (h, .toQ), e := genPos h.q, target := h.q }
  | .homing, some (_, .toQ) => c.homeDone a
  | .homing, _ => c0
  | _, _ =>
    let c1 := c0.modAxis a fun x => 
      if x.remain ≠ 0 then { x with st := .held } else { x with st := .idle, stopAt := none }
    match doorOfAxis a with
    | none =>
      let k := carOfAxis a
      match (c1.cars[k.val]).landings.findIdx? fun l => genPos l.p = x.e with
      | none => c1
      | some j => c1.modCar k fun y => { y with arriving := some (BitVec.ofNat 7 j) }
    | some d =>
      let y := c1.doors[d.val]
      match y.st, y.learn with
      | .learning, some ln =>
        if ln.returning then
          let c2 := c1.modDoor d fun y =>
            let y := { y with learn := none }
            match ln.candidate, y.learnResult.toNat with
            | some w, 2 =>
              { y with
                cfg := { y.cfg with width := w.setWidth 22, learned := true },
                act := { y.act with width := w.setWidth 22, learned := true } }
            | _, _ => y
          c2.classifyRest d
        else
          let c2 := c1.modDoor d fun y =>
            { y with learn := some { ln with returning := true }, learnResult := if y.learnResult = 1 then 4 else y.learnResult }
          c2.modAxis a fun x =>
            { x with st := .moving, e := 0, target := 0, remain := 0, stopAt := none,
                     cap := c2.doorCap d true (some (y.act.learnSpeed.toNat * 1000)) }
      | _, _ => c1.classifyRest d

/-- The speed bound Vc of the running move (R201, R215). -/
def Chip.speedBound (c : Chip) (a : AxisId) : Int :=
  let x := c.axes[a.val]
  let cap : Option Nat := match x.st, x.homing with
    | .homing, some (h, _) => some (h.speed.toNat * 1000)
    | _, _ => x.cap
  match cap with
  | none => x.working.vt
  | some v => min (x.working.vt : Int) (c.speedUnits v)

/-- A MOVEQ at the head is taken at a seam (R210): its new end point, and the door's new classification and cap
(DESIGN CHOICE, log entry 52). -/
def Chip.seamTake (c : Chip) (a : AxisId) : Chip :=
  let x := c.axes[a.val]
  match x.queue with
  | [] => c
  | mv :: _ =>
    if x.seam && mv.kind = .moveq && x.st = .moving && !x.taken
      && decide ((x.e.toInt - x.p.toInt).natAbs ≤ (x.seamTol.toNat : Int) * unit) then
      if !c.inRange a mv.target then
        ((c.popMove a mv).modAxis a fun x => { x with discard := true }).raise (threadOfAxis a) 2
      else (c.popMove a mv).startMove a mv.target mv.cap
    else c

/-- A door state that follows the generator's own motion: an engaged slave, and REVERSING that turns to OPENING (Table 13-2,
R292). -/
def Chip.followMotion (c : Chip) (d : DoorId) : Chip :=
  let x := c.axes[(doorAxis d).val]
  let y := c.doors[d.val]
  if y.st = .reversing then (if 0 < x.v.toInt then c.modDoor d fun y => y.enter .opening else c)
  else if x.st = .cam && y.st ≠ .fault && y.st ≠ .learning then
    if 0 < x.v.toInt then c.modDoor d fun y => { y with st := .opening }
    else if x.v.toInt < 0 then c.modDoor d fun y => { y with st := if y.armed then .nudging else .closing }
    else c.classifyRest d
  else c

/-- The motion of an advance: a cam step in the advances after the engaging one, or a step toward E (R201, R214). -/
def Chip.stepMotion (c : Chip) (m : Mems) (a : AxisId) : Chip :=
  let x := c.axes[a.val]
  match x.st, x.engaged with
  | .cam, some (t, master) =>
    let w := c.axes[master.val]
    if x.taken then c
    else if w.st = .off then c.modAxis a fun x => x.release x.working
    else c.reading 2 (m.camReads t w.pPrev.toInt) 1280 fun c => c.modAxis a fun x => x.camStep x.working (m.camOutput t w.pPrev.toInt)
  | .moving, _ | .stopping, _ | .homing, _ =>
    let r := x.advance x.working (c.speedBound a)
    let c1 := c.modAxis a fun _ => r.1
    if r.2 then c1.moveEnd a else c1
  | _, _ => c

/-- The Profile phase of a car axis (R201, R258, R259, R308). -/
def Chip.carAdvance (c : Chip) (m : Mems) (a : AxisId) : Chip :=
  let k := carOfAxis a
  let c1 := c.beginAdvance m a
  let c2 := if c1.driveLow k then c1.reseatMove a (c1.cars[k.val]).pos else c1.stepMotion m a
  c2.afterProfile k

/-- The Profile phase of a door axis (R201, R210, R211, R284 to R288). -/
def Chip.doorAdvance (c : Chip) (m : Mems) (a : AxisId) (d : DoorId) : Chip :=
  let c0 := c.beginAdvance m a
  let st := (c0.axes[a.val]).st
  let moving := st = .moving || st = .stopping || st = .homing || st = .cam
  let c1 :=
    if moving && c0.doorLow (carOfDoor d) then
      let c1 := (c0.reseatMove a (c0.doors[d.val]).pos).modDoor d fun x =>
        { x with learn := none, learnResult := if x.learn.isSome then 5 else x.learnResult }
      c1.classifyRest d
    else
      let c1 := c0.seamTake a
      let c2 := if (c1.doors[d.val]).st = .nudging then
          c1.modAxis a fun x => { x with cap := capped x.cap ((c1.doors[d.val]).act.nudgeSpeed.toNat * 1000) }
        else c1
      (c2.stepMotion m a).followMotion d
  c1.formConf d

/-- PROFILE_ADVANCE: the axis applies its pending commands and advances by one tick (R185, R201)
(DESIGN CHOICE, log entry 52). -/
def runProfileAdvance (a : AxisId) (s : State) : State :=
  s.clock fun c =>
    if !c.may (.profile a.val) || !c.axisRuns a then c
    else
      let c := c.startProfile.enter (.profile (a.val + 1))
      match doorOfAxis a with
      | none => c.carAdvance s.mem a
      | some d => c.doorAdvance s.mem a d

/-- MOVE_TAKE: the start of an advance, in which an axis that is IDLE takes the head of its queue where nothing holds it (R205,
R209, R260, R286, R308) (DESIGN CHOICE, log entry 52). -/
def runMoveTake (a : AxisId) (s : State) : State :=
  s.clock fun c =>
    if !c.may (.profile a.val) || !c.axisRuns a then c
    else
      let c1 := (c.startProfile.enter (.profile a.val)).beginAdvance s.mem a
      if (c1.axes[a.val]).st = .idle then c1.takeMoves a (c1.axes[a.val]).queue else c1

/-- HOME_REFERENCE: at the advance after the homing event, p, E and the measured position shift by REF - q, and the axis brakes to
rest; a slave of the same Profile phase still follows p as the phase before left it (R214, R215) (DESIGN CHOICE, log entry 52). -/
def runHomeReference (a : AxisId) (s : State) : State :=
  s.clock fun c =>
    if !c.may (.profile a.val) || !c.axisRuns a then c
    else
      let c1 := (c.startProfile.enter (.profile a.val)).beginAdvance s.mem a
      match (c1.axes[a.val]).homing with
      | some (h, .event q) =>
        let shift := h.ref.toInt - q.toInt
        let g := gen (shift * unit)
        let c2 := c1.modAxis a fun x =>
          let x := { x with p := x.p + g, e := x.e + g }
          let e := gen (x.restPoint x.working)
          { x with e := e, target := umOf e, homing := some (h, .braking) }
        match doorOfAxis a with
        | none => c2.shiftCar (carOfAxis a) shift
        | some d => c2.modDoor d fun x =>
          { x with ofs := x.ofs + BitVec.ofInt 64 shift, pos := x.pos + BitVec.ofInt 32 shift }
      | _ => c1

/-! ### Motion instructions (Table 8-6) -/

/-- The unit of an axis is in a fault state (R186). -/
def Chip.axisFault (c : Chip) (a : AxisId) : Bool :=
  match doorOfAxis a with
  | none => (c.cars[(carOfAxis a).val]).service = .stoppedFault
  | some d => (c.doors[d.val]).inUse && (c.doors[d.val]).st = .fault

/-- The door of a door axis is not in use (R272). -/
def Chip.doorUnused (c : Chip) (a : AxisId) : Bool :=
  match doorOfAxis a with
  | none => false
  | some d => !(c.doors[d.val]).inUse

/-- A door lacks a setting that its motion needs (R282). -/
def Chip.doorUnready (c : Chip) (a : AxisId) : Bool :=
  match doorOfAxis a with
  | none => false
  | some d =>
    let x := (c.doors[d.val]).act
    x.umrev = 0 || x.iscale = 0 || x.width = 0 || x.mass = 0 || x.kt = 0 || ((x.type = .pmsm || x.type = .stepper) && x.poles = 0)
      || ((x.type = .stepper || x.type = .bdc) && x.cpr = 0)

/-- The checks common to the motion instructions on a named axis (R184, R272). -/
def axisChecks (x : Ctx) (c : Chip) (a : AxisId) : Checks :=
  [(c.lacks x.who 0, .denied), (!c.mayAct x.who (carOfAxis a), .denied), (!(c.cars[(carOfAxis a).val]).on, .state),
    (c.doorUnused a, .state)]

/-- An instruction on a named axis, or RANGE where it names none or sets a reserved immediate bit; `pre` are the refusals that need no
axis (R11). -/
def onAxis (x : Ctx) (c : Chip) (illegal : Bool) (reserved : BitVec 16) (f : AxisId → Plan) (pre : Checks := []) : Plan :=
  match axisOperand x.who x.f.imm with
  | none =>
    { illegal := illegal, checks := pre ++ [(c.lacks x.who 0, .denied), (true, .range)], queue := none, act := fun c => reply .range c }
  | some a =>
    let p := f a
    { p with illegal := illegal, checks := pre ++ (decide (x.f.imm &&& reserved ≠ 0), .range) :: (axisChecks x c a ++ p.checks) }

/-- What an instruction on a unit in a fault state is still checked for (R186). -/
def faultChecks (checks : Checks) : Checks :=
  (checks.filter fun p => decide (p.2.rank ≤ Status.range.rank)) ++ [(true, .fault)]

/-- A plan on an axis whose unit may be in a fault state (R186). -/
def orFault (c : Chip) (a : AxisId) (x : Ctx) (p : Plan) : Plan :=
  if c.axisFault a then { p with checks := faultChecks (axisChecks x c a ++ p.checks) } else p

/-- The service states of a car in which an instruction is accepted (Table 12-4); door axes have no such table. -/
def Chip.serviceIn (c : Chip) (a : AxisId) (l : List Service) : Bool :=
  12 ≤ a.val || l.contains (c.cars[(carOfAxis a).val]).service

/-- The states of a door that MOVE and MOVEQ are turned away in (R286). -/
def Chip.doorBusy (c : Chip) (a : AxisId) : Bool :=
  match doorOfAxis a with
  | none => false
  | some d => (c.doors[d.val]).st = .homing || (c.doors[d.val]).st = .learning

/-- Put a move into the queue, with a packet credit for the host (R159, R161). -/
def Chip.enqueueMove (c : Chip) (who : Who) (a : AxisId) (kind : MoveKind) (target : Word) (cap : Option Word) : Chip :=
  let credit := if who.isHost then some c.nextCredit else none
  let c1 := if who.isHost then c.takeCredit who.sid who.seat else c
  c1.modAxis a fun x => { x with queue := x.queue ++ [⟨kind, target, cap, credit⟩] }

/-- The queue or the packet credits are exhausted (R159, R161). -/
def Chip.movesFull (c : Chip) (who : Who) (a : AxisId) : Bool := 8 ≤ (c.axes[a.val]).queue.length || c.noCredit who

/-- MOVE and MOVEQ (R186, R203, R205, R251, R282, R286). -/
def bodyMove (seam : Bool) : Body := fun x _ c =>
  onAxis x c (1 < x.f.m.toNat || (x.f.m = 0 && x.f.a ≠ 0)) 0xFF80 fun a =>
    let target := regOf x.w x.f.d
    let capW := regOf x.w x.f.a
    let cap : Option Word := if x.f.m = 1 && capW ≠ 0 then some capW else none
    orFault c a x
      { illegal := false,
        checks :=
          [(!c.inRange a target || (x.f.m = 1 && capW.toInt < 0), .range),
            (!c.serviceIn a [.inspect, .in_] || (seam && (a.val < 12 || !(c.axes[a.val]).seam)), .state),
            (c.noRange a || !(c.axes[a.val]).homed || c.limitsZero a || c.doorUnready a || c.doorBusy a, .state),
            (c.movesFull x.who a, .full)],
        queue := some (.moves a),
        act := fun c => reply .queued (c.enqueueMove x.who a (if seam then .moveq else .move) target cap) }

/-- An axis command: STOP, STOPAT, RESUME, CAMSET. -/
def sendCmd (a : AxisId) (m : AxisCmd) : Chip → Reply := fun c => reply .done (c.axisCmd a m)

/-- STOP (R206). -/
def bodyStop : Body := fun x _ c =>
  onAxis x c (x.f.d ≠ 0 || x.f.a ≠ 0 || x.f.m ≠ 0) 0xFF80 fun a =>
    { illegal := false, checks := [], queue := none, act := sendCmd a .stop }

/-- STOPAT (R186, R207, R209, R258) (DEDUCED, log entry 53). -/
def bodyStopat : Body := fun x _ c =>
  let w := regOf x.w x.f.d
  onAxis x c (x.f.a ≠ 0 || x.f.m ≠ 0) 0xFF80 (fun a =>
    let k := carOfAxis a
    let now := (c.axes[a.val]).projected
    match (if a.val < 12 then (c.cars[k.val]).landing? w.toNat else none) with
    | none => { illegal := false, checks := [(true, .range)], queue := none, act := fun c => reply .range c }
    | some l =>
      let s := now.dir
      orFault c a x
        { illegal := false,
          checks :=
            [(!c.serviceIn a [.in_] || now.st ≠ .moving, .state),
              (!(c.reachMask k).getLsbD w.toNat || decide (s * (now.target.toInt - l.p.toInt) < 0), .unreach)],
          queue := none, act := sendCmd a (.stopat (w.setWidth 7) l.p) })
    [(decide (w.toNat < 128) && c.secure w.toNat && !c.whoSecured x.who, .denied)]

/-- RESUME (R186, R208, R209). -/
def bodyResume : Body := fun x _ c =>
  onAxis x c (x.f.d ≠ 0 || x.f.a ≠ 0 || x.f.m ≠ 0) 0xFF80 fun a =>
    let now := (c.axes[a.val]).projected
    orFault c a x
      { illegal := false,
        checks := [(12 ≤ a.val || !c.serviceIn a [.in_] || now.remain = 0 || (now.st ≠ .held && now.st ≠ .moving), .state)],
        queue := none, act := sendCmd a .resume }

/-- FLUSH (R209). -/
def bodyFlush : Body := fun x _ c =>
  onAxis x c (x.f.a ≠ 0 || x.f.m ≠ 0) 0xFF80 fun a =>
    { illegal := false, checks := [], queue := none,
      act := fun c => ⟨.done, [(x.f.d, BitVec.ofNat 32 (c.axes[a.val]).queue.length)], [], c.dropQueue a⟩ }

/-- LIMIT (R203, R204). -/
def bodyLimit : Body := fun x _ c =>
  onAxis x c (x.f.a ≠ 0 || x.f.m ≠ 0) 0xFC80 fun a =>
    let lim := immBits x.f.imm 8 2
    let v := regOf x.w x.f.d
    { illegal := false, checks := [(v = 0 || c.axisBound a lim < v.toNat, .range)], queue := none,
      act := fun c => reply .done (c.modAxis a fun y => y.setLimit lim v) }

/-- CAMSET engaging a cam (R214, R251, R292). -/
def bodyEngage : Body := fun x m c =>
  onAxis x c (x.f.a ≠ 0 || x.f.m ≠ 0) 0xE080 fun a =>
    let w := regOf x.w x.f.d
    let t := immBits x.f.imm 8 4
    let now := (c.axes[a.val]).projected
    match (if slice w 6 26 = 0 then fin? 36 (slice w 0 6).toNat else none) with
    | none => { illegal := false, checks := [(true, .range)], queue := none, act := fun c => reply .range c }
    | some master =>
      let y := c.axes[master.val]
      let other := match doorOfAxis a with
        | none => true
        | some d => decide (master = doorAxis (otherDoor d))
      let plan : Plan :=
        { illegal := false,
          checks :=
            [(master = a || y.projected.engaged.isSome || !other, .range),
              (a.val < 12 || now.st ≠ .idle || !now.queue.isEmpty, .state),
              ((y.st ≠ .idle && y.st ≠ .held) || y.v ≠ 0 || y.a ≠ 0, .state)],
          queue := none, act := sendCmd a (.engage t master) }
      plan.reads c x.who 4 2 (m.camReads t y.p.toInt)
        [(!m.camShiftOk t, .range), (decide (unit ≤ ((now.p.toInt - (m.camOutput t y.p.toInt).1).natAbs : Int)), .state)]

/-- CAMSET releasing a cam (R214, R251). -/
def bodyRelease : Body := fun x _ c =>
  onAxis x c (x.f.a ≠ 0 || x.f.m ≠ 0) 0xE080 fun a =>
    { illegal := false, checks := [(a.val < 12, .state)], queue := none, act := sendCmd a .release }

/-- The homing that HOME would capture (R215, R263, R293) (DEDUCED, log entry 54). -/
def Chip.homingOf (c : Chip) (a : AxisId) : Homing :=
  let w := (c.axes[a.val]).homeCfg
  let event : BitVec 2 := slice w 27 2
  let points : Word × Word := match doorOfAxis a with
    | some d =>
      let x := (c.doors[d.val]).act
      (x.homeRef.signExtend 32, if x.qOpen then x.width.setWidth 32 else 0)
    | none =>
      let k := c.cars[(carOfAxis a).val]
      let p := fun j : Nat => ((k.landing? j).map fun l => l.p).getD 0
      let ref : Word :=
        if event = 0 then p k.refl.toNat
        else ((k.landing? k.refl.toNat).map fun l => if k.side then l.zh else l.zl).getD 0
      (ref, p k.ql.toNat)
  ⟨slice w 30 2, w.getLsbD 29, event, slice w 16 11, slice w 0 16, points.1, points.2⟩

/-- A homing configuration does not suit the axis (R215, R263, R293) (DEDUCED, log entry 54). -/
def Chip.homeUnsuited (c : Chip) (a : AxisId) : Bool :=
  let h := c.homingOf a
  let k := c.cars[(carOfAxis a).val]
  if 12 ≤ a.val then h.kind = 1 || h.kind = 2 || (h.kind = 3 && !h.dir)
  else if h.kind = 1 then (c.fbks[(hoistway (carOfAxis a)).val]).act.mode ≠ .ssi || k.table.isNone
  else if h.kind = 2 then k.loaded ≤ k.refl.toNat || k.loaded ≤ k.ql.toNat
  else h.kind = 3

/-- HOME; on a car axis it takes the car out of OUT, so that a disruptive test of the car holds it off (R93, R186, R215, R251, R286)
(DEDUCED, log entry 54). -/
def bodyHome : Body := fun x _ c =>
  onAxis x c (x.f.d ≠ 0 || x.f.a ≠ 0 || x.f.m ≠ 0) 0xFF80 fun a =>
    let h := c.homingOf a
    let doorOk := match doorOfAxis a with
      | none => true
      | some d =>
        [DoorState.closedLocked, .closed, .open_, .stopped].contains (c.doors[d.val]).st
          && (c.axes[a.val]).projected.st = .idle
    orFault c a x
      { illegal := false,
        checks :=
          [(c.homeUnsuited a, .range), (!c.serviceIn a [.out, .inspect] || h.kind = 0 || !doorOk, .state),
            (c.limitsZero a || c.doorUnready a, .state), (a.val < 12 && c.testRunning (carOfAxis a), .busy), (c.movesFull x.who a, .full)],
        queue := some (.moves a), act := fun c => reply .queued (c.enqueueMove x.who a (.home h) 0 none) }

/-- An immediate with bit 12 fixed by the row. -/
def fix12 (f : Enc) (b : Bool) : Enc := { f with imm := (f.imm &&& 0xEFFF) ||| (if b then 0x1000 else 0) }

/-- MOVE. -/
def runMove (i : Issuer) (f : Enc) (s : State) : State := issue i 0x20 f 6 (bodyMove false) s
/-- MOVEQ. -/
def runMoveq (i : Issuer) (f : Enc) (s : State) : State := issue i 0x21 f 6 (bodyMove true) s
/-- STOP. -/
def runStop (i : Issuer) (f : Enc) (s : State) : State := issue i 0x22 f 4 bodyStop s
/-- STOPAT. -/
def runStopat (i : Issuer) (f : Enc) (s : State) : State := issue i 0x23 f 8 bodyStopat s
/-- RESUME. -/
def runResume (i : Issuer) (f : Enc) (s : State) : State := issue i 0x24 f 4 bodyResume s
/-- FLUSH. -/
def runFlush (i : Issuer) (f : Enc) (s : State) : State := issue i 0x25 f 4 bodyFlush s
/-- LIMIT (DEDUCED, log entry 50). -/
def runLimit (i : Issuer) (f : Enc) (s : State) : State := issue i 0x26 f 6 bodyLimit s
/-- CAMSET, engage (DEDUCED, log entry 55). -/
def runCamsetEngage (i : Issuer) (f : Enc) (s : State) : State := issue i 0x27 (fix12 f true) 4 bodyEngage s
/-- CAMSET, release (DEDUCED, log entry 55). -/
def runCamsetRelease (i : Issuer) (f : Enc) (s : State) : State := issue i 0x27 (fix12 f false) 4 bodyRelease s
/-- HOME (DEDUCED, log entry 54). -/
def runHome (i : Issuer) (f : Enc) (s : State) : State := issue i 0x28 f 6 bodyHome s

/-- The meaning of MOVE. -/
def execMove (i : Issuer) (f : Enc) (s : State) : Out := .next (runMove i f s)
/-- The meaning of MOVEQ. -/
def execMoveq (i : Issuer) (f : Enc) (s : State) : Out := .next (runMoveq i f s)
/-- The meaning of STOP. -/
def execStop (i : Issuer) (f : Enc) (s : State) : Out := .next (runStop i f s)
/-- The meaning of STOPAT. -/
def execStopat (i : Issuer) (f : Enc) (s : State) : Out := .next (runStopat i f s)
/-- The meaning of RESUME. -/
def execResume (i : Issuer) (f : Enc) (s : State) : Out := .next (runResume i f s)
/-- The meaning of FLUSH. -/
def execFlush (i : Issuer) (f : Enc) (s : State) : Out := .next (runFlush i f s)
/-- The meaning of LIMIT. -/
def execLimit (i : Issuer) (f : Enc) (s : State) : Out := .next (runLimit i f s)
/-- The meaning of CAMSET_ENGAGE. -/
def execCamsetEngage (i : Issuer) (f : Enc) (s : State) : Out := .next (runCamsetEngage i f s)
/-- The meaning of CAMSET_RELEASE. -/
def execCamsetRelease (i : Issuer) (f : Enc) (s : State) : Out := .next (runCamsetRelease i f s)
/-- The meaning of HOME. -/
def execHome (i : Issuer) (f : Enc) (s : State) : Out := .next (runHome i f s)
/-- The meaning of PROFILE_ADVANCE. -/
def execProfileAdvance (a : AxisId) (s : State) : Out := .next (runProfileAdvance a s)
/-- The meaning of MOVE_TAKE. -/
def execMoveTake (a : AxisId) (s : State) : Out := .next (runMoveTake a s)
/-- The meaning of HOME_REFERENCE. -/
def execHomeReference (a : AxisId) (s : State) : Out := .next (runHomeReference a s)

end Sys2Proof.Machine
end

