-- ==== Sys2Proof/Machine/Feedback.lean ====
section
/-! DEFINITION. Feedback interfaces: quadrature decoding, hysteresis, speed, compare and pulse division (R219 to R227),
three-switch inputs (R228), SSI reads (R229, R230), input errors (R231), and the encoders of doors (R278). -/

namespace Sys2Proof.Machine

/-! ### Stamps, errors and quadrature (R219, R220, R231) -/

/-- Count an input error with its code and the admission cycle count at which it is met (R231). -/
def Fbk.inputError (f : Fbk) (tick : BitVec 48) (stamp : Nat) (code : BitVec 4) : Fbk :=
  { f with errTicks := (tick :: recent 1024 tick f.errTicks).take 1023, errLast := code, errs := satInc f.errs, errAt := stamp }

/-- What a change of the filtered pair A, B is (R220). -/
inductive QuadMove where
  | none | illegal | step (up : Bool)
  deriving DecidableEq, Repr

/-- The pair that follows another when counting up: 00, 10, 11, 01, 00 (R220). -/
def quadNext (ab : BitVec 2) : BitVec 2 :=
  match ab.toNat with
  | 0 => 2
  | 2 => 3
  | 3 => 1
  | _ => 0

/-- The move from one filtered pair to another. -/
def quadMove (inv : Bool) (old new : BitVec 2) : QuadMove :=
  if old = new then .none
  else if quadNext old = new then .step (!inv)
  else if quadNext new = old then .step inv
  else .illegal

/-! ### Counting (R221, R224 to R227) -/

/-- Pulse division on a decoded single-line change at a stamp; the outputs hold in TRIPPED (R227) (DEDUCED, log entry 67). -/
def Fbk.divide (f : Fbk) (stamp : Nat) (up hold : Bool) : Fbk :=
  let r := f.divAcc.toNat
  let n := f.act.divNum.toNat
  let d := f.act.divDen.toNat
  let out : Nat × BitVec 2 :=
    if up then (if d ≤ r + n then (r + n - d, 1) else (r + n, 0)) else if r < n then (r + d - n, 3) else (r - n, 0)
  { f with
    divAcc := BitVec.ofNat 17 out.1, rep := if hold then f.rep else f.rep + out.2,
    reps := if hold || out.2 = 0 then f.reps else ((stamp, f.rep) :: f.reps).take 3 }

/-- CMPNEXT lies in the half-open range from the count to the count moved by n, and n has the sign of STEP (R226). -/
def compareHit (step next count : Word) (n : Int) : Bool :=
  let o := (next - count).toInt
  step ≠ 0 && (if 0 < n then decide (0 < step.toInt ∧ 1 ≤ o ∧ o ≤ n) else decide (step.toInt < 0 ∧ n ≤ o ∧ o ≤ -1))

/-- A hit: CMPNEXT advances and CMPHITS counts; an edge of cycle 0 still meets the CMPNEXT that a PUT to FBK_CMPBASE replaces
at that boundary (R226) (DEDUCED, log entry 67). -/
def Fbk.compare (f : Fbk) (cycle : BitVec 14) (n : Int) : Fbk × Bool :=
  match (if cycle = 0 then f.cmpOld else none) with
  | some old =>
    let hit := compareHit f.cmpStep old f.count n
    (if hit then { f with cmpHits := f.cmpHits + 1 } else f, hit)
  | none =>
    let hit := compareHit f.cmpStep f.cmpNext f.count n
    (if hit then { f with cmpHits := f.cmpHits + 1, cmpNext := f.cmpNext + f.cmpStep } else f, hit)

/-- Counted edges with their stamps, in order: the count, the run in progress, and a compare hit (R224 to R226)
(DEDUCED, log entry 67). -/
def Fbk.countEdges (f : Fbk) (cycle : BitVec 14) (up : Bool) (stamps : List Nat) : Fbk × Bool :=
  let one : Word := if up then 1 else -1
  let n : Int := (if up then 1 else -1) * stamps.length
  let r := f.compare cycle n
  let run := if f.dir = some up then f.edges else []
  let f := r.1
  let edges := stamps.zipIdx.foldl (fun l s => (s.1, f.count + one * BitVec.ofNat 32 (s.2 + 1)) :: l) run
  ({ f with count := f.count + BitVec.ofInt 32 n, dir := some up, edges := edges }, r.2)

/-- A decoded change of one line, with hysteresis (R224) (DEDUCED, log entry 67). An edge that is held as FBK_HYST.EN is written 0 stays
held, and the next edge decides it (DESIGN CHOICE, log entry 120). -/
def Fbk.edge (f : Fbk) (cycle : BitVec 14) (stamp : Nat) (up : Bool) : Fbk × Bool :=
  match f.held with
  | none =>
    if f.act.hyst && f.dir = some (!up) then ({ f with held := some stamp }, false) else f.countEdges cycle up [stamp]
  | some s =>
    if f.dir = some up then ({ f with held := none }, false)
    else ({ f with held := none }).countEdges cycle up [s, stamp]

/-- QUAD_EDGE on a feedback interface: the filtered lines take a new pair once it has stood for CYCLES samples (R219, R220,
R224, R226, R227, R231). -/
def Chip.fbkEdge (c : Chip) (i : FbkId) (ab : BitVec 2) (held : BitVec 8) (cycle : BitVec 14) : Chip :=
  let f := c.fbks[i.val]
  let k := carOfFbk i
  if !(c.cars[k.val]).on || i.val % 2 = 1 || held.toNat < f.act.cycles.toNat then c
  else if f.act.mode ≠ .quad then c.modFbk i fun f => { f with ab := ab }
  else match quadMove f.act.dirInv f.ab ab with
    | .none => c
    | .illegal => c.modFbk i fun f => ({ f with ab := ab, held := none }).inputError c.dev.tick (c.stamp cycle) 6
    | .step up =>
      let r := (({ f with ab := ab }).divide (c.stamp cycle) up (decide (c.dev.state = DevState.tripped))).edge cycle (c.stamp cycle) up
      let c1 := c.modFbk i fun _ => r.1
      if r.2 then (c1.note (.compare i r.1.count (c.stamp cycle))).raiseSee k 5 else c1

/-! ### Encoders of doors (R278, R279) -/

/-- A commutation fault: its cause, the run of consecutive faulting edge events, and the admission cycle count at which that run has
reached 2 (R279). -/
def Door.commFault (x : Door) (stamp : Nat) (cause : BitVec 4) : Door :=
  let run := satInc x.hallRun
  { x with
    hallRun := run, hallLast := cause, hallErrs := satInc x.hallErrs,
    commAt := if 2 ≤ run.toNat then x.commAt.orElse fun _ => some stamp else x.commAt }

/-- A legal edge of a door with its stamp and its count, in the run of one direction (R225, R282). -/
def Door.addEdge (x : Door) (up : Bool) (stamp : Nat) (count : Int) : Door :=
  let run := if x.edgeDir = some up then x.edges else []
  { x with edges := (stamp, count) :: run, edgeDir := some up }

/-- The door's lines are those of an encoder (DEDUCED, log entry 64). -/
def Door.encoder (x : Door) : Bool := x.act.type = .stepper || x.act.type = .bdc

/-- The filtered levels A, B of a door's encoder: its lines HA and HB (R278, Table 13-1). -/
def Door.ab (x : Door) : BitVec 2 := BitVec.ofBool (x.hallRaw.getLsbD 0) ++ BitVec.ofBool (x.hallRaw.getLsbD 1)

/-- The door with new levels A, B on its lines HA and HB. -/
def Door.setAb (x : Door) (ab : BitVec 2) : Door :=
  { x with hallRaw := BitVec.ofBool (x.hallRaw.getLsbD 2) ++ BitVec.ofBool (ab.getLsbD 0) ++ BitVec.ofBool (ab.getLsbD 1) }

/-- The PWM period P of a door and the length of its last period in a tick (R35). -/
def Chip.pwmPeriods (c : Chip) (d : DoorId) : Nat × Nat :=
  let n := (c.doors[d.val]).act.div.toNat + 1
  let len := c.lnk.ticklen.toNat
  (len / n, len / n + (len - n * (len / n)))

/-- The instant of the current samples that the tick beginning at an admission cycle count latches: the centre of the last PWM period of
the tick before it, with the DIV of that tick (R36). -/
def Chip.sampleStamp (c : Chip) (d : DoorId) (latch : Nat) : Nat :=
  let p := (c.pwmPeriods d).2
  latch - p + p / 2

/-- QUAD_EDGE on the lines of a door: its filtered levels follow in every TYPE (R219); those of a STEPPER or BDC door are decoded as
R219 to R221 have it, without hysteresis, and two illegal transitions with no counted edge between them are a commutation fault
(R278). A PMSM door's lines come by HALL_EDGE. -/
def Chip.doorEdge (c : Chip) (d : DoorId) (ab : BitVec 2) (held : BitVec 8) (cycle : BitVec 14) : Chip :=
  let x := c.doors[d.val]
  if !(c.cars[(carOfDoor d).val]).on || x.act.type = .pmsm || held.toNat < x.act.hallCycles.toNat then c
  else if !x.encoder then c.modDoor d fun x => x.setAb ab
  else match quadMove x.act.hallInv x.ab ab with
    | .none => c
    | .illegal => c.modDoor d fun x =>
      let y := x.setAb ab
      if y.illegalRun = 1 then y.commFault (c.stamp cycle) 4 else { y with illegalRun := 1 }
    | .step up => c.modDoor d fun x =>
      let n := x.turns + (if up then 1 else -1)
      let sampled := c.stamp cycle ≤ c.sampleStamp d (c.stamp 0 + c.lnk.ticklen.toNat)
      ({ x.setAb ab with
        turns := n, atSample := if sampled then n else x.atSample, illegalRun := 0, hallRun := 0 }).addEdge up (c.stamp cycle) n

/-- Counts that differ by more than 2 modulo CPR (R278) (DEDUCED, log entry 64). -/
def indexMismatch (cpr : Nat) (a b : Int) : Bool :=
  let d := (a - b) % cpr
  decide (2 < d ∧ d < cpr - 2)

/-- Z_INDEX on the encoder of a door: the first one after HOMED is remembered, a later one that disagrees is a commutation fault
(R278) (DEDUCED, log entry 64). -/
def Chip.doorIndex (c : Chip) (d : DoorId) (held : BitVec 8) (cycle : BitVec 14) : Chip :=
  let x := c.doors[d.val]
  if !(c.cars[(carOfDoor d).val]).on || !x.encoder || held.toNat < x.act.hallCycles.toNat || !(c.axes[(doorAxis d).val]).homed
  then c
  else c.modDoor d fun x => match x.zCount with
    | none => { x with zCount := some x.turns }
    | some z => if indexMismatch x.act.cpr.toNat x.turns z then x.commFault (c.stamp cycle) 5 else x

/-- QUAD_EDGE (R220, R278) (DESIGN CHOICE, log entry 82). -/
def runQuadEdge (e : Encoder) (ab : BitVec 2) (held : BitVec 8) (cycle : BitVec 14) (s : State) : State :=
  s.clock fun c => match e with
    | .fbk i => c.fbkEdge i ab held cycle
    | .door d => c.doorEdge d ab held cycle

/-! ### Z captures, switches and homing events (R215, R222, R228) -/

/-- The event of an EDGE homing with its measured position, where the axis searches for it (R215). -/
def Chip.homeEvent (c : Chip) (k : CarId) (event : BitVec 2) (q : Word) : Chip :=
  match (c.axes[(carAxis k).val]).homing with
  | some (h, .search) =>
    if h.kind = 2 && h.event = event then c.modAxis (carAxis k) fun x => { x with homing := some (h, .event q) } else c
  | _ => c

/-- Z_INDEX on a feedback interface: the count as it stands is captured, and enters the input record with its cycle (R222). A capture
before the Profile phase is an event of the same tick's advance (R215) (DESIGN CHOICE, log entry 119). -/
def Chip.fbkIndex (c : Chip) (i : FbkId) (held : BitVec 8) (cycle : BitVec 14) : Chip :=
  let f := c.fbks[i.val]
  let k := carOfFbk i
  if !(c.cars[k.val]).on || f.act.mode ≠ .quad || held.toNat < f.act.cycles.toNat then c
  else
    ((c.note (.capture (.fbk i) f.count (c.stamp cycle))).modFbk i fun f => { f with pos := f.count, zSeen := true }).homeEvent k 0 (BitVec.ofInt 32 (f.measuredAt f.count.toInt))

/-- Z_INDEX (R222, R278) (DEDUCED, log entry 68; DESIGN CHOICE, log entry 82). -/
def runZIndex (e : Encoder) (held : BitVec 8) (cycle : BitVec 14) (s : State) : State :=
  s.clock fun c => match e with
    | .fbk i => c.fbkIndex i held cycle
    | .door d => c.doorIndex d held cycle

/-- FBK_SWSTATE.ZONE: the decoded door-zone line (R228). -/
def Fbk.zoneLine (f : Fbk) : Bool := f.act.mode = .switch && f.code.getLsbD f.act.dzLine.toNat

/-- Lines in which two codes differ. -/
def lineChanges (a b : BitVec 3) : Nat := ((List.range 3).filter fun i => (a ^^^ b).getLsbD i).length

/-- The latch of a switch code: RAW, its run, t0 with the position latched there, and the check of a code that has stood for
SWTICKS latches (R228, R262) (DEDUCED, log entry 68). -/
def Fbk.switchLatch (f : Fbk) (tick : BitVec 48) (stamp : Nat) (raw : BitVec 3) (carPos : Word) : Fbk :=
  let dz := f.act.dzLine.toNat
  let run := if raw = f.raw then satInc f.rawRun else 1
  let t0 := if raw.getLsbD dz = f.code.getLsbD dz then none else some (f.t0.getD carPos)
  let f := { f with raw := raw, rawRun := run, t0 := t0 }
  if raw = f.code || run.toNat < f.act.swTicks.toNat then f
  else if !f.act.codes.getLsbD raw.toNat then f.inputError tick stamp 1
  else if f.act.adj && 1 < lineChanges raw f.code then f.inputError tick stamp 2
  else { f with code := raw }

/-- SWITCH_LATCH and DOOR_ZONE_EDGE on the interface F(2k+1), with CAR_POS of this tick (R228, R262). -/
def Chip.switchStep (c : Chip) (k : CarId) (raw : BitVec 3) : Chip :=
  let i := hoistway k
  let f := c.fbks[i.val]
  if f.act.mode ≠ .switch then c
  else
    let g := f.switchLatch c.dev.tick (c.stamp 0) raw (c.cars[k.val]).pos
    let c1 := c.modFbk i fun _ => g
    if g.zoneLine = f.zoneLine then c1
    else
      let x := g.t0.getD (c.cars[k.val]).pos
      let c2 := ((c1.modFbk i fun f => { f with t0 := none }).raiseSee k 6).homeEvent k 1 x
      match (c2.cars[k.val]).nearestEdge x.toInt with
      | none => c2
      | some z => c2.slipCheck k (x.toInt - z)

/-! ### SSI (R229, R230) -/

/-- DIV of FBK_SSICFG: cycles per clock period (R229). -/
def ssiPeriod (cfg : Word) : Nat := (slice cfg 21 11).toNat
/-- The data bits of an SSI word (R229). -/
def ssiBits (cfg : Word) : Nat := (slice cfg 16 5).toNat + 1
/-- An error bit follows the data. -/
def ssiErr (cfg : Word) : Bool := cfg.getLsbD 14
/-- The number of check bits. -/
def ssiCrc (cfg : Word) : Nat := 8 * (slice cfg 12 2).toNat
/-- MONO: clock periods of pause after a read. -/
def ssiMono (cfg : Word) : Nat := (slice cfg 8 4).toNat
/-- RDIV. -/
def ssiDiv (cfg : Word) : Nat := (slice cfg 0 8).toNat
/-- B: the clock periods of a read. -/
def ssiClocks (cfg : Word) : Nat := 1 + ssiBits cfg + (if ssiErr cfg then 1 else 0) + ssiCrc cfg

/-- Bits of a number from bit w-1 down. -/
def bitsMsb (x : BitVec 64) (hi w : Nat) : List Bool := (List.range w).map fun i => x.getLsbD (hi - 1 - i)

/-- Gray to binary over n bits (R230). -/
def grayToBinary (n : Nat) (g : Word) : Word :=
  ((List.range n).reverse.foldl (fun (r : Word × Bool) i =>
    let b := g.getLsbD i != r.2
    (if b then r.1 ||| BitVec.ofNat 32 (2 ^ i) else r.1, b)) (0, false)).1

/-- What a read under a configuration is: its word where it is valid, else the error code; a read that fails its check and has its error
bit set is 3 (R230) (DEDUCED, log entry 68; DESIGN CHOICE, log entry 103). -/
def ssiCheck (cfg : Word) (bits : BitVec 64) : Except (BitVec 4) Word :=
  let n := ssiBits cfg
  let e := if ssiErr cfg then 1 else 0
  let k := ssiCrc cfg
  let covered := bitsMsb bits (n + e + k) (n + e)
  let bad := if k = 8 then (crcBits (0x2F : BitVec 8) 0 covered).setWidth 64 ≠ bits &&& 0xFF
    else if k = 16 then (crcBits (0x1021 : BitVec 16) 0 covered).setWidth 64 ≠ bits &&& 0xFFFF else false
  let data : Word := ((bits >>> (e + k)) &&& ((1#64 <<< n) - 1)).setWidth 32
  if bad then .error 3
  else if ssiErr cfg && bits.getLsbD k then .error 4
  else .ok (if cfg.getLsbD 15 then grayToBinary n data else data)

/-- SSI_READ_START: a read starts at cycle 0 of each tick of RUN with DEV_TICK mod RDIV = 0, or is skipped where the sensor is not
ready; none starts while a read and its MONO pause last (R229, Table 4-5); a skipped read leaves VALID as it stands
(DEDUCED, log entry 68; DESIGN CHOICE, log entry 104). -/
def runSsiReadStart (i : FbkId) (ssidt : Bool) (s : State) : State :=
  s.clock fun c =>
    let f := c.fbks[i.val]
    let k := carOfFbk i
    let cfg := f.act.ssi
    if !c.running || !c.latching || !(c.cars[k.val]).on || f.act.mode ≠ .ssi || ssiDiv cfg = 0 || c.dev.tick.toNat % ssiDiv cfg ≠ 0
      || f.ssiRead.isSome || decide (c.stamp 0 < f.ssiFree) then c
    else c.modFbk i fun f =>
      if ssidt then
        { f with
          ssiRead := some ⟨c.dev.tick, cfg, (c.cars[k.val]).pos⟩,
          ssiFree := c.stamp 0 + (ssiClocks cfg + ssiMono cfg) * ssiPeriod cfg }
      else ({ f with ssiFree := c.stamp 0 + 1 }).inputError c.dev.tick (c.stamp 0) 5

/-- The read in progress has ended: its word is latched at cycle 0 of the present tick (R230). -/
def Chip.ssiDue (c : Chip) (i : FbkId) : Bool :=
  match (c.fbks[i.val]).ssiRead with
  | none => false
  | some r => decide (r.start.toNat * c.lnk.ticklen.toNat + ssiClocks r.ssi * ssiPeriod r.ssi ≤ c.stamp 0)

/-- CAR_FLOOR.ZONE (R256). -/
def Chip.zoneState (c : Chip) (k : CarId) : Bool :=
  let x := c.cars[k.val]
  let f := c.fbks[(hoistway k).val]
  match f.act.mode with
  | .switch => f.zoneLine
  | .ssi => match x.landing? x.landing.toNat with
    | none => false
    | some l => decide (l.zl.toInt ≤ c.hoistPos k) && decide (c.hoistPos k ≤ l.zh.toInt)
  | .off | .quad => false

/-- Zone, level and re-level; the zone waits for a word of the hoistway sensor that this tick latches (R256, R261)
(DEDUCED, log entry 56). -/
def Chip.floorStep (c : Chip) (k : CarId) : Chip :=
  let x := c.cars[k.val]
  let a := c.axes[(carAxis k).val]
  let zone := if c.ssiDue (hoistway k) then x.zone else c.zoneState k
  let off : Option Nat := (x.landing? x.landing.toNat).map fun l => (x.pos.toInt - l.p.toInt).natAbs
  let level := match off, c.sps.get (.car 4 k) with
    | some e, some w => decide (e ≤ w.toNat)
    | _, _ => false
  let still := (a.st = .idle || a.st = .held) && x.speed = 0
  let relev := match off, c.sps.get (.car 5 k) with
    | some e, some w => still && x.service = .in_ && zone && decide ((slice w 0 16 : BitVec 16).toNat < e)
    | _, _ => false
  let c1 := c.modCar k fun x => { x with zone := zone, level := level, relev := relev }
  if zone ≠ x.zone && (c.fbks[(hoistway k).val]).act.mode = .ssi then c1.raiseSee k 6 else c1

/-- SSI_READ_DONE: at cycle 0 of a tick after the last clock period of the read in progress, its word is checked, stripped, converted
and latched, the zone is formed from it, and a valid one is compared with the machine encoder (R230, R256, R262)
(DEDUCED, log entry 68). -/
def runSsiReadDone (i : FbkId) (bits : BitVec 64) (s : State) : State :=
  s.clock fun c =>
    let k := carOfFbk i
    match (c.fbks[i.val]).ssiRead with
    | none => c
    | some r =>
      if !c.latching || !c.ssiDue i then c
      else
        let c := c.note (.ssi i bits)
        match ssiCheck r.ssi bits with
        | .error code =>
          (c.modFbk i fun f => ({ f with ssiRead := none, valid := false }).inputError c.dev.tick (c.stamp 0) code).floorStep k
        | .ok w =>
          let c1 := (c.modFbk i fun f => { f with ssiRead := none, pos := w, valid := true, everValid := true }).floorStep k
          if (c1.cars[k.val]).table.isNone then c1 else c1.slipCheck k (r.carPos.toInt - c1.hoistPos k)

/-- FEEDBACK_FAULT: WIN above THRESH, in whatever state the inputs are counted (R221, R231). -/
def runFeedbackFault (i : FbkId) (s : State) : State :=
  s.clock fun c =>
    if decide ((c.fbks[i.val]).act.thresh.toNat < c.errorWindow i) then
      c.carFault (carOfFbk i) (2 + i.val % 2) (c.fbks[i.val]).errAt
    else c

/-! ### The latch at cycle 0 (R218, R221, R225 to R227) -/

/-- The speed procedure of R225 over the edges of a run, latest first: a window of w cycles before the latch at l, and num ÷ den
µm per count. -/
def edgeSpeed (edges : List (Nat × Int)) (l w : Nat) (num den : Int) : Word :=
  match edges with
  | [] => 0
  | e1 :: rest =>
    if e1.1 + w < l then 0
    else
      let inside := rest.filter fun e => decide (l ≤ e.1 + w)
      match inside.getLast?.orElse fun _ => rest.head? with
      | none => 0
      | some e0 =>
        let n := (e1.2 - e0.2).natAbs
        let dt : Int := e1.1 - e0.1
        let g : Int := l - e1.1
        let slow := decide (dt < g * n)
        let m : Int := if slow then 1 else n
        let t : Int := if slow then g else dt
        if t = 0 then 0 else clampInt 32 (roundAway ((e1.2 - e0.2).sign * m * num * sckHz) (t * den))

/-- The edges that a later latch may still use: those of the last w cycles, and the one before them (R225). -/
def pruneEdges {α : Type} (edges : List (Nat × α)) (l w : Nat) : List (Nat × α) :=
  let keep := edges.takeWhile fun e => decide (l ≤ e.1 + w)
  keep ++ (edges.drop keep.length).take 1

/-- Accepted PUTs act at the boundary; a change of MODE clears counts, runs and the decoded code (R218, R226, R227)
(DEDUCED, log entry 50; DEDUCED, log entry 68). -/
def Fbk.configure (f : Fbk) : Fbk :=
  let f := { f with
    divAcc := if f.divWritten then 0 else f.divAcc, divWritten := false,
    cmpOld := if f.cmpArm then some f.cmpNext else none, cmpNext := if f.cmpArm then f.cmpBase else f.cmpNext,
    cmpArm := false }
  let f := if f.cfg.mode = f.act.mode then f
    else
      { f with
        count := 0, latched := 0, speed := 0, pos := 0, edges := [], dir := none, held := none, code := 0, rawRun := 0,
        t0 := none, ssiRead := none }
  { f with act := f.cfg }

/-- The settings whose change loses the car's position (R218). -/
def Fbk.losesHome (f : Fbk) : Bool :=
  f.cfg.mode ≠ f.act.mode || f.cfg.dirInv ≠ f.act.dirInv || f.cfg.scale ≠ f.act.scale || f.cfg.ssi ≠ f.act.ssi

/-- The count and the speed latched at cycle 0 (R221, R225). -/
def Fbk.latch (f : Fbk) (l ticklen : Nat) (tick : BitVec 48) : Fbk :=
  let quad := f.act.mode = .quad
  let edges := f.edges.map fun e => (e.1, (e.2 - f.count).toInt)
  { f with
    latched := if quad then f.count else 0,
    speed := if quad then edgeSpeed edges l (f.act.spdTicks.toNat * ticklen) f.act.scale.toInt (2 ^ 24) else 0,
    edges := pruneEdges f.edges l (255 * ticklen), errTicks := recent 1024 tick f.errTicks }

/-- The feedback part of a tick boundary for a car with its islands on (DESIGN CHOICE, log entry 83). -/
def Chip.fbkBoundary (c : Chip) (k : CarId) : Chip :=
  let l := c.stamp 0
  let len := c.lnk.ticklen.toNat
  let lost := (c.fbks[(machine k).val]).losesHome || (c.fbks[(hoistway k).val]).losesHome
  let step := fun f : Fbk => f.configure.latch l len c.dev.tick
  let c0 := (c.modFbk (machine k) step).modFbk (hoistway k) step
  let c1 := c0.note (.count (machine k) (c0.fbks[(machine k).val]).latched)
  if lost then c1.modAxis (carAxis k) fun a => { a with homed := false } else c1

/-- The meaning of QUAD_EDGE. -/
def execQuadEdge (e : Encoder) (ab : BitVec 2) (held : BitVec 8) (cycle : BitVec 14) (s : State) : Out :=
  .next (runQuadEdge e ab held cycle s)
/-- The meaning of Z_INDEX. -/
def execZIndex (e : Encoder) (held : BitVec 8) (cycle : BitVec 14) (s : State) : Out := .next (runZIndex e held cycle s)
/-- The meaning of SSI_READ_START. -/
def execSsiReadStart (i : FbkId) (ssidt : Bool) (s : State) : Out := .next (runSsiReadStart i ssidt s)
/-- The meaning of SSI_READ_DONE. -/
def execSsiReadDone (i : FbkId) (bits : BitVec 64) (s : State) : Out := .next (runSsiReadDone i bits s)
/-- The meaning of FEEDBACK_FAULT. -/
def execFeedbackFault (i : FbkId) (s : State) : Out := .next (runFeedbackFault i s)

end Sys2Proof.Machine
end

