-- ==== Sys2Proof/Machine/Real.lean ====
section
/-! DEFINITION. The exact functions that the manual names, as fixed-point numbers far finer than any register: the sine of an
electrical angle (R275), the natural logarithm of a resistance (R323) and the thermocouple functions (R324). -/

namespace Sys2Proof.Machine

/-! ### Sine and cosine, scaled by 2^128 -/

/-- π × 2^128, rounded down. -/
def piFix : Int := 1069028584064966747859680373161870783300

/-- √3 × 2^128, rounded down. -/
def root3Fix : Int := 589386348426860482768174911371534154633

/-- n terms of the alternating series from a term t of degree k, with the square of the argument scaled by 2^256. -/
def sineSeries (square : Int) : Nat → Nat → Int → Int
  | 0, _, _ => 0
  | n + 1, k, t => t + sineSeries square n (k + 2) (-(t * square) / 2 ^ 256 / ((k + 1) * (k + 2)))

/-- Up to an eighth of a turn, r in 1/65,536 of a turn: sine, or cosine. -/
def sineSmall (cosine : Bool) (r : Nat) : Int :=
  let x := piFix * r / 32768
  if cosine then sineSeries (x * x) 24 0 (2 ^ 128) else sineSeries (x * x) 24 1 x

/-- The sine over the first quarter of a turn, exact at its ends. -/
def sineQuarter (r : Nat) : Int := if r ≤ 8192 then sineSmall false r else sineSmall true (16384 - r)

/-- The sine of an electrical angle, scaled by 2^128. -/
def sineExact (theta : BitVec 16) : Int :=
  let r := theta.toNat % 16384
  match theta.toNat / 16384 with
  | 0 => sineQuarter r
  | 1 => sineQuarter (16384 - r)
  | 2 => -sineQuarter r
  | _ => -sineQuarter (16384 - r)

/-- The cosine of an electrical angle, scaled by 2^128. -/
def cosineExact (theta : BitVec 16) : Int := sineExact (theta + 16384)

/-! ### The logarithm, scaled by 2^256 -/

/-- ln 2 × 2^256, rounded down. -/
def ln2Fix : Int := 80260960185991308862233904206310070533990667611589946606122867505419956976171

/-- n terms of the series of the inverse hyperbolic tangent from a power p of degree k. -/
def artanhSeries (square : Int) : Nat → Nat → Int → Int
  | 0, _, _ => 0
  | n + 1, k, p => p / k + artanhSeries square n (k + 2) (p * square / 2 ^ 512)

/-- ln(n ÷ 2^s), scaled by 2^256, for n above 0. -/
def lnExact (n s : Nat) : Int :=
  let e := n.log2
  let z : Int := ((n : Int) - 2 ^ e) * 2 ^ 256 / (n + 2 ^ e)
  ((e : Int) - s) * ln2Fix + 2 * artanhSeries (z * z) 90 1 z

/-! ### Thermocouples (R322, R324) -/

/-- e^-x for x not negative, both scaled by 2^128: n terms of the series from a term t of degree k. -/
def expSeries (x : Int) : Nat → Nat → Int → Int
  | 0, _, _ => 0
  | n + 1, k, t => t + expSeries x n (k + 1) (-(t * x) / 2 ^ 128 / (k + 1))

/-- IEC 60584-1, type K below 0 °C: the coefficients of the EMF in mV by power of the temperature in °C, (m, e) being
m × 10^-(12 + e) (PRESUMED, log entry 107). -/
def emfK0 : List (Int × Nat) :=
  [(0, 0), (394501280250, 1), (236223735980, 4), (-328589067840, 6), (-499048287770, 8), (-675090591730, 10),
   (-574103274280, 12), (-310888728940, 14), (-104516093650, 16), (-198892668780, 19), (-163226974860, 22)]
/-- Type K from 0 °C on, without its exponential term (PRESUMED, log entry 107). -/
def emfK1 : List (Int × Nat) :=
  [(-176004136860, 1), (389212049750, 1), (185587700320, 4), (-994575928740, 7), (318409457190, 9), (-560728448890, 12),
   (560750590590, 15), (-320207200030, 18), (971511471520, 22), (-121047212750, 25)]
/-- Type J (PRESUMED, log entry 107). -/
def emfJ : List (Int × Nat) :=
  [(0, 0), (503811878150, 1), (304758369300, 4), (-856810657200, 7), (132281952950, 9), (-170529583370, 12),
   (209480906970, 15), (-125383953360, 18), (156317256970, 22)]
/-- Type N below 0 °C (PRESUMED, log entry 107). -/
def emfN0 : List (Int × Nat) :=
  [(0, 0), (261591059620, 1), (109574842280, 4), (-938411115540, 7), (-464120397590, 10), (-263033577160, 11),
   (-226534380030, 13), (-760893007910, 16), (-934196678350, 19)]
/-- Type N from 0 °C on (PRESUMED, log entry 107). -/
def emfN1 : List (Int × Nat) :=
  [(0, 0), (259293946010, 1), (157101418800, 4), (438256272370, 7), (-252611697940, 9), (643118193390, 12),
   (-100634715190, 14), (997453389920, 18), (-608632456070, 21), (208492293390, 24), (-306821961510, 28)]

/-- A polynomial of at most degree 10 at n hundredths of a degree, in 10^-60 mV. -/
def emfPoly (coefs : List (Int × Nat)) (n : Int) : Int :=
  coefs.zipIdx.foldl (fun s k => s + k.1.1 * 10 ^ (28 - k.1.2) * n ^ k.2 * 100 ^ (10 - k.2)) 0

/-- The exponential term of type K, 0.1185976 × e^(-0.0001183432 × (T - 126.9686)²) mV, scaled by 10^7 × 2^128
(PRESUMED, log entry 107). -/
def emfBump (n : Int) : Int :=
  1185976 * expSeries (1183432 * (100 * n - 1269686) ^ 2 * 2 ^ 128 / 10 ^ 18) 60 0 (2 ^ 128)

/-- The reference function E of curves 3 to 5: the EMF at n hundredths of a degree in 2^-32 of 1/64 µV (R322, R324)
(PRESUMED, log entry 107). -/
def thermoEmf (curve : BitVec 4) (n : Int) : Int :=
  let unit : Int := 64 * 2 ^ 32
  match curve.toNat with
  | 3 => if n < 0 then emfPoly emfK0 n * unit / 10 ^ 57 else emfPoly emfK1 n * unit / 10 ^ 57 + emfBump n * unit / 2 ^ 128 / 10 ^ 4
  | 4 => emfPoly emfJ n * unit / 10 ^ 57
  | _ => (if n < 0 then emfPoly emfN0 n else emfPoly emfN1 n) * unit / 10 ^ 57

end Sys2Proof.Machine
end

