-- ==== Sys2Proof/Machine/Doors.lean ====
section
/-! DEFINITION. Door operators: the rotor angle and its estimator (R276 to R279), torque current (R275), commutation (R280),
position and speed (R282), force and kinetic energy (R284), timers (R290), stalls (R293, R294), and what a tick boundary does to a
door. -/

namespace Sys2Proof.Machine

/-! ### Rotor angle (R276, R277) -/

/-- The place of a hall code in the opening sequence 1, 3, 2, 6, 4, 5 (R276) (DEDUCED, log entry 65). -/
def hallPlace (code : BitVec 3) : Option Nat :=
  match code.toNat with
  | 1 => some 0
  | 3 => some 1
  | 2 => some 2
  | 6 => some 3
  | 4 => some 4
  | 5 => some 5
  | _ => none

/-- Boundary i, counted from OFFSET (R276). -/
def hallBound (i : Nat) : Int := [0, 10923, 21845, 32768, 43691, 54613, 65536].getD i 0

/-- The length of sector j (DEDUCED, log entry 65). -/
def sectorLen (j : Nat) : Int := hallBound (j + 1) - hallBound j

/-- The predicted angle at a cycle in half units, unwrapped and counted from OFFSET, and its MODE (R277)
(DEDUCED, log entry 65). -/
def Door.predict (x : Door) (stamp : Nat) : Int × BitVec 2 :=
  match hallPlace x.hall with
  | none => (2 * x.turns, 0)
  | some j =>
    let dir : Int := if x.edgeDir = some false then -1 else 1
    match x.edgeAt with
    | some t =>
      if x.edgeGap ≠ 0 && decide (x.edgeGap ≤ 2 ^ 22) then
        let gone : Int := 2 * 10923 * ((stamp : Int) - t) / x.edgeGap
        (2 * x.turns + dir * min gone (2 * sectorLen j + 2 * 5461), 2)
      else (2 * x.turns + dir * sectorLen j, 1)
    | none => (2 * x.turns + dir * sectorLen j, 1)

/-- A legal hall edge to a boundary: the error against the prediction, its window, and the new speed of the angle (R277)
(DEDUCED, log entry 64). -/
def Door.hallStep (x : Door) (code : BitVec 3) (up : Bool) (bound : Int) (stamp : Nat) : Door :=
  let err := (2 * bound - (x.predict stamp).1).tdiv 2
  let gap := match x.edgeAt with
    | some t => if x.edgeDir = some up then stamp - t else 0
    | none => 0
  let mag := err.natAbs
  let count := ((x.edges.head?.map fun e => e.2).getD 0) + (if up then 1 else -1)
  let y := ({ x with
      hall := code, turns := bound, angErr := BitVec.ofInt 16 err,
      angMax := if x.angMax.toNat < mag then BitVec.ofNat 16 mag else x.angMax }).addEdge up stamp count
  let y := { y with edgeAt := some stamp, edgeGap := gap }
  if 5461 < mag then y.commFault stamp 3 else { y with hallRun := 0 }

/-- A filtered hall code that differs from the one in force is checked; a faulty one is not applied (R276)
(DEDUCED, log entry 64). -/
def Door.checkHall (x : Door) (code : BitVec 3) (stamp : Nat) : Door :=
  if code = x.hall then x
  else if !x.act.hallCodes.getLsbD code.toNat then x.commFault stamp 1
  else match hallPlace x.hall, hallPlace code with
    | none, some j => { x with hall := code, turns := hallBound j, edgeAt := none, edgeDir := none, edgeGap := 0, hallRun := 0 }
    | some i, some j =>
      let down := x.edgeDir = some false
      if j = (i + 1) % 6 then x.hallStep code true (if down then x.turns else x.turns + sectorLen i) stamp
      else if i = (j + 1) % 6 then x.hallStep code false (if down then x.turns - sectorLen i else x.turns) stamp
      else x.commFault stamp 2
    | _, none => x.commFault stamp 2

/-- The estimator takes the edges that have arrived before a cycle, in stamp order (R277). -/
def Door.takeEdges (x : Door) (before : Nat) : Door :=
  (x.arrived.filter fun e => decide (e.1 < before)).foldl (fun x e => x.checkHall e.2 e.1)
    { x with arrived := x.arrived.filter fun e => !decide (e.1 < before) }

/-- The latch of the lines at cycle 0: a PMSM estimator takes the latched edges, or checks again a code that persists; an encoder's count
is latched (R221, R276 to R278). -/
def Door.settle (x : Door) (l : Nat) : Door :=
  if x.act.type = .pmsm then
    let y := x.takeEdges l
    if x.arrived.any fun e => decide (e.1 < l) then y else y.checkHall y.hallRaw l
  else { x with count := x.turns, atSample := x.turns, arrived := [] }

/-- The decoder of a door's lines starts afresh: the decoded hall code is 000b until the latch at which the first legal code is applied,
and the angle's turn is then matched to its sector; an encoder's count is 0 (R219, R228, R276, R277) (DEDUCED, log entry 65). -/
def Door.seat (x : Door) : Door :=
  { x with
    hall := 0, turns := 0,
    arrived := [], count := 0, atSample := 0, edgeAt := none, edgeDir := none, edgeGap := 0, edges := [], illegalRun := 0 }

/-- HALL_EDGE: the filtered lines of a door take a new code; that of a PMSM door waits for the next latch, at which the estimator takes it
(R219, R276, R277). An encoder's lines come by QUAD_EDGE (DEDUCED, log entry 64; DESIGN CHOICE, log entry 82). -/
def runHallEdge (d : DoorId) (code : BitVec 3) (held : BitVec 8) (cycle : BitVec 14) (s : State) : State :=
  s.clock fun c =>
    let x := c.doors[d.val]
    if !(c.cars[(carOfDoor d).val]).on || x.encoder || held.toNat < x.act.hallCycles.toNat || code = x.hallRaw then c
    else c.modDoor d fun x =>
      { x with
        hallRaw := code, arrived := if x.act.type = .pmsm then x.arrived ++ [(c.stamp cycle, code)] else x.arrived }

/-- A quotient to the nearest integer, halves away from zero; the manual states none for a divisor that is unset
(DESIGN CHOICE, log entry 24). -/
def ratio (n d : Int) (place : Nat) : Int := if d = 0 then (Config.openResult place n).toInt else roundAway n d

/-- A value in a signed 16-bit field; outside its range the manual states none (DESIGN CHOICE, log entry 24). -/
def fit16 (x : Int) (place : Nat) : BitVec 16 :=
  if -32768 ≤ x ∧ x ≤ 32767 then BitVec.ofInt 16 x else (Config.openResult place x).setWidth 16

/-- The unwrapped angle n, or the count of an encoder, at a cycle (R277, R278, R282) (DEDUCED, log entry 65). -/
def Door.turnsAt (x : Door) (stamp : Nat) : Int :=
  if x.act.type = .pmsm then
    let n := (x.act.hallOffset.toNat : Int) + (x.predict stamp).1 / 2
    if x.act.hallInv then -n else n
  else x.count

/-- The angle θ at a cycle (R277, R278) (DEDUCED, log entry 65). -/
def Door.angleAt (x : Door) (stamp : Nat) : BitVec 16 :=
  if x.act.type = .pmsm then BitVec.ofInt 16 (x.turnsAt stamp)
  else if x.act.cpr = 0 then x.act.hallOffset
  else x.act.hallOffset + BitVec.ofInt 16 (x.count * 32768 * x.act.poles.toNat / x.act.cpr.toNat)

/-- The angle θ at the sample instant of the latched currents: from the edges up to it, or the count as it stood (R275)
(DEDUCED, log entry 65). -/
def Door.sampledAngle (x : Door) (sampled : Nat) : BitVec 16 :=
  if x.act.type = .pmsm then (x.takeEdges (sampled + 1)).angleAt sampled else ({ x with count := x.atSample }).angleAt sampled

/-- MODE of DOOR_ANGLE (DEDUCED, log entry 65). -/
def Door.modeAt (x : Door) (stamp : Nat) : BitVec 2 :=
  match x.act.type with
  | .none => 0
  | .pmsm => (x.predict stamp).2
  | .stepper | .bdc => 3

/-! ### Commutation (R280, R281) -/

/-- T(i) of a sine table; T(256) is 65,535. -/
def sineEntry (t : List (BitVec 16)) (i : Nat) : Int := if 256 ≤ i then 65535 else (t.getD i 0).toNat

/-- S(φ) from a table (R280). -/
def sineOf (t : List (BitVec 16)) (phi : BitVec 16) : Int :=
  let q := phi.toNat / 16384
  let x := phi.toNat % 16384
  let u := if q % 2 = 0 then x else 16384 - x
  let i := u / 64
  let f : Int := u % 64
  let v := sineEntry t i + (sineEntry t (i + 1) - sineEntry t i) * f / 64
  if q < 2 then v else -v

/-- The centre of the first PWM period that starts after cycle 1,280, counted from cycle 0 of the present tick (R36). -/
def Chip.effectCentre (c : Chip) (d : DoorId) : Nat :=
  let n := (c.doors[d.val]).act.div.toNat + 1
  let p := c.pwmPeriods d
  let j := if p.1 = 0 then n else 1280 / p.1 + 1
  if j < n then j * p.1 + (if j + 1 = n then p.2 else p.1) / 2
  else c.lnk.ticklen.toNat + (if n = 1 then p.2 else p.1) / 2

/-- A leg at a duty of 1/2^31, clipped to 0 to 1 (R274, R280). -/
def Leg.of (n : Int) : Leg := .duty (max 0 (min (2 ^ 31) n))

/-- The legs U, V and W for a voltage command (R273, R280) (DEDUCED, log entry 66). -/
def Chip.legDuties (c : Chip) (d : DoorId) (v : Int) : Vector Leg 3 :=
  let x := c.doors[d.val]
  let psi := x.angleAt (c.stamp 0 + c.effectCentre d) + 16384
  let t := c.sine[x.act.sel.toNat]
  let about := fun n : Int => Leg.of (2 ^ 30 + n)
  match x.act.type with
  | .none => Vector.replicate 3 .low
  | .pmsm =>
    #v[about (v * sineOf t (psi + 16384)), about (v * sineOf t (psi + 16384 - 21845)), about (v * sineOf t (psi + 16384 - 43691))]
  | .stepper => #v[about (v * sineOf t (psi + 16384)), about (v * sineOf t psi), about 0]
  | .bdc => #v[about (v * 32768), about (-(v * 32768)), .low]

/-! ### Currents, force and energy (R275, R284) -/

/-- The current of an input from its code and zero code, in mA. -/
def inputCurrent (x : Door) (code zero : BitVec 12) : BitVec 16 :=
  clampInt 16 (roundAway ((code.toNat - zero.toNat : Int) * x.act.iscale.toNat) 64)

/-- n ÷ d to an integer, up or down: the manual states no rounding (DESIGN CHOICE, log entry 17). -/
def eitherWay (n d : Int) (place : Nat) : Int :=
  if n % d = 0 then n / d else n / d + (if (Config.openResult place n).getLsbD 0 then 1 else 0)

/-- The torque current of samples taken at an angle, by the formulas of R275 with the sines of `Real`; its rounding and what lies
beyond its 16 bits are open (DESIGN CHOICE, log entry 17). -/
def Door.torque (x : Door) (iu iv : BitVec 16) (theta : BitVec 16) : BitVec 16 :=
  let s := sineExact theta
  let k := cosineExact theta
  match x.act.type with
  | .none => 0
  | .bdc => iu
  | .pmsm => fit16 (eitherWay ((iu.toInt + 2 * iv.toInt) * root3Fix * k - 3 * iu.toInt * s * 2 ^ 128) (3 * 2 ^ 256) 7) 8
  | .stepper => fit16 (eitherWay (iv.toInt * k - iu.toInt * s) (2 ^ 128) 7) 8

/-- A sample above 1.5 × IMAX (R275). -/
def Chip.overCurrent (c : Chip) (d : DoorId) (i : BitVec 16) : Bool :=
  match c.sps.get (.door 0 d) with
  | none => false
  | some m => decide (3 * m.toNat < 2 * i.toInt.natAbs)

/-- DOOR_FORCE.FORCE in 0.1 N (R284) (DESIGN CHOICE, log entry 24). -/
def Chip.doorForce (c : Chip) (d : DoorId) : BitVec 16 :=
  let x := c.doors[d.val]
  let s : Int := if c.setVel (doorAxis d) < 0 then -1 else 1
  fit16 (s * (100 * x.act.kt.toNat * x.iq.toInt - x.act.mass.toNat * c.setAccel (doorAxis d)).tdiv 1000000) 1

/-- DOOR_KE in mJ (R284); beyond 32 bits the manual states none (DESIGN CHOICE, log entry 24). -/
def Chip.doorKe (c : Chip) (d : DoorId) : Word :=
  let x := c.doors[d.val]
  let n := x.act.mass.toNat * x.speed.toInt.natAbs ^ 2 / 20000000000
  if n < 2 ^ 32 then BitVec.ofNat 32 n else Config.openResult 2 n

/-- Lcap of R283, in mA (DESIGN CHOICE, log entry 24). -/
def Chip.currentCap (c : Chip) (d : DoorId) : Nat :=
  let kt := (c.doors[d.val]).act.kt.toNat
  min (c.sps0 (.door 0 d)) (if kt = 0 then (Config.openResult 3 (c.sps0 (.door 1 d))).toNat else c.sps0 (.door 1 d) * 10000 / kt)

/-- L after a run of the speed stage (R283). -/
def Chip.levelAfter (c : Chip) (d : DoorId) (saturated : Bool) : Chip :=
  let cap := c.currentCap d
  c.modDoor d fun x =>
    let base := x.act.base.toNat
    let step := x.act.iboost.toNat
    let l := x.limit.toNat
    let at_ := saturated && l = cap
    if x.st = .homing || x.st = .learning || x.st = .reversing then { x with limit := x.act.base, atCap := at_ }
    else
      { x with
        atCap := at_,
        limit := BitVec.ofNat 16 (if saturated then (if l < cap then min (l + step) cap else l) else max (l - step) base) }

/-! ### The tick boundary of a door -/

/-- Accepted PUTs act; a change of DOOR_MOTOR, DOOR_POLES or DOOR_HALLMAP loses the position (R282, R296). -/
def Door.losesHome (x : Door) : Bool :=
  let a := x.cfg
  let b := x.act
  a.umrev ≠ b.umrev || a.type ≠ b.type || a.cpr ≠ b.cpr || a.poles ≠ b.poles || a.hallOffset ≠ b.hallOffset
    || a.hallInv ≠ b.hallInv || a.hallCycles ≠ b.hallCycles || a.hallCodes ≠ b.hallCodes

/-- The search speed of a homing or learning door, 0 outside both (R293, R294) (DEDUCED, log entry 62). -/
def Chip.searchSpeed (c : Chip) (d : DoorId) : Nat :=
  let x := c.doors[d.val]
  match (c.axes[(doorAxis d).val]).homing, x.learn with
  | some (h, .search), _ => h.speed.toNat * 1000
  | _, some ln => if ln.returning then 0 else x.act.learnSpeed.toNat * 1000
  | _, none => 0

/-- Position, angle and speed latched at cycle 0 (R277, R278, R282) (DESIGN CHOICE, log entry 24). -/
def Door.latch (x : Door) (l ticklen : Nat) : Door :=
  let n := x.turnsAt l
  let pmsm := x.act.type = .pmsm
  let um := (x.act.umrev.toNat : Int)
  let per : Int := if pmsm then 32768 * x.act.poles.toNat else x.act.cpr.toNat
  let den : Int := if pmsm then 3 * x.act.poles.toNat else x.act.cpr.toNat
  let w := (if pmsm then 4096 else 16) * ticklen
  let edges := pruneEdges x.edges l w
  if x.act.type = .none then { x with pos := BitVec.ofInt 32 x.ofs.toInt, speed := 0, angle := 0, angleMode := 0 }
  else
    { x with
      angle := x.angleAt l, angleMode := x.modeAt l, pos := BitVec.ofInt 32 (ratio (n * um) per 4 + x.ofs.toInt),
      speed := if den = 0 then Config.openResult 5 l
        else edgeSpeed edges l w (if pmsm && x.act.hallInv then -um else um) den, edges := edges }

/-- Timers, force, energy and the counts that the rows of Table 13-3 test (R284, R288, R290, R293). -/
def Chip.doorCounts (c : Chip) (d : DoorId) : Chip :=
  let force := c.doorForce d
  let ke := c.doorKe d
  let cap := c.sps.get (.door 2 d)
  let search := c.searchSpeed d
  let sat := (c.loops[(doorLoop d 1).val]).sat
  c.modDoor d fun x =>
    let closing := x.st = .closing || x.st = .nudging
    let high := closing && (match cap with | none => false | some k => decide (k.toNat < ke.toNat))
    let slow := sat && decide (4 * x.speed.toInt.natAbs < search)
    { x with
      force := force, ke := ke, keRun := if high then satInc x.keRun else 0,
      obstRun := if x.act.obstForce.toNat ≤ force.toInt then satInc x.obstRun else 0,
      openTimer := if x.st = .opening || x.st = .reversing then satInc x.openTimer else 0,
      closeTimer := if closing || x.st = .closed then satInc x.closeTimer else 0,
      stallRun := if slow then satInc x.stallRun else 0 }

/-- The boundary of a tick for a door of a car with its islands on: accepted PUTs and requests, the compares latched in the tick
before, the latch, currents and OVERCUR, and the counts; a door that is or was unused stands STOPPED, but for a FAULT, which REQ CLEAR
alone ends, and a leg without a role is low at once (R36, R272 to R274, R276, R285, R291) (DESIGN CHOICE, log entry 83). -/
def Chip.doorBoundary (c : Chip) (d : DoorId) (cur : BitVec 12 × BitVec 12) : Chip :=
  let l := c.stamp 0
  let len := c.lnk.ticklen.toNat
  let sampled := c.sampleStamp d l
  let lost := (c.doors[d.val]).losesHome
  let c1 := (c.note (.hall d (c.doors[d.val]).hallRaw)).modDoor d fun x =>
    let other := x.cfg.type ≠ x.act.type
    let idle := !x.inUse || x.cfg.type = .none
    let x := { x with act := x.cfg, legs := x.legsNext }
    let x : Door := if other then x.seat else x
    let x : Door := if x.clearing && x.st = .fault then { x with st := .stopped, clearing := false, faultActive := false, commAt := none }
      else { x with clearing := false }
    let x := if idle && x.st ≠ .fault then { x with st := .stopped } else x
    if x.act.type = .none then x.gatesLow else if x.act.type = .bdc then x.thirdLow else x
  let theta := (c1.doors[d.val]).sampledAngle sampled
  let cleared := (c.doors[d.val]).clearing && (c.doors[d.val]).st = .fault
  let c2 := (if lost || cleared then c1.modAxis (doorAxis d) fun a => { a with homed := false } else c1).modDoor d fun x =>
    (x.settle l).latch l len
  let x := c2.doors[d.val]
  let iu := inputCurrent x cur.1 x.zeroU
  let iv := inputCurrent x cur.2 x.zeroV
  let c3 := (c2.modDoor d fun x => { x with iq := x.torque iu iv theta }).doorCounts d
  let used := x.act.type ≠ .none
  let high := c3.overCurrent d iu || (x.act.type ≠ .bdc && c3.overCurrent d iv)
  if used && high && c3.running then c3.doorFault d 2 l else c3

/-! ### Fault rows and stalls -/

/-- COMMUTATION_FAULT: RUN has reached 2, be it that a later edge of the same tick has set it back (R279). -/
def runCommutationFault (d : DoorId) (s : State) : State :=
  s.clock fun c => match (c.doors[d.val]).commAt with
    | none => c
    | some stamp => if c.running then (c.modDoor d fun x => { x with commAt := none }).doorFault d 1 stamp else c

/-- DOOR_KE_FAULT: DOOR_KE above KECAP for 4 consecutive ticks (R284). -/
def runDoorKeFault (d : DoorId) (s : State) : State :=
  s.clock fun c => if c.running && decide (4 ≤ (c.doors[d.val]).keRun.toNat) then c.doorFault d 7 (c.stamp 0) else c

/-- A timer has reached its limit; an unset limit is never reached. -/
def Chip.timerDone (c : Chip) (d : DoorId) (m : Fin 6) (ticks : BitVec 24) : Bool :=
  match c.sps.get (.door m d) with
  | none => false
  | some lim => decide (lim.toNat ≤ ticks.toNat) && ticks ≠ 0

/-- OPENT_EXPIRY (R290). -/
def runOpentExpiry (d : DoorId) (s : State) : State :=
  s.clock fun c => if c.running && c.timerDone d 3 (c.doors[d.val]).openTimer then c.doorFault d 4 (c.stamp 0) else c

/-- CLOSET_EXPIRY (R290). -/
def runClosetExpiry (d : DoorId) (s : State) : State :=
  s.clock fun c => if c.running && c.timerDone d 4 (c.doors[d.val]).closeTimer then c.doorFault d 5 (c.stamp 0) else c

/-- A stall at q in a learn: the candidate width, and braking to rest as STOP does (R294) (DEDUCED, log entry 62). -/
def Chip.learnStall (c : Chip) (d : DoorId) : Chip :=
  let c1 := c.modDoor d fun x =>
    let w := x.pos + x.act.homeRef.signExtend 32
    { x with
      learn := x.learn.map fun ln => { ln with candidate := some w },
      learnResult := if w.toInt < x.act.minW.toNat * 4096 then 3 else 2 }
  c1.modAxis (doorAxis d) fun a => a.stop a.working

/-- DOOR_STALL: saturation for STALLT ticks at low speed, while homing or learning (R293, R294) (DEDUCED, log entry 62). -/
def runDoorStall (d : DoorId) (s : State) : State :=
  s.clock fun c =>
    let x := c.doors[d.val]
    if !c.running || x.stallRun.toNat < x.act.stallT.toNat || x.stallRun = 0 then c
    else match (c.axes[(doorAxis d).val]).homing, x.learn with
      | some (h, .search), _ =>
        if h.kind = 3 then c.modAxis (doorAxis d) fun a => { a with homing := some (h, .event x.pos) } else c
      | _, some ln => if ln.returning || ln.candidate.isSome || x.learnResult ≠ 1 then c else c.learnStall d
      | _, none => c

/-- The meaning of HALL_EDGE. -/
def execHallEdge (d : DoorId) (code : BitVec 3) (held : BitVec 8) (cycle : BitVec 14) (s : State) : Out :=
  .next (runHallEdge d code held cycle s)
/-- The meaning of COMMUTATION_FAULT. -/
def execCommutationFault (d : DoorId) (s : State) : Out := .next (runCommutationFault d s)
/-- The meaning of DOOR_KE_FAULT. -/
def execDoorKeFault (d : DoorId) (s : State) : Out := .next (runDoorKeFault d s)
/-- The meaning of OPENT_EXPIRY. -/
def execOpentExpiry (d : DoorId) (s : State) : Out := .next (runOpentExpiry d s)
/-- The meaning of CLOSET_EXPIRY. -/
def execClosetExpiry (d : DoorId) (s : State) : Out := .next (runClosetExpiry d s)
/-- The meaning of DOOR_STALL. -/
def execDoorStall (d : DoorId) (s : State) : Out := .next (runDoorStall d s)

end Sys2Proof.Machine
end

