-- ==== Sys2Proof/Machine/Loops.lean ====
section
/-! DEFINITION. The loop engine: stage wiring (R235), the control law (R236, R237), starts and forcing (R238), supervision (R239
to R241). -/

namespace Sys2Proof.Machine

/-! ### Arithmetic (R236) -/

/-- rnd(x, k): division by 2^k, halves upward. -/
def rnd (x : Int) (k : Nat) : Int := if k = 0 then x else (x + 2 ^ (k - 1)) / 2 ^ k

/-- Clamp to bounds, the lower one prevailing. -/
def clampTo (x lo hi : Int) : Int := max lo (min hi x)

/-- What a stage reads: its reference, feedback, feed-forward and the fixed bounds on its output (Table 11-1). -/
structure Wiring where
  r : Int
  y : Int
  f : Int
  lo : Int
  hi : Int

/-- The wiring of a loop (Table 11-1, R283). -/
def Chip.wiring (c : Chip) (l : LoopId) : Wiring :=
  if 72 ≤ l.val then
    let k := carOfLoop l
    let a := carAxis k
    let b : Int := c.axisBound a 0
    ⟨(c.setPos a).toInt, (c.cars[k.val]).pos.toInt, c.setVel a, -b, b⟩
  else
    let d : DoorId := (doorOfLoop l).getD 0
    let x := c.doors[d.val]
    let a := doorAxis d
    match l.val % 3 with
    | 2 => ⟨(c.setPos a).toInt, x.pos.toInt, c.setVel a, -2000000, 2000000⟩
    | 1 => ⟨c.loopOut (doorLoop d 2), x.speed.toInt, c.setAccel a, -(x.limit.toNat : Int), x.limit.toNat⟩
    | _ => ⟨c.loopOut (doorLoop d 1), x.iq.toInt, x.speed.toInt, -32768, 32767⟩

/-- The formats of R237: input conversion, accumulator width and output shift. -/
structure Format where
  input : Int → Int
  width : Nat
  shift : Nat

/-- The format that the settings select. -/
def LoopCfg.format (x : LoopCfg) : Format :=
  if x.bfp then ⟨satTo 32, 64, x.gexp.toNat⟩
  else ⟨fun v => satTo 16 (rnd v x.insh.toNat), 40, 15 - x.outsh.toNat⟩

/-- The model check of R239: the residual and its run. -/
def Loop.supervise (x : Loop) (y : Int) : Loop :=
  if x.starting || x.act.resBand = 0 then { x with judged := false }
  else
    let yhat := rnd (x.act.modelA.toInt * x.yp + x.act.modelB.toInt * x.up) 24
    let res := y - yhat
    { x with
      judged := true, resRun := if x.act.resBand.toNat < res.natAbs then satInc x.resRun else 0, resLast := clampInt 16 res,
      sig := { x.sig with res := res } }

/-- One run of a loop (R236). With SATMAX unset LOOP_SATCNT.RUN stands at its greatest value once it has come there
(DESIGN CHOICE, log entry 122). -/
def Loop.run (x : Loop) (w : Wiring) : Loop :=
  let x := if x.starting then { x with yp := w.y, up := 0, i := 0 } else x
  let x := { x.supervise w.y with starting := false }
  let q := x.act
  let fm := q.format
  let e := w.r - w.y
  let ee := fm.input e
  let dm := fm.input (x.yp - w.y)
  let ff := fm.input w.f
  let sum := fun a b => satTo fm.width (a + b)
  let ki := q.ki.toInt * ee
  let acc := sum x.i ki
  let p := q.kp.toInt * ee
  let s := sum (sum (sum p acc) (q.kd.toInt * dm)) (q.kff.toInt * ff)
  let u0 := satTo 32 (rnd s fm.shift)
  let u := clampTo (clampTo u0 q.omin.toInt q.omax.toInt) w.lo w.hi
  let hold := decide (u ≠ u0) && decide (ki.sign = (u0 - u).sign)
  let lo := q.imin.toInt * 2 ^ fm.shift
  let hi := q.imax.toInt * 2 ^ fm.shift
  let i := clampTo (if hold then x.i else acc) lo hi
  let term := fun t => satTo 32 (rnd t fm.shift)
  let saturated := decide (u ≠ u0)
  { x with
    yp := w.y, up := u, u := BitVec.ofInt 32 u, i := i, active := true, ran := true, sat := saturated, iHeld := hold,
    iClamp := decide (i = lo) || decide (i = hi),
    satRun := if saturated then satInc x.satRun else 0, satTotal := if saturated then satInc x.satTotal else x.satTotal,
    sig := ⟨w.r, w.y, e, term p, term i, term (q.kd.toInt * dm), term (q.kff.toInt * ff), u, x.sig.res⟩ }

/-- The unit of a loop is in use: a car, or a door whose TYPE is not NONE (R272). -/
def Chip.loopUsed (c : Chip) (l : LoopId) : Bool :=
  if 72 ≤ l.val then true
  else match doorOfLoop l with
    | none => false
    | some d => (c.doors[d.val]).inUse

/-- The loop is due in this tick (R234, R238) (DEDUCED, log entry 69). -/
def Chip.loopDue (c : Chip) (l : LoopId) : Bool :=
  let x := c.loops[l.val]
  c.running && (c.cars[(carOfLoop l).val]).on && c.loopUsed l && x.act.run && !c.loopForced l
    && c.dev.tick.toNat % x.act.div.toNat = 0

/-- What a run of the speed stage of a door does to its current limit (R283). -/
def Chip.afterRun (c : Chip) (l : LoopId) : Chip :=
  if 72 ≤ l.val || l.val % 3 ≠ 1 then c
  else match doorOfLoop l with
    | none => c
    | some d => c.levelAfter d (c.loops[l.val]).sat

/-- The compares that the door power stage latches at cycle 1,280 from the voltage command of the current stage, in force from the first
PWM period that starts after it (R36, R235, R280); a door in FAULT or not in use keeps its gates low (DEDUCED, log entry 66). -/
def Chip.latchDuties (c : Chip) (l : LoopId) : Chip :=
  if 72 ≤ l.val || l.val % 3 ≠ 0 then c
  else match doorOfLoop l with
    | none => c
    | some d =>
      if !c.running || !(c.doors[d.val]).inUse || (c.doors[d.val]).st = .fault then c
      else
        let v := c.legDuties d (c.loopOut l)
        c.modDoor d fun x => { x with legsNext := v }

/-- The place of a loop in the order of the Loop phase: of a door first the position, then the speed, then the current stage, the car
loops last (R235, Table 1-4). -/
def loopSlot (l : LoopId) : Nat := if l.val < 72 then 3 * (l.val / 3) + 2 - l.val % 3 else l.val

/-- LOOP_RUN: the loop's slot. A forced loop starts at its next run (R18, R233 to R239, R280, R283) (DEDUCED, log entry 69). -/
def runLoopRun (l : LoopId) (s : State) : State :=
  s.clock fun c =>
    let n := loopSlot l
    if !c.may (.loop n) then c
    else
      let c0 := c.enter (.loop (n + 1))
      let c1 :=
        if c0.loopForced l then c0.modLoop l Loop.quiet
        else if c0.loopDue l then
          let w := c0.wiring l
          (c0.modLoop l fun x => x.run w).afterRun l
        else c0
      c1.latchDuties l

/-- A loop fault: its door, or its car, faults with LOOP (R241). -/
def Chip.loopFault (c : Chip) (l : LoopId) (code : BitVec 2) : Chip :=
  let c1 := c.modLoop l fun x => { x.quiet with fault := code }
  if 72 ≤ l.val then c1.carFault (carOfLoop l) 12 (c.stamp 256)
  else match doorOfLoop l with
    | none => c1
    | some d => c1.doorFault d 3 (c.stamp 256)

/-- LOOP_MODEL_FAULT: a run of this tick has brought RESCNT.RUN to MAX (R239, R241). -/
def runLoopModelFault (l : LoopId) (s : State) : State :=
  s.clock fun c =>
    let x := c.loops[l.val]
    if c.running && c.may (.loop 84) && x.ran && x.judged && x.fault = 0 && x.resRun = x.act.resMax then c.loopFault l 1 else c

/-- LOOP_SAT_FAULT: a run of this tick has left SATCNT.RUN at SATMAX or above, where it is set; FAULT keeps the code of the first of the
two loop faults that one run meets (R240, R241) (DESIGN CHOICE, log entry 106). -/
def runLoopSatFault (l : LoopId) (s : State) : State :=
  s.clock fun c =>
    let x := c.loops[l.val]
    if c.running && c.may (.loop 84) && x.ran && x.fault = 0 && x.act.satMax ≠ 0 && decide (x.act.satMax.toNat ≤ x.satRun.toNat) then c.loopFault l 2 else c

/-- The boundary of a tick for a loop: accepted PUTs act together; RUN going to 1, a change of format and IRESET make the next
run a start, and a loop that is off presents 0; a fault is cleared where its unit has left the fault state (R234, R235, R238, R241, R242)
(DEDUCED, log entry 69). -/
def Loop.boundary (x : Loop) (off low : Bool) : Loop :=
  let start := x.ireset || (x.cfg.run && !x.act.run) || x.cfg.bfp ≠ x.act.bfp
  let x : Loop := if x.clearFault then { x with fault := 0, resRun := 0, satRun := 0, clearFault := false } else x
  let x : Loop := { x with act := x.cfg, ireset := false, starting := x.starting || start, ran := false, judged := false, lowEnable := low }
  if off || !x.act.run then x.quiet else x

/-- The meaning of LOOP_RUN. -/
def execLoopRun (l : LoopId) (s : State) : Out := .next (runLoopRun l s)
/-- The meaning of LOOP_MODEL_FAULT. -/
def execLoopModelFault (l : LoopId) (s : State) : Out := .next (runLoopModelFault l s)
/-- The meaning of LOOP_SAT_FAULT. -/
def execLoopSatFault (l : LoopId) (s : State) : Out := .next (runLoopSatFault l s)

end Sys2Proof.Machine
end

