-- ==== Sys2Proof/Machine/Interlocks.lean ====
section
/-! DEFINITION. Interlocks: safety chain taps (R297 to R301), the condition word and the matrices (R302 to R306), dynamic enables
(R307, R38), readback (R309 to R311) and the enable pulse test (R312). -/

namespace Sys2Proof.Machine

/-! ### Taps (R297 to R301) -/

/-- A signed error of at most two from a free value (DESIGN CHOICE, log entry 14). -/
def smallError (x : Byte) : Int := (x.toNat % 5 : Nat) - 2

/-- The code of a tap voltage in mV with the conversion error of R297; above 5.0 V it is 255 (R377) (DESIGN CHOICE, log entry 14). -/
def tapCode (mv : BitVec 16) (err : Int) : Byte :=
  if 5000 < mv.toNat then 255
  else BitVec.ofInt 8 (max 0 (min 255 (((min 255 (mv.toNat * 256 / 5000) : Nat) : Int) + err)))

/-- The members of ILK_THWIN: THMIN, THMAX, HYS, TC. -/
structure ThWin where
  lo : Nat
  hi : Nat
  hys : Nat
  tc : Nat

/-- ILK_THWIN of a car, where it is set (DEDUCED, log entry 74). -/
def Chip.thWin (c : Chip) (k : CarId) : Option ThWin :=
  (c.sps.get (.ilk 1 k)).map fun w =>
    ⟨(slice w 16 8).toNat, (slice w 24 8).toNat, (slice w 8 8).toNat, (slice w 0 4).toNat⟩

/-- The latch of a used tap: the decision with hysteresis, or none at a fresh one, then the tracking of its threshold (R299,
R300) (DEDUCED, log entry 74). -/
def Tap.latch (x : Tap) (w : ThWin) (v : Byte) : Tap :=
  let x := if x.tracking then x
    else { x with
      h := BitVec.ofNat 16 (w.hi * 256), lo := BitVec.ofNat 16 (w.lo * 256), t := BitVec.ofNat 8 ((w.lo + w.hi) / 2),
      fresh := true, tracking := true, outWin := false }
  let n := v.toNat
  let t := x.t.toNat
  let high :=
    if x.fresh then decide (t ≤ n)
    else if x.high then !decide ((n : Int) ≤ t - w.hys) else decide (t + w.hys ≤ n)
  let track := fun e : BitVec 16 => BitVec.ofInt 16 ((e.toNat : Int) + ((n : Int) * 256 - e.toNat) / 2 ^ w.tc)
  let h := if high then track x.h else x.h
  let lo := if high then x.lo else track x.lo
  let des := (h.toNat + lo.toNat) / 512
  let inside := w.lo ≤ des && des ≤ w.hi
  { x with
    code := v, high := high, fresh := false, h := h, lo := lo, outWin := !inside,
    t := BitVec.ofNat 8 (if inside then des else if des < w.lo then w.lo else w.hi) }

/-- INPUT_LATCH and TAP_DECISION for one tap (R297 to R301) (DESIGN CHOICE, log entry 14). -/
def Chip.tapLatch (c : Chip) (s : TapId) (mv : BitVec 16) : Chip :=
  let k := carOfTap s
  let b : Byte := BitVec.ofNat 8 (2 ^ (s.val % 8))
  let n := c.free
  let v := tapCode mv (smallError (Config.tapError n))
  let live := decide (5150 + (Config.tapOverVoltage n).toNat % 101 < mv.toNat)
  let x := c.taps[s.val]
  let y : Tap := match (if c.tapUsed s then c.thWin k else none) with
    | none => { x with code := v, tracking := false, outWin := false, high := false }
    | some w => x.latch w v
  let c1 := { c with taps := upd c.taps s fun _ => y }
  let c2 := c1.modIlk k fun i =>
    { i with
      clampLive := if live then i.clampLive ||| b else i.clampLive &&& ~~~b,
      clampSticky := if live then i.clampSticky ||| b else i.clampSticky,
      winTaps := if y.outWin && !x.outWin then i.winTaps ||| b else i.winTaps }
  c2.draw

/-- Tap i of car k is valid on (R301). -/
def Chip.validOn (c : Chip) (k : CarId) (i : Fin 8) : Bool :=
  let s := carTap k i
  c.tapUsed s && c.tapOn s && !(c.taps[s.val]).outWin && !(c.cars[k.val]).ilk.clampSticky.getLsbD i.val

/-! ### The condition word and the matrices (R302 to R305) -/

/-- A word of sixteen conditions, the first at bit 0. -/
def bitsWord (l : List Bool) : BitVec 16 := l.zipIdx.foldl (fun m b => if b.1 then m ||| (1#16 <<< b.2) else m) 0

/-- The lock term of a door: CONF, or not in use (DEDUCED, log entry 75). -/
def Chip.lockTerm (c : Chip) (d : DoorId) : Bool := (c.doors[d.val]).conf || !(c.doors[d.val]).inUse

/-- The condition word of car k (Table 14-1) (DEDUCED, log entry 75). -/
def Chip.condition (c : Chip) (k : CarId) : BitVec 16 :=
  let x := c.cars[k.val]
  let vzone := (slice (BitVec.ofNat 32 (c.sps0 (.ilk 6 k))) 16 10).toNat
  bitsWord (((List.finRange 8).map (c.validOn k)) ++
    [c.lockTerm (frontDoor k), c.lockTerm (rearDoor k), x.zone, decide (x.speed.toInt.natAbs ≤ vzone * 1000), x.speed = 0])

/-- MAIN of a matrix register. -/
def mainMask (w : Word) : BitVec 16 := slice w 0 16
/-- The zone mask with ZONE and ZSLOW always required. -/
def zoneMask (w : Word) : BitVec 16 := slice w 16 16 ||| 0x0C00
/-- A mask's conditions all hold. -/
def maskHolds (c m : BitVec 16) : Bool := c &&& m = m

/-- What an evaluation decides: permits, grants by the zone path alone, ZLOCK, ZEXIT, and for a pulse test a raise whose main path
fails. -/
structure Verdict where
  permit : BitVec 3
  zgrant : BitVec 3
  zlock : Bool
  zexit : Bool
  noMain : Bool

/-- The enables that a running pulse test raises (Table 14-3). -/
def PulseTest.raises (t : PulseTest) : BitVec 3 :=
  if t.result.isSome then 0
  else match t.step.toNat, t.part.toNat with
    | 2, 1 => 4
    | 3, 1 => 1
    | 4, 1 => 1
    | 4, 2 => 3
    | _, _ => 0

/-- The evaluation of the three matrices of a car (R303 to R305, R312) (DEDUCED, log entry 75). -/
def Chip.verdict (c : Chip) (k : CarId) : Verdict :=
  let x := c.cars[k.val]
  let i := x.ilk
  let cw := c.condition k
  let zen := BitVec.ofNat 32 (c.sps0 (.ilk 6 k))
  match c.sps.get (.ilk 1 k), c.sps.get (.ilk 2 k), c.sps.get (.ilk 3 k), c.sps.get (.ilk 4 k), c.sps.get (.ilk 6 k) with
  | some _, some drv, some brk, some door, some _ =>
    let main := fun w => maskHolds cw (mainMask w)
    let cleared := i.zlock && !(main drv && main brk && x.speed = 0)
    let exit := i.zgrant &&& 3 ≠ 0 && !x.zone
    let zlock := cleared || exit
    let zone := fun (w : Word) (en : Bool) => en && x.service = .in_ && !zlock && maskHolds cw (zoneMask w)
    match (match i.test with | some t => if t.result.isSome then none else some t | none => none) with
    | some t =>
      let r := t.raises
      let base := c.running && !i.rbFault
      let pd := base && r.getLsbD 0 && main drv
      let pb := base && pd && i.out.getLsbD 0 && i.rb.getLsbD 0 && r.getLsbD 1 && main brk && x.driveReady
      let po := base && r.getLsbD 2 && main door
      let noMain := (r.getLsbD 0 && !main drv) || (r.getLsbD 1 && !main brk) || (r.getLsbD 2 && !main door)
      ⟨if noMain then 0 else BitVec.ofBool po ++ BitVec.ofBool pb ++ BitVec.ofBool pd, 0, zlock, i.zexit || exit, noMain⟩
    | none =>
      let p := c.presented k
      let moving := x.service = .homing || x.service = .inspect || x.service = .in_
      let fd := c.running && moving && !i.rbFault
      let zd := zone drv (zen.getLsbD 0)
      let zb := zone brk (zen.getLsbD 0)
      let zo := zone door (zen.getLsbD 1)
      let pd := fd && p.getLsbD 0 && (main drv || zd)
      let pb := fd && pd && i.out.getLsbD 0 && i.rb.getLsbD 0 && p.getLsbD 1 && (main brk || zb)
      let po := c.running && x.service ≠ .islandOff && !i.rbFault && p.getLsbD 2 && (main door || zo)
      ⟨BitVec.ofBool po ++ BitVec.ofBool pb ++ BitVec.ofBool pd,
        BitVec.ofBool (po && !main door) ++ BitVec.ofBool (pb && !main brk) ++ BitVec.ofBool (pd && !main drv), zlock,
        i.zexit || exit, false⟩
  | _, _, _, _, _ =>
    let exit := i.zgrant &&& 3 ≠ 0 && !x.zone
    ⟨0, 0, i.zlock || exit, i.zexit || exit, (match i.test with | some t => t.raises ≠ 0 | none => false)⟩

/-- RISE and FALL of ILK_RBTIME, in ticks. -/
def Chip.rise (c : Chip) (k : CarId) : Byte := slice (BitVec.ofNat 32 (c.sps0 (.ilk 5 k))) 24 8
/-- FALL of ILK_RBTIME. -/
def Chip.fall (c : Chip) (k : CarId) : Byte := slice (BitVec.ofNat 32 (c.sps0 (.ilk 5 k))) 16 8

/-- End a running pulse test with an outcome; nothing is raised from then on (R312) (DEDUCED, log entry 73). -/
def Ilk.endTest (i : Ilk) (result : Byte) : Ilk :=
  { i with test := i.test.map fun t => if t.result.isSome then t else { t with result := some result } }

/-- The first cycle of the Close phase (Table 1-4). -/
def Chip.closeCycle (c : Chip) : Nat := c.lnk.ticklen.toNat - 256

/-- MATRIX_EVAL: the matrices of a car, at the first cycle of the Close phase (R303 to R307); where the scan engine has read an
uncorrectable word before that cycle, the device trips first (R338) (DEDUCED, log entry 73). -/
def runMatrixEval (k : CarId) (s : State) : State :=
  s.clock fun c =>
    if !c.may (.close k.val) || !(c.cars[k.val]).on then c
    else if c.running && decide (c.stage.place < 300) && c.scanFails c.closeCycle then c.scanTo s.mem c.closeCycle
    else
      let c := c.enter (.close (k.val + 1))
      let v := c.verdict k
      let rise := c.rise k
      let fall := c.fall k
      let old := (c.cars[k.val]).ilk.permit
      let c1 := c.modIlk k fun i =>
        let i := { i.permitTo v.permit rise fall with zgrant := v.zgrant, zlock := v.zlock, zexit := v.zexit }
        if v.noMain then i.endTest 10 else i
      if v.permit = old then c1 else c1.raiseSee k 7

/-- ENABLE_DECAY: enables that are not pumped, SCK being lost or the permit withdrawn, fall low (R38, R307)
(DESIGN CHOICE, log entry 72). -/
def runEnableDecay (k : CarId) (which : BitVec 3) (s : State) : State :=
  s.act fun c =>
    let stopped := !c.lnk.sckRunning
    c.modIlk k fun i =>
      let pump := if stopped then i.pump &&& ~~~which else i.pump
      { i with pump := pump, pad := i.pad &&& ~~~(which &&& ~~~pump) }

/-! ### Readback (R309 to R311) -/

/-- The latch of pads and readbacks, with the checks of R309 (DEDUCED, log entry 71; DESIGN CHOICE, log entry 72). -/
def Ilk.latch (i : Ilk) (pads readbacks : BitVec 3) : Ilk :=
  let bad := (pads ^^^ i.permit) ||| (readbacks ^^^ i.permit)
  let checked : BitVec 3 :=
    ((List.finRange 3).foldl (fun m (e : Fin 3) => if i.skip[e.val] = 0 then m ||| (1#3 <<< e.val) else m) 0)
  let now := bad &&& checked
  { i with
    pad := pads, out := pads, rb := readbacks, skip := vmap (fun _ n => if n = 0 then n else n - 1) i.skip,
    twice := now &&& i.missed, mismatch := now, missed := now ||| (i.missed &&& ~~~checked) }

/-- A READBACK fault of a car, with the enables that mismatched (R310, R311, R312) (DEDUCED, log entry 71). -/
def Chip.readbackFault (c : Chip) (k : CarId) (which : BitVec 3) : Chip :=
  let code : Byte := match (c.cars[k.val]).ilk.test with
    | none => 0
    | some t => match t.step.toNat with
      | 2 => if t.part = 3 then 2 else 1
      | 3 => if t.part = 3 then 4 else 3
      | 4 => if t.part = 3 then 6 else 5
      | _ => 9
  (c.modIlk k fun i =>
    { i.endTest code with rbFault := true, rbWhich := i.rbWhich ||| which, twice := 0 }).carFault k 8 (c.stamp 0)

/-- READBACK_FAULT: an enable has mismatched at two consecutive checked latches, in RUN or behind a trip, in which the checks go on
(R309, R310) (DEDUCED, log entry 71). -/
def runReadbackFault (k : CarId) (s : State) : State :=
  s.clock fun c =>
    let x := c.cars[k.val]
    if x.on && x.service ≠ .islandOff && x.ilk.twice ≠ 0 then c.readbackFault k x.ilk.twice else c

/-- ILK_RBTIME.PULSE of a car (DEDUCED, log entry 73). -/
def Chip.pulseChecked (c : Chip) (k : CarId) : Bool := (BitVec.ofNat 32 (c.sps0 (.ilk 5 k))).getLsbD 0

/-- The comparison of SAFE_PULSE_RB at a latch in RUN, from the third RUN tick on, with bit 0 of the previous DEV_TICK (R311)
(DEDUCED, log entry 73). -/
def Chip.pulseLatch (c : Chip) (k : CarId) (rb : Bool) : Chip :=
  if !c.running || c.dev.runTicks.toNat < 3 || !c.pulseChecked k then c.modIlk k fun i => { i with pulseRun := 0 }
  else
    let bad := rb ≠ !(c.dev.tick.getLsbD 0)
    c.modIlk k fun i => { i with pulseRun := if bad then satInc i.pulseRun else 0 }

/-- SAFE_PULSE_READBACK_FAULT: two mismatches in a row; every car that takes part and is not ISLAND_OFF stops with READBACK
(R311). -/
def runSafePulseReadbackFault (s : State) : State :=
  s.clock fun c =>
    if !c.running then c
    else foldFin 12 (fun k c =>
      let x := c.cars[k.val]
      if x.on && x.service ≠ .islandOff && c.pulseChecked k && 2 ≤ x.ilk.pulseRun.toNat then
        (c.modIlk k fun i => { i with pulseFault := true, pulseRun := 0 }).readbackFault k 0
      else c) c

/-! ### The enable pulse test (R312) -/

/-- The readbacks and pads that a part of a step waits for: those of the enable raised last (DEDUCED, log entry 73). -/
def PulseTest.watched (t : PulseTest) : BitVec 3 :=
  match t.step.toNat, t.part.toNat with
  | 2, _ => 4
  | 4, 2 => 2
  | 4, 3 => 3
  | _, _ => 1

/-- A step of the pulse test at a latch: a raise lasts until its readback has been high for 2 latches, a withdrawal until pad and
readback have been low for 2 latches, within RISE or FALL ticks (Table 14-3) (DEDUCED, log entry 73). -/
def PulseTest.next (t : PulseTest) (out rb : BitVec 3) (ready : Bool) (rise fall : Byte) (moved : Bool) (pos : Word) :
    PulseTest :=
  let fail := fun n : Byte => { t with result := some n }
  let go := fun (step : BitVec 3) (part : BitVec 2) => { t with step := step, part := part, ticks := 0, good := 0, pos := pos }
  let w := t.watched
  if t.result.isSome then t
  else if t.step = 1 then (if out = 0 && rb = 0 then go 2 1 else fail 9)
  else if t.step = 4 && moved then fail 7
  else if t.step = 4 && t.part = 2 && !ready then fail 8
  else if t.part = 3 then
    let good := if (out ||| rb) &&& w = 0 then satInc t.good else 0
    if 2 ≤ good.toNat then (if t.step = 2 then go 3 1 else if t.step = 3 then go 4 1 else fail 0)
    else if fall.toNat ≤ t.ticks.toNat + 1 then fail (if t.step = 2 then 2 else if t.step = 3 then 4 else 6)
    else { t with good := good, ticks := t.ticks + 1 }
  else
    let good := if rb &&& w = w then satInc t.good else 0
    if 2 ≤ good.toNat then
      (if t.step = 4 && t.part = 1 then (if ready then { go 4 2 with pos := t.pos } else fail 8) else { go t.step 3 with pos := t.pos })
    else if rise.toNat ≤ t.ticks.toNat + 1 then fail (if t.step = 2 then 1 else if t.step = 3 then 3 else 5)
    else { t with good := good, ticks := t.ticks + 1 }

/-- The latch of the enables of a car at a tick boundary: pads, readbacks, checks, and the pulse test in progress. -/
def Chip.enableLatch (c : Chip) (k : CarId) (pads readbacks : BitVec 3) (pulseRb : Bool) : Chip :=
  let x := c.cars[k.val]
  let changed := pads ≠ x.ilk.out || readbacks ≠ x.ilk.rb
  let rise := c.rise k
  let fall := c.fall k
  let win := c.sps0 (.car 4 k)
  let c1 := c.modIlk k fun i =>
    let i := i.latch pads readbacks
    { i with
      test := i.test.map fun t =>
        t.next pads readbacks x.driveReady rise fall (decide (win < (x.pos.toInt - t.pos.toInt).natAbs)) x.pos }
  let c2 := c1.pulseLatch k pulseRb
  if changed then c2.raiseSee k 7 else c2

/-- The meaning of MATRIX_EVAL. -/
def execMatrixEval (k : CarId) (s : State) : Out := .next (runMatrixEval k s)
/-- The meaning of ENABLE_DECAY. -/
def execEnableDecay (k : CarId) (which : BitVec 3) (s : State) : Out := .next (runEnableDecay k which s)
/-- The meaning of READBACK_FAULT. -/
def execReadbackFault (k : CarId) (s : State) : Out := .next (runReadbackFault k s)
/-- The meaning of SAFE_PULSE_READBACK_FAULT. -/
def execSafePulseReadbackFault (s : State) : Out := .next (runSafePulseReadbackFault s)

end Sys2Proof.Machine
end

