-- ==== Sys2Proof/Machine/FrontEnds.lean ====
section
/-! DEFINITION. Sensor front ends: chop samples and offset nulling (R316, R317), the filter (R318), results and their validity
(R319 to R321), curves (R322 to R325), calibration (R326 to R328), the reference trip (R329), and what the car and the doors take
from a result (R269, R286, R291). -/

namespace Sys2Proof.Machine

/-- The channel converts: RUN, its island on, a type other than OFF (R314). -/
def Chip.converts (c : Chip) (x : FeId) : Bool :=
  c.running && (c.cars[(carOfFe x).val]).on && (c.fes[x.val]).act.type ≠ .off

/-- Full scale of a type in FE_RAW units (Table 15-1). -/
def FeType.fullScale : FeType → Int
  | .off => 0
  | .bridge | .rtd | .ntc => 8388607
  | .tc => 6400000

/-- N of Table 15-2. -/
def notchN (sel : BitVec 2) : Nat :=
  match sel.toNat with
  | 0 => 16
  | 1 => 1068
  | _ => 1526

/-- A bridge excitation test runs on the car (R330). -/
def Chip.exciteTest (c : Chip) (k : CarId) : Bool := c.dev.tests.any fun t => t.code = 0x12 && t.car = k

/-- N in force for a channel: 16 for the bridge of a car during an excitation test (R330). -/
def Chip.filterN (c : Chip) (x : FeId) : Nat :=
  if x.val % 4 = 0 && c.exciteTest (carOfFe x) then 16 else notchN (c.fes[x.val]).act.notch

/-- FE_STATUS.FILLED (R321). -/
def Chip.filled (c : Chip) (x : FeId) : Bool := decide (2 * c.filterN x - 1 ≤ (c.fes[x.val]).samples.length)

/-- A voltage at the amplifier's input, in pV, in 1/256 of an FE_RAW unit as a fraction of two integers; none where the channel has no
conversion reference: no positive V(SNP) - V(SNN), in nV, or no IX current (Table 15-1) (DEDUCED, log entry 76). -/
def FeCfg.convert (q : FeCfg) (pv senseNv : Int) : Option (Int × Int) :=
  match q.type with
  | .off => none
  | .bridge => if 0 < senseNv then some (2 ^ 31 * 2 ^ q.gain.toNat * pv, 1000 * senseNv) else none
  | .rtd => match q.ix.toNat with
    | 2 => some (256 * 1024 * pv, 10 ^ 8)
    | 3 => some (256 * 1024 * pv, 10 ^ 9)
    | _ => none
  | .tc => some (256 * 64 * pv, 10 ^ 6)
  | .ntc => match q.ix.toNat with
    | 1 => some (256 * 32 * pv, 10 ^ 7)
    | 2 => some (256 * 32 * pv, 10 ^ 8)
    | _ => none

/-- One trim step, 50 µV referred to the input, in FE_RAW units as a fraction; none where the channel has no conversion
reference (R317, Table 15-1) (DEDUCED, log entry 76). -/
def FeCfg.trimStep (q : FeCfg) : Option (Int × Int) :=
  match q.type with
  | .off => none
  | .bridge => match q.level.toNat with
    | 1 => some (2 ^ 23 * 2 ^ q.gain.toNat * 2, 100000)
    | 2 => some (2 ^ 23 * 2 ^ q.gain.toNat, 100000)
    | _ => none
  | .rtd => match q.ix.toNat with
    | 2 => some (512, 1)
    | 3 => some (512, 10)
    | _ => none
  | .tc => some (3200, 1)
  | .ntc => match q.ix.toNat with
    | 1 => some (160, 1)
    | 2 => some (16, 1)
    | _ => none

/-- What the input trim adds to a half-period sum, in 1/256 of an FE_RAW unit: the same in both halves, so that it changes no result
(R317) (DEDUCED, log entry 76). -/
def Fe.trimShift (f : Fe) : Int :=
  match f.act.trimStep with
  | none => 0
  | some (n, d) => roundAway (256 * n * f.otrim.toInt) d

/-- A half-period sum in 1/256 of an FE_RAW unit with the trim in it, clipped at full scale, and whether it has clipped (R315 to R317,
R320); with no conversion reference the manual states none (DEDUCED, log entry 76). -/
def Fe.halfSum (f : Fe) (pv : BitVec 48) (senseNv : Int) : Int × Bool :=
  let v := pv.toInt
  let full := 256 * f.act.type.fullScale
  let s := f.trimShift + match f.act.convert v senseNv with
    | none => (Config.openResult 21 v).toInt
    | some (n, d) => roundAway n d
  (max (-full) (min full s), decide (full < s.natAbs))

/-- V(SNP) - V(SNN) in the two halves, with the reversal of AC taken out (Table 15-1). -/
def FeCfg.sense (q : FeCfg) (p : ChopSample) : Int × Int :=
  (p.sense[0].toInt, if q.ac then -p.sense[1].toInt else p.sense[1].toInt)

/-- The selected level of the bridge excitation in nV, 0 where it is off (Table 15-1). -/
def FeCfg.levelNv (q : FeCfg) : Int :=
  if q.type ≠ .bridge then 0
  else match q.level.toNat with
    | 1 => 2500000000
    | 2 => 5000000000
    | _ => 0

/-- EXC: with a bridge's excitation on, its sense voltage lies outside 90 % to 102 % of the level (R320). -/
def FeCfg.senseBad (q : FeCfg) (s : Int × Int) : Bool :=
  let l := q.levelNv
  l ≠ 0 && [s.1, s.2].any fun x => decide (100 * x < 90 * l) || decide (102 * l < 100 * x)

/-- OPEN: the IX source runs beyond its compliance of 2.5 V, or the burnout current has driven a thermocouple to overrange (R315, R320). -/
def FeCfg.openInput (q : FeCfg) (ixMv : BitVec 16) (clipped : Bool) : Bool :=
  match q.type with
  | .rtd | .ntc => q.ix ≠ 0 && decide (2500 < ixMv.toNat)
  | .tc => q.burn && clipped
  | .off | .bridge => false

/-- CM: a signal input lies outside 0.20 V to VANA - 0.50 V, or a bridge's sense input outside 0 to VANA + 0.10 V (R320, R378). -/
def FeCfg.outOfCommon (q : FeCfg) (pins : Vector (BitVec 16 × BitVec 16) 4) (vanaMv : BitVec 16) : Bool :=
  let out := fun (lo hi : Int) (p : BitVec 16 × BitVec 16) => decide (p.1.toInt < lo) || decide ((vanaMv.toNat : Int) + hi < p.2.toInt)
  out 200 (-500) pins[0] || out 200 (-500) pins[1] || (q.type = .bridge && (out 0 100 pins[2] || out 0 100 pins[3]))

/-- The admission cycle count in the present tick at which a chop sample ends, where one does (R316). -/
def Chip.chopEnd (c : Chip) : Option Nat :=
  let lo := c.stamp 0
  let e := 16384 * max 1 ((lo + 16383) / 16384)
  if e < lo + c.lnk.ticklen.toNat then some e else none

/-- CHOP_SAMPLE: the chop sample that ends in this tick enters the filter and the offset average, with its clamps (R35, R315 to R317, R320)
(DEDUCED, log entry 76). -/
def runChopSample (x : FeId) (p : ChopSample) (s : State) : State :=
  s.clock fun c => match c.chopEnd with
    | none => c
    | some e =>
      if !c.converts x || (c.fes[x.val]).chopAt = e then c
      else c.modFe x fun f =>
        let q := f.act
        let v := q.sense p
        let plus := f.halfSum p.plus v.1
        let minus := f.halfSum p.minus v.2
        let d := plus.1 - minus.1
        let clipped := plus.2 || minus.2
        let ovr := clipped || decide (98 * 2 * 256 * q.type.fullScale < 100 * (d.natAbs : Int))
        let clamp := BitVec.ofBool (q.outOfCommon p.pins c.pwr.railMv[3]) ++ BitVec.ofBool (q.senseBad v)
          ++ BitVec.ofBool (q.openInput p.ixMv clipped) ++ BitVec.ofBool ovr
        { f with
          live := clamp, sticky := f.sticky ||| clamp, chopAt := e,
          samples := ((d, clamp, e) :: f.samples).take (2 * 1526 + 2),
          ofsSum := if f.ofsCount.toNat < 1024 then f.ofsSum + (plus.1 + minus.1) else f.ofsSum,
          ofsCount := if f.ofsCount.toNat < 1024 then f.ofsCount + 1 else f.ofsCount }

/-- OFFSET_TRIM: 1,024 offset estimates have been averaged; the trim moves one step toward nulling them, within ±127 (R317)
(DEDUCED, log entry 76). -/
def runOffsetTrim (x : FeId) (s : State) : State :=
  s.clock fun c =>
    let f := c.fes[x.val]
    if !c.converts x || f.ofsCount.toNat < 1024 then c
    else c.modFe x fun f =>
      let sum := f.ofsSum
      let f := { f with ofsSum := 0, ofsCount := 0 }
      match f.act.trimStep with
      | none => f
      | some (n, d) =>
        if (sum.natAbs : Int) * d ≤ 256 * 2048 * n then f
        else
          let next := f.otrim.toInt - sum.sign
          if 127 < next.natAbs then { f with ofsEdge := true } else { f with otrim := BitVec.ofInt 8 next }

/-! ### Results (R318 to R321) -/

/-- Ticks between due results (R319). -/
def FeCfg.period (q : FeCfg) : Nat := (if q.type = .bridge then 8 else 64) * q.rate.toNat

/-- The samples that the result latched in this tick is formed from, latest first: those that ended at or before cycle 0 of the
tick before (R319) (DEDUCED, log entry 76). -/
def Chip.usable (c : Chip) (f : Fe) : List (Int × BitVec 4 × Nat) :=
  f.samples.dropWhile fun s => decide (c.stamp 0 < s.2.2 + c.lnk.ticklen.toNat)

/-- Two cascaded moving averages of N over 2N - 1 samples that are 512 times the chop samples (R318). -/
def filterOut (n : Nat) (l : List Int) : Int :=
  let sum : Int := l.zipIdx.foldl (fun (a : Int) s => a + s.1 * (min (s.2 + 1) (2 * n - 1 - s.2) : Nat)) 0
  roundAway sum (512 * n * n)

/-- FE_RAW within the range of its type (Table 15-1). -/
def FeType.rawRange (t : FeType) (x : Int) : BitVec 24 :=
  match t with
  | .off | .bridge => clampInt 24 x
  | .rtd | .ntc => BitVec.ofInt 24 (max 0 (min 8388607 x))
  | .tc => BitVec.ofInt 24 (max (-6400000) (min 6400000 x))

/-- The compensation value and whether it is good: none needed reads 0 (R325). -/
def Chip.compensation (c : Chip) (x : FeId) : Option Int :=
  let src := (c.fes[x.val]).act.src.toNat
  if src = 7 then some 0
  else if src = 4 then some c.dev.tempPrev.toInt
  else match fin? 4 src with
    | none => none
    | some i =>
      let y := carFe (carOfFe x) i
      let g := c.fes[y.val]
      if y = x || (g.act.type ≠ .rtd && g.act.type ≠ .ntc) || !g.prevValid then none else some g.prevValue.toInt

/-- The NONE curve before it enters its register (Table 15-3) (DESIGN CHOICE, log entry 24). -/
def bridgeValue (q : FeCfg) (raw : Int) : Int := roundAway ((raw - q.zero.toInt) * q.span.toInt) (2 ^ 24)

/-- A signed 32-bit value; outside the range the manual states none (DESIGN CHOICE, log entry 24). -/
def fit32 (x : Int) (place : Nat) : Word :=
  if -(2 ^ 31) ≤ x ∧ x ≤ 2 ^ 31 - 1 then BitVec.ofInt 32 x else Config.openResult place x

/-- The IEC 60751 function times 10^23 at t hundredths of a degree, for R0 = 1 (Table 15-3). -/
def platinum (t : Int) : Int :=
  10 ^ 23 + 39083 * 10 ^ 14 * t - 5775 * 10 ^ 9 * t ^ 2 - (if t < 0 then 4183 * (t - 10000) * t ^ 3 else 0)

/-- One of the integers within two of n ÷ d, for d above 0: the curves are evaluated to within ±2 units, as fixed functions of their
inputs (R322) (DESIGN CHOICE, log entry 18). -/
def within2 (curve : BitVec 4) (input n d : Int) : Int :=
  let lo := -((2 * d - n) / d)
  let hi := (n + 2 * d) / d
  lo + (Config.curveError curve input).toNat % (hi - lo + 1)

/-- The greatest t from lo on, in n halvings of a width 2^n, with a rising function at or below r. -/
def greatestBelow (f : Int → Int) (r : Int) : Nat → Int → Int
  | 0, lo => lo
  | n + 1, lo => greatestBelow f r n (if f (lo + 2 ^ n) ≤ r then lo + 2 ^ n else lo)

/-- The inverse of a rising function over -200 °C to +327.67 °C within two units; absent outside (R322) (DESIGN CHOICE, log entry 18). -/
def inverseCurve (curve : BitVec 4) (f : Int → Int) (r input : Int) : Option Int :=
  if r < f (-20000) ∨ f 32767 < r then none
  else
    let t := greatestBelow f r 16 (-20000)
    some (if f t = r then within2 curve input t 1 else within2 curve input (2 * t + 1) 2)

/-- Curves 1 and 2: the IEC 60751 inverse (R322) (DESIGN CHOICE, log entry 18). -/
def platinumValue (curve : BitVec 4) (r0 raw : Int) : Option Int :=
  inverseCurve curve (fun t => platinum t * (1024 * r0)) (raw * 10 ^ 23) raw

/-- Curves 3 to 5: the temperature at which E equals e + E(t_cj), with both temperatures in range (R321, R324); the input of the curve
holds its two operands (DESIGN CHOICE, log entry 18; PRESUMED, log entry 107). -/
def thermoValue (curve : BitVec 4) (e tcj : Int) : Option Int :=
  if tcj < -20000 ∨ 32767 < tcj then none
  else inverseCurve curve (thermoEmf curve) (e * 2 ^ 32 + thermoEmf curve tcj) (e * 2 ^ 16 + tcj)

/-- A coefficient times 2^96 (R323). -/
def Coef.scaled (k : Coef) : Int := k.m.toInt * 2 ^ (k.e.toInt + 96).toNat

/-- Curve 6: 100 × (T - 273.15) with T = 1 ÷ (A + B × L + C × L³) and L = ln(raw ÷ 32); a sum of 0 has no temperature (R323)
(DESIGN CHOICE, log entry 18). -/
def ntcValue (curve : BitVec 4) (coefs : List Coef) (raw : Int) : Option Int :=
  let l := lnExact raw.toNat 5
  match coefs.map Coef.scaled with
  | [a, b, c] =>
    let sum := a * 2 ^ 768 + b * l * 2 ^ 512 + c * l ^ 3
    if sum = 0 then none else some (within2 curve raw (sum.sign * (100 * 2 ^ 864 - 27315 * sum)) sum.natAbs)
  | _ => none

/-- The POLY curve, formed exactly and rounded once (R323) (DESIGN CHOICE, log entry 18). -/
def polyValue (coefs : List Coef) (y t : Int) : Int :=
  let sum := coefs.zipIdx.foldl (fun a k => a + k.1.scaled * y ^ (k.2 % 4) * t ^ (k.2 / 4)) 0
  roundAway sum (2 ^ 96)

/-- A temperature lies in its register's range. -/
def tempRange (v : Int) : Option Word := if -32768 ≤ v && v ≤ 32767 then some (BitVec.ofInt 32 v) else none

/-- FE_VALUE of a raw value, absent where the curve or its inputs are out of range (R321 to R325)
(DESIGN CHOICE, log entry 18). -/
def Chip.curve (c : Chip) (x : FeId) (raw : Int) : Option Word :=
  let f := c.fes[x.val]
  let q := f.act
  match q.curve.toNat with
  | 0 => some (fit32 (bridgeValue q raw) 6)
  | 1 => (platinumValue q.curve 100 raw).bind tempRange
  | 2 => (platinumValue q.curve 1000 raw).bind tempRange
  | 3 | 4 | 5 =>
    if q.src = 7 then none
    else (c.compensation x).bind fun t => (thermoValue q.curve (raw - q.zero.toInt) t).bind tempRange
  | 6 => if raw < 32 || f.form ≠ 2 then none
    else (ntcValue q.curve f.coefs raw).bind tempRange
  | 7 => if f.form ≠ 1 then none
    else (c.compensation x).map fun t => BitVec.ofInt 32 (satTo 32 (polyValue f.coefs (bridgeValue q raw) t))
  | _ => none

/-- LOAD_UPDATE: the car takes a bridge result (R269). -/
def Chip.loadUpdate (c : Chip) (k : CarId) (value : Word) (valid : Bool) : Chip :=
  let load : BitVec 16 := BitVec.ofInt 16 (max 0 (min 65535 value.toInt))
  let lim := c.sps.get (.car 8 k)
  let c1 := c.modCar k fun x =>
    let top := match lim with
      | none => false
      | some w => decide ((slice w 0 16).toNat ≤ load.toNat)
    let below := match lim with
      | none => true
      | some w => decide (load.toNat + (slice w 16 16).toNat < (slice w 0 16).toNat)
    { x with
      load := load, loadValid := valid, overload := if top && valid then true else if below || !valid then false else x.overload }
  if (c1.cars[k.val]).service = .in_ && !valid then c1.carFault k 9 (c.stamp 0) else c1

/-- A door takes the result of its temperature channel (R286, R291) (DEDUCED, log entry 59). -/
def Chip.doorTemp (c : Chip) (d : DoorId) (value : Word) (valid : Bool) : Chip :=
  let lim := c.sps.get (.door 5 d)
  let at_ := fun k : Nat => match lim with
    | none => false
    | some w => valid && decide ((slice w k 16).toInt ≤ value.toInt)
  let bad := !valid || at_ 16
  let hot := at_ 0
  let crossed := hot && !(c.doors[d.val]).hot
  let c1 := c.modDoor d fun x =>
    { x with
      tempSeen := x.tempSeen || valid, hot := hot, tempBad := if bad then true else if !hot then false else x.tempBad }
  let c2 := if crossed then c1.raiseSee (carOfDoor d) 8 else c1
  if bad then c2.doorFault d 8 (c.stamp 0) else c2

/-- What a result means to the car or the door that uses the channel. -/
def Chip.useResult (c : Chip) (x : FeId) (value : Word) (valid : Bool) : Chip :=
  let k := carOfFe x
  match x.val % 4 with
  | 0 => c.loadUpdate k value valid
  | 1 => c.doorTemp (frontDoor k) value valid
  | 2 => c.doorTemp (rearDoor k) value valid
  | _ => c

/-- FE_RESULT: a due result is formed, validated and latched, once in its tick and before its first packet executes (R18, R19, R319 to
R325, R327)
(DESIGN CHOICE, log entry 25; DEDUCED, log entry 76). -/
def runFeResult (x : FeId) (s : State) : State :=
  s.clock fun c =>
    let f := c.fes[x.val]
    let k := carOfFe x
    if !c.latching || f.resultAt = some c.dev.tick || !c.converts x || f.act.period = 0 || c.dev.tick.toNat % f.act.period ≠ 0 then c
    else
      let n := c.filterN x
      let window := (c.usable f).take (2 * n - 1)
      let full := decide (window.length = 2 * n - 1)
      let raw : BitVec 24 := if full then f.act.type.rawRange (filterOut n (window.map fun s => s.1)) else (Config.openWord c.free).setWidth 24
      let clean := window.all fun s => s.2.1 = 0
      let bridge := f.act.type ≠ .bridge || (f.act.zset && f.act.span ≠ 0)
      let value := if full && clean && bridge && !(x.val % 4 = 0 && c.exciteTest k) then c.curve x raw.toInt else none
      let c1 := ((c.note (.result x raw)).modFe x fun f =>
        { f with raw := raw, value := value.getD f.value, valid := value.isSome, resultAt := some c.dev.tick }).raiseSee k 9
      let c2 := c1.modCal k fun g =>
        { g with
          running := g.running.map fun r =>
            if r.item.channel = x && r.results.length < f.act.win.toNat && r.start ≠ c.dev.tick then
              { r with results := (if value.isSome then some raw else none) :: r.results }
            else r }
      let c3 := if full then c2 else c2.draw
      c3.useResult x (c3.fes[x.val]).value value.isSome

/-- REFERENCE_TRIP: the differences of the two references in 16 consecutive chopper periods, in parts per million, all lie above 0.1 %
(R329). -/
def runReferenceTrip (ppm : Vector (BitVec 20) 16) (cycle : BitVec 14) (s : State) : State :=
  s.clock fun c =>
    if c.dev.state = .dark || c.dev.state = .hunt || ppm.toList.any (fun d => decide (d.toNat ≤ 1000)) then c else c.trip 9 0x130 cycle

/-! ### Calibration (R326 to R328) -/

/-- A calibration of the channel is queued or running. -/
def Chip.calPending (c : Chip) (x : FeId) : Bool :=
  let g := c.cals[(carOfFe x).val]
  g.queue.any (fun i => i.channel = x) || (g.running.map fun r => decide (r.item.channel = x)).getD false

/-- CAL (R190, R326). -/
def bodyCal : Body := fun x _ c =>
  let kind := (immBits x.f.imm 8 2).toNat
  let ref := regOf x.w x.f.d
  let illegal := x.f.a ≠ 0 || x.f.m ≠ 0
  match fin? 48 (immBits x.f.imm 0 6).toNat with
  | none => { illegal := illegal, checks := [(c.lacks x.who 4, .denied), (true, .range)], queue := none, act := fun c => reply .range c }
  | some ch =>
    let k := carOfFe ch
    let ty := (c.fes[ch.val]).act.type
    let wrong := match kind with
      | 0 => decide (ref ≠ 0) || !(ty = .bridge || ty = .tc || ty = .off)
      | 1 => decide (ref = 0) || !(ty = .bridge || ty = .off)
      | _ => true
    { illegal := illegal,
      checks :=
        [(c.lacks x.who 4, .denied), (!c.mayAct x.who k, .denied), (x.f.imm &&& 0xFCC0 ≠ 0 || wrong, .range),
          (!(c.cars[k.val]).on || ty = .off || c.exciteTest k, .state), (c.queueFree (.cals k) = 0 || c.noCredit x.who, .full)],
      queue := some (.cals k),
      act := fun c =>
        let credit := if x.who.isHost then some c.nextCredit else none
        let c1 := if x.who.isHost then c.takeCredit x.who.sid x.who.seat else c
        reply .queued (c1.modCal k fun g =>
          { g with queue := g.queue ++ [⟨ch, kind = 1, ref, x.who.producer, credit⟩] }) }

/-- An immediate with the kind in bits 9 and 8 fixed by the row. -/
def fixKind (f : Enc) (kind : BitVec 16) : Enc := { f with imm := (f.imm &&& 0xFCFF) ||| (kind <<< 8) }

/-- CAL of kind zero. -/
def runCalZero (i : Issuer) (f : Enc) (s : State) : State := issue i 0x32 (fixKind f 0) 6 bodyCal s
/-- CAL of kind span. -/
def runCalSpan (i : Issuer) (f : Enc) (s : State) : State := issue i 0x32 (fixKind f 1) 6 bodyCal s

/-- The boundary of a tick for a group: the calibration that stands at the head of its queue, with none running, may start (R326). -/
def CalGroup.boundary (g : CalGroup) : CalGroup := { g with ready := !g.queue.isEmpty && g.running.isNone }

/-- CAL_START: the calibration at the head of its group's queue starts at the tick boundary after it has reached that place (R326). -/
def runCalStart (g : CarId) (s : State) : State :=
  s.clock fun c =>
    let q := c.cals[g.val]
    match q.queue with
    | [] => c
    | i :: rest =>
      if !c.running || !q.ready || !c.may .host || q.running.isSome || !(c.cars[g.val]).on then c
      else
        (c.modCal g fun _ => ⟨rest, false, some ⟨i, c.dev.tick, []⟩⟩).modFe i.channel fun f => { f with calRes := 1 }

/-- A calibration ends with an outcome: JOBDONE, its place and its credit (R159, R161, R327) (DEDUCED, log entry 77). -/
def Chip.calEnd (c : Chip) (g : CarId) (r : CalRun) (code : BitVec 4) : Chip :=
  let c1 := (c.modCal g fun q => { q with running := none }).modFe r.item.channel fun f => { f with calRes := code }
  ((c1.release r.item.credit).jobDone r.item.producer).placeFreed (.cals g)

/-- What a full window decides: the refusal code, or the new value (R327). -/
def calDecision (q : FeCfg) (item : CalItem) (results : List (Option (BitVec 24))) : Except (BitVec 4) Int :=
  let vs := results.filterMap fun r => r.map BitVec.toInt
  if vs.length < results.length then .error 3
  else
    let hi := vs.foldl max (vs.headD 0)
    let lo := vs.foldl min (vs.headD 0)
    if (q.pp.toNat : Int) < hi - lo then .error 4
    else
      let m := roundAway (vs.foldl (· + ·) 0) vs.length
      if item.span then
        let d := m - q.zero.toInt
        let s := if d = 0 then 0 else roundAway (item.ref.toInt * 2 ^ 24 * d.sign) d.natAbs
        if d.natAbs < 65536 || s = 0 || s < -(2 ^ 31) || 2 ^ 31 ≤ s then .error 5
        else if q.span ≠ 0 && decide ((q.sband.toNat : Int) * q.span.toInt.natAbs < (s - q.span.toInt).natAbs * 65536) then .error 6
        else .ok s
      else if q.zset && decide (16 * (q.zband.toNat : Int) < (m - q.zero.toInt).natAbs) then .error 6
      else .ok m

/-- CAL_DECIDE: the window of the running calibration is full (R327) (DEDUCED, log entry 77). -/
def runCalDecide (g : CarId) (s : State) : State :=
  s.clock fun c => match (c.cals[g.val]).running with
    | none => c
    | some r =>
      let f := c.fes[r.item.channel.val]
      let q := f.act
      if !c.running || r.results.length < q.win.toNat then c
      else match calDecision q r.item r.results with
        | .error code => c.calEnd g r code
        | .ok v =>
          let old : Word := if r.item.span then q.span else q.zero.signExtend 32
          let c1 := (c.calEnd g r 2).modFe r.item.channel fun f =>
            { f with
              cfg := if r.item.span then { f.cfg with span := BitVec.ofInt 32 v }
                else { f.cfg with zero := BitVec.ofInt 24 v, zset := true } }
          c1.record 136 (some g)
            ([BitVec.ofNat 8 r.item.channel.val, if r.item.span then 1 else 0] ++ bytesBE old 4 ++ bytesBE (BitVec.ofInt 32 v) 4)

/-- CAL_TIMEOUT: WIN + 8 result periods have passed (R328). -/
def runCalTimeout (g : CarId) (s : State) : State :=
  s.clock fun c => match (c.cals[g.val]).running with
    | none => c
    | some r =>
      let q := (c.fes[r.item.channel.val]).act
      if c.running && decide ((q.win.toNat + 8) * q.period ≤ (c.dev.tick - r.start).toNat) then c.calEnd g r 7 else c

/-- The boundary of a tick for a channel: accepted PUTs act; a change of TYPE, GAIN, EXCITE or NOTCH empties the filter; the
values that compensation reads (R321, R323, R325, R331) (DEDUCED, log entry 76; DEDUCED, log entry 77). -/
def Fe.boundary (f : Fe) : Fe :=
  let a := f.cfg
  let b := f.act
  let fresh := a.type ≠ b.type || a.gain ≠ b.gain || a.burn ≠ b.burn || a.ac ≠ b.ac || a.ix ≠ b.ix || a.level ≠ b.level
    || a.notch ≠ b.notch
  let f := if fresh then { f with samples := [] } else f
  let f := match f.coefsNext with
    | none => f
    | some (form, l) => { f with form := form, coefs := l, coefsNext := none }
  { f with act := f.cfg, prevValue := f.value, prevValid := f.valid }

/-- The meaning of CHOP_SAMPLE. -/
def execChopSample (x : FeId) (p : ChopSample) (s : State) : Out := .next (runChopSample x p s)
/-- The meaning of OFFSET_TRIM. -/
def execOffsetTrim (x : FeId) (s : State) : Out := .next (runOffsetTrim x s)
/-- The meaning of FE_RESULT. -/
def execFeResult (x : FeId) (s : State) : Out := .next (runFeResult x s)
/-- The meaning of REFERENCE_TRIP. -/
def execReferenceTrip (r : ReferenceRun) (s : State) : Out := .next (runReferenceTrip r.ppm r.cycle s)
/-- The meaning of CAL_ZERO. -/
def execCalZero (i : Issuer) (f : Enc) (s : State) : Out := .next (runCalZero i f s)
/-- The meaning of CAL_SPAN. -/
def execCalSpan (i : Issuer) (f : Enc) (s : State) : Out := .next (runCalSpan i f s)
/-- The meaning of CAL_START. -/
def execCalStart (g : CarId) (s : State) : Out := .next (runCalStart g s)
/-- The meaning of CAL_DECIDE. -/
def execCalDecide (g : CarId) (s : State) : Out := .next (runCalDecide g s)
/-- The meaning of CAL_TIMEOUT. -/
def execCalTimeout (g : CarId) (s : State) : Out := .next (runCalTimeout g s)

end Sys2Proof.Machine
end

