-- ==== Sys2Proof/Machine/Scan.lean ====
section
/-! DEFINITION. The scan engine: check values (R332, R333), scan jobs (R335 to R341) and the background scrub with its self-tests
(R342 to R344). -/

namespace Sys2Proof.Machine

/-! ### Jobs (R335 to R340) -/

/-- The bytes of a space (Table 8-8). -/
def spaceSize (space : BitVec 2) : Nat :=
  match space.toNat with
  | 0 => 0x30000
  | 1 => 0x3F000
  | 2 => 0x8000
  | _ => 0

/-- n bytes of a space from a byte address (R335). -/
def Mems.spaceBytes (m : Mems) (space : BitVec 2) (a n : Nat) : List Byte :=
  match space.toNat with
  | 0 => m.ram.bytes a n
  | 1 => m.prog.bytes a n
  | _ => m.cam.bytes a n

/-- A run of data RAM bytes lies within the doorbell and mailbox regions of one bank (R335). -/
def hostScanRange (a n : Nat) : Bool :=
  decide (0xA000 ≤ a % 0xC000) && a / 0xC000 = (a + n - 1) / 0xC000

/-- CRCJOB (R190, R335 to R337, R340). -/
def bodyCrcjob : Body := fun x _ c =>
  let ck : CkId := (immBits x.f.imm 0 3).toFin
  let space := immBits x.f.imm 4 2
  let a := (regOf x.w x.f.d).toNat
  let n := (regOf x.w x.f.a).toNat
  let q := (c.scan.cks[ck.val]).cfg
  let total := n + q.extraRead + q.appended
  let range := space = 3 || x.f.imm &&& 0xFFC8 ≠ 0 || n = 0 || decide (spaceSize space < a + total)
    || (q.mode = 1 && space ≠ 0)
    || (space = 0 && (match x.who with
      | .host _ _ _ => !hostScanRange a total
      | .thread t => !(List.range q.appended).all fun i => threadMayWrite t (a + n + i)))
  { illegal := x.f.m ≠ 0,
    checks := [(c.lacks x.who 3, .denied), (range, .range), (c.queueFree .scan = 0 || c.noCredit x.who, .full)],
    queue := some .scan,
    act := fun c =>
      let credit := if x.who.isHost then some c.nextCredit else none
      let c1 := if x.who.isHost then c.takeCredit x.who.sid x.who.seat else c
      let start := BitVec.ofNat 18 a
      let job : ScanJob :=
        ⟨ck, q, space, start, BitVec.ofNat 19 n, x.who.producer, credit, c.dev.tick, c.startedAt x.who 6⟩
      reply .queued { c1 with
        scan := { c1.scan with
          queue := c1.scan.queue ++ [job],
          cks := upd c1.scan.cks ck fun y => { y with space := space, start := start } } } }

/-- CRCJOB. -/
def runCrcjob (i : Issuer) (f : Enc) (s : State) : State := issue i 0x31 f 6 bodyCrcjob s

/-! ### The engine (R338 to R340) -/

/-- The cycle of the present tick in which the running job ends where the tick is long enough (R338). -/
def Chip.scanEnd (c : Chip) (r : ScanRun) : Nat := c.scan.cycle + (r.job.readCycles - r.spent)

/-- The engine has a cycle in the present tick. -/
def Chip.scanIn (c : Chip) (cycle : Nat) : Bool := decide (cycle < c.lnk.ticklen.toNat)

/-- The engine works behind the Host and Profile phases of its tick (R18, R338). -/
def Chip.atEngine (c : Chip) : Chip := if c.stage.place ≤ Stage.thread.place then c.enter .thread else c

/-- The first cycle of the present tick at which a queued job may start: the engine is free, and the job has been accepted in a cycle
before (R338). -/
def Chip.scanStartCycle (c : Chip) (j : ScanJob) : Nat :=
  if j.tick = c.dev.tick then max c.scan.cycle (j.cycle + 1) else c.scan.cycle

/-- SCAN_JOB_START: the job at the head of the queue starts where the engine is free (R338, R341). -/
def runScanJobStart (s : State) : State :=
  s.clock fun c => match c.scan.queue with
    | [] => c
    | j :: r =>
      let at_ := c.scanStartCycle j
      if !c.running || c.changeDue || c.scan.running.isSome || !c.scanIn at_ then c
      else
        let reg := j.cfg.start (c.scan.cks[j.ck.val]).val
        let c1 : Chip :=
          { c.atEngine with scan := { c.scan with queue := r, running := some ⟨j, c.dev.tick, reg, 0, []⟩, cycle := at_ } }
        c1.modCk j.ck fun y => { y with done := 0 }

/-- A job ends: its channel's counts, its place, its credit and JOBDONE (R159, R161, R338) (DEDUCED, log entry 78). -/
def Chip.endJob (c : Chip) (j : ScanJob) (f : Ck → Ck) : Chip :=
  let c1 := ({ c with scan := { c.scan with running := none } }).modCk j.ck fun y => { f y with jobs := y.jobs + 1 }
  ((c1.release j.credit).jobDone j.producer).placeFreed .scan

/-- A data RAM word with bytes appended from a byte address on (R337). -/
def appendWord (w : Word) (a : Nat) (out : List (Nat × Byte)) : Word :=
  (List.range 4).foldl (fun w i => match out.find? fun b => b.1 = a + i with
    | none => w
    | some b => (w &&& ~~~((0xFF : Word) <<< (8 * i))) ||| (b.2.setWidth 32 <<< (8 * i))) w

/-- The words that appended bytes lie in. -/
def appendedWords (a n : Nat) : List Nat := if n = 0 then [] else (List.range ((a + n - 1) / 4 - a / 4 + 1)).map fun i => (a / 4 + i) * 4

/-- The writes of a word's value: a word of which every byte is appended is written whole, another byte by byte (R342). -/
def appendWrites (w : Nat) (v : Word) (out : List (Nat × Byte)) : List MemWrite :=
  if (List.range 4).all fun i => out.any fun b => b.1 = w + i then [.ram w v]
  else (List.range 4).map fun i => .ramByte (w + i) (slice v (8 * i) 8)

/-- An APPEND writes its check value in a cycle, before any cluster's write to the same word in it, and rings (R148, R337, R338). -/
def State.append (s : State) (a : Nat) (bytes : List Byte) (cycle : Nat) (c : Chip) : State :=
  let out := bytes.zipIdx.map fun b => (a + b.2, b.1)
  let words := appendedWords a bytes.length
  let c1 := words.foldl (fun c w => c.logRam s.mem ⟨w, cycle, 0, appendWord (c.ramSeen s.mem w cycle) w out⟩) c
  s.with (words.flatMap fun w => appendWrites w (c1.ramStands s.mem w) out) (words.foldl Chip.ring c1)

/-- SCAN_JOB_DONE: the result of the running job is written in its last cycle, where that lies in the present tick (R332, R333, R337,
R338). -/
def runScanJobDone (s : State) : State :=
  match s.chip.scan.running with
  | none => s
  | some r =>
    let last := s.chip.scanEnd r
    if !s.chip.running || !s.chip.lnk.sckRunning || s.chip.changeDue || !s.chip.scanIn last then s
    else
      let c := s.chip.atEngine.scanTo s.mem last
      match c.scan.running with
      | none => s
      | some r =>
        if !c.running then { s with chip := c }
        else
          let j := r.job
          let q := j.cfg
          let v := q.finish r.reg
          let pass := r.expected = q.bytes v
          let c1 := c.endJob j fun y =>
            { y with
              val := v, done := BitVec.ofNat 18 j.reads, outcome := if q.mode ≠ 2 then 1 else if pass then 2 else 3,
              fails := if q.mode = 2 && !pass then satInc y.fails else y.fails }
          let c2 : Chip := { c1 with scan := { c1.scan with cycle := last + 1 } }
          s.append (j.start.toNat + j.len.toNat) (if q.mode = 1 then q.bytes v else []) last c2

/-- The engine cycles of a tick (R338). -/
def Chip.scanCycles (c : Chip) : Nat := c.lnk.ticklen.toNat - 1536

/-- SCAN_JOB_TIMEOUT: the limit of R339 has passed since the start of the running job (DEDUCED, log entry 78). -/
def runScanJobTimeout (s : State) : State :=
  s.clock fun c => match c.scan.running with
    | none => c
    | some r =>
      let need := r.job.readCycles + 1
      let limit := (need + c.scanCycles - 1) / c.scanCycles + 1
      if c.running && decide (limit ≤ (c.dev.tick - r.start).toNat) then c.endJob r.job fun y => { y with outcome := 4 } else c

/-- Where the engine stops in the present tick: at its last cycle, or at the cycle of its trip (R338, R340). -/
def Chip.scanStop (c : Chip) : Option Nat :=
  if c.running then some c.lnk.ticklen.toNat
  else if c.dev.tripThisTick then c.dev.tripAt.map fun t => t.2.toNat
  else none

/-- The engine at the end of a tick (R338, R340). -/
def Chip.scanProgress (c : Chip) (m : Mems) : Chip :=
  match c.scanStop with
  | none => c
  | some cycle => c.scanTo m cycle

/-! ### Scrub (R342 to R344) -/

/-- The words of a scrubbed memory: data RAM, program store, cam tables. -/
def scrubWords (m : Fin 3) : Nat :=
  match m.val with
  | 0 => 49152
  | 1 => 65536
  | _ => 8192

/-- The memory code of Table 4-6. -/
def scrubCode (m : Fin 3) : BitVec 4 :=
  match m.val with
  | 0 => 0
  | 1 => 1
  | _ => 3

/-- The scrub of a memory has begun (R342), and does not hold (R343) (DEDUCED, log entry 78). -/
def Chip.scrubRuns (c : Chip) (m : Fin 3) : Bool :=
  (c.dev.state = .admitting || c.dev.state = .run || c.dev.state = .tripped)
    && (if m.val = 1 then (decide (4 ≤ c.dev.phase.toNat) || c.dev.steps.getLsbD 3) && !c.warning
      else decide (3 ≤ c.dev.phase.toNat))

/-- The memories that a scrub test watches (R344). -/
def testMemories (code : Byte) : List (Fin 3) := if code = 1 then [0] else if code = 2 then [1, 2] else []

/-- A scrub test sees a visit that reads the words from `first` on for n words, with its corrections. -/
def ActiveTest.watch (t : ActiveTest) (m : Fin 3) (first n : Nat) (corrected : List Nat) : ActiveTest :=
  if !(testMemories t.code).contains m then t
  else
    let size := scrubWords m
    let begins := decide (first = 0) || decide (size < first + n)
    let fresh := !t.watching.any fun w => w.1 = m
    if fresh then
      if begins then
        { t with watching := (m, BitVec.ofNat 12 (corrected.filter fun a => a < n).length, false) :: t.watching }
      else t
    else
      { t with
        watching := t.watching.map fun w =>
          if w.1 = m && !w.2.2 then
            let inPass := corrected.filter fun a => first ≤ a
            (m, BitVec.ofNat 12 (min 4095 (w.2.1.toNat + inPass.length)), decide (size ≤ first + n))
          else w }

/-- SCRUB_VISIT: in the Loop phase, once in a tick, RATE words of a memory are read; single-bit errors are corrected and counted, an
uncorrectable word or a correction that fails its verify trips the device (R342, R343) (DESIGN CHOICE, log entry 34). -/
def runScrubVisit (m : Fin 3) (e : ScrubErrors) (s : State) : State :=
  s.act fun c =>
    let x := c.scan.scrub[m.val]
    if !c.scrubRuns m || x.visited || !c.may (.loop 84) then c
    else
      let mem : Fin 6 := ⟨m.val, by omega⟩
      let size := scrubWords m
      let first := x.next.toNat
      let n := x.rate.toNat
      let words := (List.range n).map fun i => (first + i) % size
      let fixed := c.singles mem words e
      let unverified := if m.val = 1 then scrubUnverified e fixed else none
      let c1 := { (c.leaveHost.scrubbed mem fixed unverified) with
        scan := { c.scan with
          scrub := upd c.scan.scrub m fun y =>
            { y with
              visited := true, corr := BitVec.ofNat 12 (min 4095 (y.corr.toNat + fixed.length)),
              next := BitVec.ofNat 16 ((first + n) % size) } } }
      let c2 := c1.modDev fun d => { d with tests := d.tests.map fun t => t.watch m first n fixed }
      match (c.doubleIn mem words e).orElse fun _ => unverified with
      | none => c2
      | some a => c2.trip 5 (field (scrubCode m) 28 ||| field (BitVec.ofNat 20 a) 0) 256

/-- A self-test ends with an outcome: DEV_TESTRES, and its credit (R93, R161). -/
def Chip.endTest (c : Chip) (t : ActiveTest) (pass : Bool) (detail : Byte) : Chip :=
  (c.modDev fun d =>
    { d with
      tests := d.tests.filter fun u => u.code ≠ t.code || u.car ≠ t.car || u.start ≠ t.start || u.credit ≠ t.credit,
      testLast := if pass then 1 else 2, testDetail := detail }).release t.credit

/-- SCRUB_PASS_END: a scrub test ends with the complete pass of its memories; 02h watches two (R344). -/
def runScrubPassEnd (second : Bool) (s : State) : State :=
  s.clock fun c =>
    let code : Byte := if second then 2 else 1
    let done := fun t : ActiveTest => t.code = code
      && (testMemories code).all fun m => t.watching.any fun w => w.1 = m && w.2.2
    match c.dev.tests.find? done with
    | none => c
    | some t =>
      let sum := (t.watching.map fun w => w.2.1.toNat).foldl (· + ·) 0
      c.endTest t true (BitVec.ofNat 8 (min 255 sum))

/-- The meaning of CRCJOB. -/
def execCrcjob (i : Issuer) (f : Enc) (s : State) : Out := .next (runCrcjob i f s)
/-- The meaning of SCAN_JOB_START. -/
def execScanJobStart (s : State) : Out := .next (runScanJobStart s)
/-- The meaning of SCAN_JOB_DONE. -/
def execScanJobDone (s : State) : Out := .next (runScanJobDone s)
/-- The meaning of SCAN_JOB_TIMEOUT. -/
def execScanJobTimeout (s : State) : Out := .next (runScanJobTimeout s)
/-- The meaning of SCRUB_VISIT. -/
def execScrubVisit (m : Fin 3) (e : ScrubErrors) (s : State) : Out := .next (runScrubVisit m e s)
/-- The meaning of SCRUB_PASS_END. -/
def execScrubPassEnd (second : Bool) (s : State) : Out := .next (runScrubPassEnd second s)

end Sys2Proof.Machine
end

