-- ==== Sys2Proof/Machine/Threads.lean ====
section
/-! DEFINITION. Threads as the clusters run them: starts and restarts (R143, R155 to R157), escalation (R157, R158), waking
(R154), the start of RUN (R158), and the thread part of a tick boundary (R153, R155, R166). -/

namespace Sys2Proof.Machine

/-- A thread starts or restarts at a vector (R143). -/
def Thread.start (x : Thread) (vector : BitVec 16) : Thread :=
  { x with
    w := Vector.replicate 16 0, acc := 0, pc := vector, flags := ⟨false, false, false, false, false⟩, stack := [], pend := 0,
    stallCnt := 0, peak := 0, st := .ready, mask := 0, deadline := none, mustRestart := false, budgetHalt := false, slotLeft := 0 }

/-- THR_RESTARTS.WINDOW: restarts in the last 1,024 ticks, at most 3 (Table 7-9) (DEDUCED, log entry 46). -/
def Chip.restartWindow (c : Chip) (t : ThreadId) : Nat := min 3 (recent 1024 c.dev.tick (c.threads[t.val]).restarts).length

/-- Count a restart (R157). -/
def Thread.countRestart (x : Thread) (now : BitVec 48) : Thread :=
  { x with restarts := now :: recent 1024 now x.restarts, restartTotal := satInc x.restartTotal }

/-- A car fault THREAD; a car that is ISLAND_OFF takes it when its power-up makes it OUT (R157, R158). -/
def Chip.threadFault (c : Chip) (k : CarId) (cycle : Nat) : Chip :=
  if (c.cars[k.val]).service = .islandOff then c.modCar k fun x => { x with threadFaultPending := true } 
  else c.carFault k 11 (c.stamp 0 + cycle)

/-- The thread rung escalates: the thread's car, the cars in the ACT mask of a group thread, or a SYSTEM_THREAD trip (R157,
Table 4-6). -/
def Chip.escalate (c : Chip) (t : ThreadId) (cycle : Nat) : Chip :=
  match carOfThread t with
  | some k => c.threadFault k cycle
  | none =>
    let x := c.threads[t.val]
    if t.val < 44 then foldFin 12 (fun k c => if x.actMaskAct.getLsbD k.val then c.threadFault k cycle else c) c
    else c.trip 13 (field x.faultCode 8 ||| BitVec.ofNat 32 t.val) (BitVec.ofNat 14 cycle)

/-- Work of a thread at the start of its slot: the device runs in the thread window, and the start of the slot is in turn (R18, R20,
R150) (DESIGN CHOICE, log entry 5). -/
def Chip.atSlot (c : Chip) (t : ThreadId) : Bool := c.running && c.may .thread && c.inTurn t (c.slotStart t)

/-- The device at the start of a thread's slot (R150). -/
def Chip.openAt (c : Chip) (t : ThreadId) : Chip := (c.enter .thread).takeTurn t (c.slotStart t)

/-- What befalls a thread at the start of its slot, where its condition holds; an uncorrectable word that the scan engine has read by then
trips the device in place of it (R18, R150, R338) (DESIGN CHOICE, log entry 110). -/
def State.atSlotStart (s : State) (t : ThreadId) (holds : Bool) (f : Chip → Chip) : State :=
  if s.chip.atSlot t && holds then s.behindScan (s.chip.slotStart t) fun s => s.act fun c => f (c.openAt t) else s

/-- THREAD_STALL: THR_STALLCNT has reached THR_STALLMAX; the thread is wedged (R155). -/
def runThreadStall (t : ThreadId) (s : State) : State :=
  let x := s.chip.threads[t.val]
  s.atSlotStart t (x.st = .ready && !x.mustRestart && x.stallMaxAct ≠ 0 && decide (x.stallMaxAct.toNat ≤ x.stallCnt.toNat)) fun c =>
    c.modThread t fun x => x.fault 1

/-- THREAD_RESTART: a thread that must restart does so in its next slot, unless it is its third restart within 1,024 ticks (R155
to R157) (DEDUCED, log entry 46). -/
def runThreadRestart (t : ThreadId) (s : State) : State :=
  let x := s.chip.threads[t.val]
  s.atSlotStart t (s.chip.lit t && x.mustRestart && !x.ran && decide (s.chip.restartWindow t < 2)) fun c =>
    c.modThread t fun x => (x.countRestart c.dev.tick).start x.restart

/-- THREAD_HALT_LIMIT: the third restart within 1,024 ticks halts the thread and escalates (R157) (DEDUCED, log entry 46). -/
def runThreadHaltLimit (t : ThreadId) (s : State) : State :=
  let x := s.chip.threads[t.val]
  s.atSlotStart t (s.chip.lit t && x.mustRestart && !x.ran && decide (2 ≤ s.chip.restartWindow t)) fun c =>
    (c.modThread t fun x =>
      { x.countRestart c.dev.tick with st := .halted, mustRestart := false, slotLeft := 0 }).escalate t (c.slotStart t)

/-- The tick count of the WAIT in progress has elapsed. -/
def Chip.elapsed (c : Chip) (x : Thread) : Bool :=
  match x.deadline with
  | none => false
  | some n => decide (n.toNat ≤ c.dev.tick.toNat)

/-- THREAD_WAKE: at the start of its slot a WAITING thread completes its WAIT where a masked event is pending or the count has
elapsed (R154). -/
def runThreadWake (t : ThreadId) (s : State) : State :=
  let x := s.chip.threads[t.val]
  let matched := x.pend &&& x.mask
  s.atSlotStart t (s.chip.lit t && x.st = .waiting && (matched ≠ 0 || s.chip.elapsed x)) fun c =>
    c.modThread t fun x => x.completeWait matched (if c.elapsed x then 1 else 0)

/-- A car or door thread starts as its car becomes OUT after power-up; one halted with BUDGET stays halted until it is
restarted, one without a budget is UNUSED (R91, R143, R157, R158) (DESIGN CHOICE, log entry 45). -/
def Thread.powerUp (x : Thread) : Thread :=
  let y := { x with restarts := [] }
  if x.budgetHalt then y else if x.budgetAct = 0 then { y with st := .unused } else y.start x.restart

/-- A car or door thread as its car's islands go off (R15). -/
def Thread.darken (x : Thread) : Thread :=
  { x with st := if x.st = .ready || x.st = .waiting then .dark else x.st, mustRestart := false, slotLeft := 0 }

/-! ### The start of RUN (R143, R158) -/

/-- The threads of a cluster in slot order, with the budgets that fit the window kept: the halted ones. -/
def Chip.unfit (c : Chip) (n : Fin 4) : List ThreadId :=
  ((List.finRange 12).foldl (fun (r : Nat × List ThreadId) j =>
    let t := threadAt n j
    let b := (c.threads[t.val]).budgetAct.toNat
    if c.window.toNat < r.1 + b then (r.1, r.2 ++ [t]) else (r.1 + b, r.2)) (0, [])).2

/-- A thread in the first RUN tick: group and system threads start at THR_ENTRY, car and door threads are dark until their car's
islands are on; one that has been halted in ADMIT stays halted (R143, R158). -/
def Thread.enterRun (x : Thread) (t : ThreadId) : Thread :=
  if x.budgetAct = 0 || x.st = .halted then x else if t.val < 36 then { x with st := .dark } else x.start x.entry

/-- BUDGET_CHECK and the starts of the first RUN tick (R143, R158) (DEDUCED, log entry 46; DEDUCED, log entry 60). -/
def Chip.startThreads (c : Chip) : Chip :=
  let bad := (List.finRange 4).flatMap c.unfit
  let c1 := { c with threads := vmap (fun t x => if bad.contains t then x else x.enterRun t) c.threads }
  bad.foldl (fun c t =>
    (c.modThread t fun x =>
      { x with budget := 0, budgetAct := 0, st := .halted, budgetHalt := true, faultCode := 6, faultPc := x.pc }).escalate t 0) c1

/-! ### The tick boundary of a thread -/

/-- A command of THR_STATE.CMD at the boundary (R157, R158). While the islands of its car are off, a restarted thread is DARK until
the car is OUT (R15); a thread without a budget is not halted (DEDUCED, log entry 46; DESIGN CHOICE, log entry 84). -/
def Thread.command (x : Thread) (lit : Bool) : Thread :=
  match x.cmd with
  | none => x
  | some .halt => { x with cmd := none, st := if x.st = .unused && x.budgetAct = 0 then .unused else .halted, mustRestart := false }
  | some .restart =>
    let y := { x with cmd := none }
    if x.budgetAct = 0 then y
    else if lit then y.start x.restart
    else { y with st := .dark, mustRestart := false, budgetHalt := false }

/-- A thread whose budget is 0 is UNUSED, unless it is halted; one that a PUT gives a budget again stays UNUSED until it is
restarted (R151, R157) (DESIGN CHOICE, log entry 84). -/
def Thread.spare (x : Thread) : Thread :=
  if x.budgetAct = 0 && x.st ≠ .halted then { x with st := .unused, mustRestart := false } else x

/-- THR_STALLCNT at the end of a tick (R155) (DESIGN CHOICE, log entry 45). -/
def Thread.stalls (x : Thread) (running : Bool) : BitVec 16 :=
  if !running || x.st = .dark || x.st = .halted || x.st = .unused then x.stallCnt
  else if x.progressed then 0
  else if x.ran then satInc x.stallCnt
  else x.stallCnt

/-- The boundary of a tick: raised events become pending, THR_STALLCNT counts, accepted PUTs and commands act (R153, R155,
R166) (DESIGN CHOICE, log entry 45) (DESIGN CHOICE, log entry 84). -/
def Thread.boundary (x : Thread) (running : Bool) (now : BitVec 48) (lit : Bool) : Thread :=
  let y :=
    { x with
      budgetAct := x.budget, stallMaxAct := x.stallMax, actMaskAct := x.actMask, seeMaskAct := x.seeMask,
      pend := x.pend ||| x.raised, raised := 0, stallCnt := x.stalls running,
      last := if x.ran || x.progressed then x.last else 0,
      ran := false, progressed := false, slotLeft := 0, restarts := recent 1024 now x.restarts }
  y.spare.command lit

/-- The meaning of THREAD_STALL. -/
def execThreadStall (t : ThreadId) (s : State) : Out := .next (runThreadStall t s)
/-- The meaning of THREAD_RESTART. -/
def execThreadRestart (t : ThreadId) (s : State) : Out := .next (runThreadRestart t s)
/-- The meaning of THREAD_HALT_LIMIT. -/
def execThreadHaltLimit (t : ThreadId) (s : State) : Out := .next (runThreadHaltLimit t s)
/-- The meaning of THREAD_WAKE. -/
def execThreadWake (t : ThreadId) (s : State) : Out := .next (runThreadWake t s)

end Sys2Proof.Machine
end

