-- ==== Sys2Proof/Machine/Islands.lean ====
section
/-! DEFINITION. Power islands (R90 to R92, R193) and self-tests in service (R93, R194, R295, R312, R329, R330). -/

namespace Sys2Proof.Machine

/-! ### Switching cars on and off (R90, R193) -/

/-- A car is in power-up. -/
def Car.rising (x : Car) : Bool :=
  match x.power with
  | .up _ => true
  | .off | .on => false

/-- A request to switch a car on (R90, R161). -/
def islandOnPlan (who : Who) (c : Chip) (k : CarId) (checks : Checks) : Plan :=
  let x := c.cars[k.val]
  let there := x.on || x.powerPending || x.rising
  { illegal := false,
    checks := checks ++ ([(!c.running, .state), (!there && c.noCredit who, .full)] : Checks),
    queue := none,
    act := fun c =>
      if there then reply .done c
      else
        reply .queued ((c.takeCredit who.sid who.seat).modCar k fun x =>
          { x with powerPending := true, powerFresh := true, powerCredit := some c.nextCredit, islandReq := true }) }

/-- A request to switch a car off (R90). -/
def islandOffPlan (c : Chip) (k : CarId) (checks : Checks) : Plan :=
  let x := c.cars[k.val]
  let may := x.powerPending || x.rising || (x.on && (x.service = .out || x.service = .stoppedFault))
  { illegal := false,
    checks := checks ++ ([(!c.running || !may, .state), (x.rising || c.testRunning k, .busy)] : Checks),
    queue := none,
    act := fun c =>
      if x.powerPending then
        reply .done ((c.release x.powerCredit).modCar k fun x =>
          { x with powerPending := false, powerFresh := false, powerCredit := none, islandReq := false })
      else reply .done (c.modCar k fun x => { x with powerOff := true, islandReq := false }) }

/-- ISLAND (R90, R193). -/
def bodyIsland (on : Bool) : Body := fun x _ c =>
  let reserved := x.f.imm &&& 0xFEF0 ≠ 0
  let plan : Plan := match fin? 12 (immBits x.f.imm 0 4).toNat with
    | none => { illegal := false, checks := [(c.lacks x.who 10, .denied), (true, .range)], queue := none, act := fun c => reply .range c }
    | some k =>
      let checks : Checks := [(c.lacks x.who 10, .denied), (!c.mayAct x.who k, .denied), (reserved, .range)]
      if on then islandOnPlan x.who c k checks else islandOffPlan c k checks
  { plan with illegal := noFields x.f }

/-- An immediate with bit 8 fixed by the row (DESIGN CHOICE, log entry 33). -/
def fix8 (f : Enc) (b : Bool) : Enc := { f with imm := (f.imm &&& 0xFEFF) ||| (if b then 0x100 else 0) }

/-- ISLAND, on. -/
def runIslandOn (i : Issuer) (f : Enc) (s : State) : State := issue i 0x29 (fix8 f true) 6 (hostOnly (bodyIsland true)) s
/-- ISLAND, off. -/
def runIslandOff (i : Issuer) (f : Enc) (s : State) : State := issue i 0x29 (fix8 f false) 6 (hostOnly (bodyIsland false)) s

/-! ### Power-up and switch-off (R91, R92, R193) -/

/-- The registers of the islands of a car at their reset values (R92): what the control core keeps stays. -/
def Chip.resetCar (c : Chip) (k : CarId) : Chip :=
  let door := fun (c : Chip) (d : DoorId) =>
    let c1 := (c.modDoor d fun _ => Door.init).modAxis (doorAxis d) fun _ => Axis.init (doorAxis d)
    foldFin 3 (fun s c => c.modLoop (doorLoop d s) fun _ => Loop.init (doorLoop d s)) c1
  let c1 := (c.modCar k fun x => { x.off with islandReq := x.islandReq }).modAxis (carAxis k) fun _ => Axis.init (carAxis k)
  let c2 := door (door c1 (frontDoor k)) (rearDoor k)
  let c3 := (c2.modFbk (machine k) fun _ => Fbk.init).modFbk (hoistway k) fun _ => Fbk.init
  let c4 := c3.modLoop (carLoop k) fun _ => Loop.init (carLoop k)
  let c5 := foldFin 4 (fun i c => c.modFe (carFe k i) fun _ => Fe.init) c4
  let c6 := foldFin 8 (fun i (c : Chip) => { c with taps := upd c.taps (carTap k i) fun _ => Tap.init }) c5
  c6.modCal k fun _ => ⟨[], false, none⟩

/-- ISLAND_POWERUP_START: with no car in power-up and none that became OUT in this tick, the lowest one pending since an earlier
tick begins (R91, R92) (DEDUCED, log entry 60). -/
def runIslandPowerupStart (s : State) : State :=
  s.clock fun c =>
    if !c.running || c.pwr.islandHold || c.cars.toList.any Car.rising then c
    else match (List.finRange 12).find? fun k => (c.cars[k.val]).powerPending && !(c.cars[k.val]).powerFresh with
      | none => c
      | some k => c.modCar k fun x => { x with powerPending := false, power := .up c.dev.tick }

/-- The threads of a car. -/
def carThreads (k : CarId) : List ThreadId := [carThread k, doorThread (frontDoor k), doorThread (rearDoor k)]

/-- A zero code that the island self-test refuses (R275) (DESIGN CHOICE, log entry 31). -/
def zeroBad (z : BitVec 12) : Bool := decide (64 < ((z.toNat : Int) - 2048).natAbs)

/-- ISLAND_POWERUP_DONE: 192 ticks after its start the car becomes OUT at cycle 0 with its threads started, or its self-test has failed and
the device trips with ISLAND_TEST (R15, R25, R91, R158, R275). A zero code out of range fails the door
pair's domain with an item that the manual does not name: a free value. The self-test lasts from tick 64 on and is that of
the car's own three domains (DESIGN CHOICE, log entry 31). -/
def runIslandPowerupDone (k : CarId) (test : IslandTest) (s : State) : State :=
  s.clock fun c => match (c.cars[k.val]).power with
    | .off | .on => c
    | .up start =>
      let zeros := test.zero.toList.any zeroBad
      let age := (c.dev.tick - start).toNat
      if !c.running || !c.lnk.sckRunning then c
      else if test.item ≠ 0 || zeros then
        if age < 64 || (test.item ≠ 0 && test.domain.toNat / 3 ≠ k.val) then c
        else
        let item : Byte := if test.item ≠ 0 then test.item else (Config.openWord c.free).setWidth 8
        let domain : BitVec 6 := if test.item ≠ 0 then test.domain else BitVec.ofNat 6 (3 * k.val + 1)
        let c := if test.item ≠ 0 then c else c.draw
        ((c.modCar k fun x => { x with islandItem := item, islandResult := 2 }).trip 9 (field item 8 ||| field domain 0) 0)
      else if age < 192 || !c.latching then c
      else
        let credit := (c.cars[k.val]).powerCredit
        let late := (c.cars[k.val]).threadFaultPending
        let door := fun (z : Nat) (lines : BitVec 3) (x : Door) =>
          Door.seat { x with zeroU := test.zero.toArray.getD z 0, zeroV := test.zero.toArray.getD (z + 1) 0, hallRaw := lines }
        let c0 := (c.resetCar k).modCar k fun x =>
          { x with power := .on, islandItem := 0, islandResult := 1, threadFaultPending := false }
        let c1 := [carAxis k, doorAxis (frontDoor k), doorAxis (rearDoor k)].foldl
          (fun c a => c.modAxis a fun x => { x with st := .idle }) c0
        let c2 := (c1.modDoor (frontDoor k) (door 0 test.halls[0])).modDoor (rearDoor k) (door 2 test.halls[1])
        let c3 := (c2.modFbk (machine k) fun f => { f with ab := test.lines }).release credit
        let c4 := (carThreads k).foldl (fun c t => c.modThread t Thread.powerUp)
          ((c3.modPwr fun p => { p with islandHold := true }).setService k .out)
        if late then c4.carFault k 11 (c.stamp 0) else c4

/-- The boundary at which a car becomes ISLAND_OFF: its queues are emptied with their places and credits, its captures end with
FAULT, its threads go dark (R90, R193). -/
def Chip.switchOff (c : Chip) (k : CarId) : Chip :=
  let g := c.cals[k.val]
  let axes := [carAxis k, doorAxis (frontDoor k), doorAxis (rearDoor k)]
  let c1 := axes.foldl (fun c a => c.dropQueue a) c
  let items := g.queue ++ (match g.running with | none => [] | some r => [r.item])
  let c2 := items.foldl (fun c i => (c.release i.credit).jobDone i.producer) c1
  let c3 := if items.isEmpty then c2 else c2.placeFreed (.cals k)
  let c4 := (c3.setService k .islandOff).resetCar k
  (carThreads k).foldl (fun c t => c.modThread t Thread.darken) c4

/-! ### Self-tests (R93, R194) -/

/-- The disruptive codes of Table 4-9. -/
def disruptive (code : Byte) : Bool := 0x10 ≤ code.toNat

/-- The start of the enable pulse test (R312). -/
def PulseTest.first (pos : Word) : PulseTest := { step := 1, part := 0, ticks := 0, good := 0, pos := pos, result := none }

/-- SELFTEST (R93, R194, R312, R330): an accepted test stands in DEV_SELFTEST and runs until its outcome
(DESIGN CHOICE, log entry 33). -/
def bodySelftest (code : Byte) : Body := fun x _ c =>
  let carField := (immBits x.f.imm 8 4).toNat
  let plan : Plan := match fin? 12 carField with
    | none => { illegal := false, checks := [(c.lacks x.who (if disruptive code then 12 else 11), .denied), (true, .range)], queue := none, act := fun c => reply .range c }
    | some k =>
      let bad := immBits x.f.imm 12 4 ≠ 0 || (!disruptive code && k.val ≠ 0)
      let type := (c.fes[(carFe k 0).val]).act.type
      let cal := !(c.cals[k.val]).queue.isEmpty || (c.cals[k.val]).running.isSome
      let more : Checks := if !disruptive code then []
        else
          [(!c.mayAct x.who k, .denied), ((c.cars[k.val]).service ≠ .out, .state), (code = 0x12 && type ≠ .bridge, .state),
            (c.testRunning k || (code = 0x12 && cal), .busy)]
      { illegal := false,
        checks := ([(c.lacks x.who (if disruptive code then 12 else 11), .denied), (bad, .range), (c.noCredit x.who, .full)] : Checks)
          ++ more,
        queue := none,
        act := fun c =>
          let credit := if x.who.isHost then some c.nextCredit else none
          let c1 := if x.who.isHost then c.takeCredit x.who.sid x.who.seat else c
          let c2 := c1.modDev fun d =>
            { d with
              testCode := code, testCar := BitVec.ofNat 4 k.val, tests := d.tests ++ [⟨code, k, d.tick, credit, []⟩] }
          reply .queued (if code = 0x10 then
            c2.modIlk k fun i => { i with test := some (PulseTest.first (c.cars[k.val]).pos) } else c2) }
  { plan with illegal := noFields x.f }

/-- SELFTEST 01h. -/
def runSelftestRamScrub (i : Issuer) (f : Enc) (s : State) : State := issue i 0x2A (fixLow f 8 0x01) 6 (bodySelftest 0x01) s
/-- SELFTEST 02h. -/
def runSelftestProgScrub (i : Issuer) (f : Enc) (s : State) : State := issue i 0x2A (fixLow f 8 0x02) 6 (bodySelftest 0x02) s
/-- SELFTEST 03h. -/
def runSelftestReference (i : Issuer) (f : Enc) (s : State) : State := issue i 0x2A (fixLow f 8 0x03) 6 (bodySelftest 0x03) s
/-- SELFTEST 04h. -/
def runSelftestEntropy (i : Issuer) (f : Enc) (s : State) : State := issue i 0x2A (fixLow f 8 0x04) 6 (bodySelftest 0x04) s
/-- SELFTEST 10h. -/
def runSelftestEnablePulse (i : Issuer) (f : Enc) (s : State) : State := issue i 0x2A (fixLow f 8 0x10) 6 (bodySelftest 0x10) s
/-- SELFTEST 11h. -/
def runSelftestGateDriver (i : Issuer) (f : Enc) (s : State) : State := issue i 0x2A (fixLow f 8 0x11) 6 (bodySelftest 0x11) s
/-- SELFTEST 12h. -/
def runSelftestBridgeExcitation (i : Issuer) (f : Enc) (s : State) : State :=
  issue i 0x2A (fixLow f 8 0x12) 6 (bodySelftest 0x12) s

/-- The first gate that reads high. -/
def highGate (rb : BitVec 6) : Option Nat := (List.range 6).find? fun g => rb.getLsbD g

/-- The first failing gate of a door in the gate driver test: one driven alone that does not read high alone, or the first that reads
high where both gates of a leg are commanded (R295) (DESIGN CHOICE, log entry 33). -/
def failingGate (alone : Vector (BitVec 6) 6) (legs : Vector (BitVec 6) 3) : Option Nat :=
  ((List.finRange 6).find? fun g => alone[g.val] ≠ 1#6 <<< g.val).map Fin.val |>.orElse fun _ => legs.toList.findSome? highGate

/-- The first failure of the gate driver test: the door in use and its gate (R295) (DESIGN CHOICE, log entry 33). -/
def Chip.gateFailure (c : Chip) (k : CarId) (alone : Vector (Vector (BitVec 6) 6) 2) (legs : Vector (Vector (BitVec 6) 3) 2) :
    Option (DoorId × Byte) :=
  (List.finRange 2).findSome? fun n =>
    let d : DoorId := ⟨2 * k.val + n.val, by omega⟩
    if (c.doors[d.val]).inUse then (failingGate alone[n.val] legs[n.val]).map fun g => (d, BitVec.ofNat 8 (1 + 6 * n.val + g)) else none

/-- The first failing step of the excitation test, 0 where every one passes (Table 15-4). -/
def bridgeDetail (sense : Vector (BitVec 16) 4) (low high : BitVec 32) : Byte :=
  let within := fun (v : BitVec 16) (lo hi : Nat) => decide (lo ≤ v.toInt.natAbs) && decide (v.toInt.natAbs ≤ hi)
  if 50 ≤ sense[0].toInt.natAbs then 1
  else if sense[1].toInt < 0 || !within sense[1] 2250 2550 then 2
  else if sense[2].toInt < 0 || !within sense[2] 4500 5100 then 3
  else if !within sense[3] 4500 5100 then 4
  else if FeType.bridge.fullScale < 200 * ((low.toInt - high.toInt).natAbs : Int) then 5
  else 0

/-- SELFTEST_COMPLETE: the outcome of a running test by what it has measured. The enable pulse test has decided for itself; a failing
reference check trips the device; a gate driver failure faults its door; the excitation test stops at its first failure, and its end
empties the filter (R93, R295, R312, R329, R330) (DESIGN CHOICE, log entry 33). -/
def runSelftestComplete (code : Byte) (k : CarId) (r : SelftestReading) (s : State) : State :=
  s.clock fun c =>
    match c.dev.tests.find? fun t => t.code = code && (!disruptive code || t.car = k) with
    | none => c
    | some t =>
      let age := (c.dev.tick - t.start).toNat
      match code.toNat, r with
      | 0x03, .reference run vanaMv =>
        let mon := (c.pwr.railMv[3]).toNat
        let off := decide (2 * mon < 100 * ((vanaMv.toNat : Int) - mon).natAbs)
        if age * c.lnk.ticklen.toNat < 1024 * 16384 then c
        else if 16 ≤ run.toNat then (c.endTest t false 1).trip 9 0x130 0
        else if off then (c.endTest t false 2).trip 9 0x230 0
        else c.endTest t true 0
      | 0x04, .none => c.endTest t (!c.entropyFailed) (c.sec.entropyCause.setWidth 8)
      | 0x10, .none =>
        (match (c.cars[k.val]).ilk.test with
          | none => c
          | some p => match p.result with
            | none => c
            | some r =>
              let c1 := (c.endTest t (r = 0) r).modIlk k fun i => { i with test := none }
              if r = 0 then c1.modCar k fun x => { x with pulseOk := true } else c1)
      | 0x11, .gates alone legs =>
        if age < 16 then c
        else match c.gateFailure k alone legs with
          | none => c.endTest t true 0
          | some (d, detail) => (c.endTest t false detail).doorFault d 10 (c.stamp 0)
      | 0x12, .bridge sense low high =>
        let detail := bridgeDetail sense low high
        if detail = 0 && age < 512 then c
        else (c.endTest t (detail = 0) detail).modFe (carFe k 0) fun f => { f with samples := [] }
      | _, _ => c

/-- The meaning of ISLAND_ON. -/
def execIslandOn (i : Issuer) (f : Enc) (s : State) : Out := .next (runIslandOn i f s)
/-- The meaning of ISLAND_OFF. -/
def execIslandOff (i : Issuer) (f : Enc) (s : State) : Out := .next (runIslandOff i f s)
/-- The meaning of SELFTEST_RAM_SCRUB. -/
def execSelftestRamScrub (i : Issuer) (f : Enc) (s : State) : Out := .next (runSelftestRamScrub i f s)
/-- The meaning of SELFTEST_PROG_SCRUB. -/
def execSelftestProgScrub (i : Issuer) (f : Enc) (s : State) : Out := .next (runSelftestProgScrub i f s)
/-- The meaning of SELFTEST_REFERENCE. -/
def execSelftestReference (i : Issuer) (f : Enc) (s : State) : Out := .next (runSelftestReference i f s)
/-- The meaning of SELFTEST_ENTROPY. -/
def execSelftestEntropy (i : Issuer) (f : Enc) (s : State) : Out := .next (runSelftestEntropy i f s)
/-- The meaning of SELFTEST_ENABLE_PULSE. -/
def execSelftestEnablePulse (i : Issuer) (f : Enc) (s : State) : Out := .next (runSelftestEnablePulse i f s)
/-- The meaning of SELFTEST_GATE_DRIVER. -/
def execSelftestGateDriver (i : Issuer) (f : Enc) (s : State) : Out := .next (runSelftestGateDriver i f s)
/-- The meaning of SELFTEST_BRIDGE_EXCITATION. -/
def execSelftestBridgeExcitation (i : Issuer) (f : Enc) (s : State) : Out := .next (runSelftestBridgeExcitation i f s)
/-- The meaning of SELFTEST_COMPLETE. -/
def execSelftestComplete (code : Byte) (k : CarId) (r : SelftestReading) (s : State) : Out := .next (runSelftestComplete code k r s)
/-- The meaning of ISLAND_POWERUP_START. -/
def execIslandPowerupStart (s : State) : Out := .next (runIslandPowerupStart s)
/-- The meaning of ISLAND_POWERUP_DONE. -/
def execIslandPowerupDone (k : CarId) (test : IslandTest) (s : State) : Out := .next (runIslandPowerupDone k test s)

end Sys2Proof.Machine
end

