-- ==== Sys2Proof/Machine/RegRead.lean ====
section
/-! DEFINITION. The register map (R360 to R363, Tables 6-2, 8-5, 18-1 and 18-2), what a register reads as (Tables 3-12, 4-11, 5-4,
6-9, 7-9, 9-5, 10-2, 11-5, 12-10, 13-4, 14-4, 15-5, 16-4 and 17-5), the view levels (R136 to R138), and GET (R181 to R183). -/

namespace Sys2Proof.Machine

/-! ### The map -/

/-- The number of registers of a block (Table 18-1). -/
def blockCount (b : Nat) : Nat := [18, 22, 26, 12, 30, 34, 18, 20, 16, 16, 14, 8, 10, 10].getD b 0

/-- The channels of a register (R362). -/
def regChannels (b i : Nat) : Nat :=
  match b with
  | 0 => if i = 0x0F then 8 else 1
  | 1 => 1
  | 2 =>
    if [0x01, 0x0B, 0x0C, 0x0E, 0x0F].contains i then 16
    else if [0x02, 0x03, 0x08, 0x09, 0x14, 0x15].contains i then 8
    else if i = 0x11 then 4 else 1
  | 3 => 48
  | 4 => if i = 0x15 || i = 0x16 then 48 else 12
  | 5 => 24
  | 6 => 24
  | 7 => 84
  | 8 => 36
  | 9 => 48
  | 0xA => if i = 0x03 then 96 else 12
  | 0xB => if i = 0x07 then 3 else 8
  | 0xC => if i = 0x05 then 8 else if i = 0x07 || i = 0x08 then 16 else 1
  | 0xD => if [0x00, 0x01, 0x06, 0x09].contains i then 12 else if i = 0x07 then 5 else 1
  | _ => 0

/-- The right class of a register (Table 6-2). -/
def regClass (b i : Nat) : Nat :=
  match b with
  | 0 => 0
  | 1 => 2
  | 2 => if i = 0x11 then 4 else if i = 0x16 then 5 else 3
  | 3 => 6
  | 4 =>
    if [0x01, 0x02, 0x03, 0x04, 0x05, 0x08, 0x09, 0x0A].contains i then 7
    else if i = 0x15 || i = 0x16 then 8
    else if i = 0x19 then 9
    else if [0x00, 0x12, 0x14, 0x18, 0x1C, 0x1D].contains i then 10
    else if i = 0x1B then 11
    else if [0x06, 0x07, 0x17].contains i then 12 else 13
  | 5 =>
    if [0x00, 0x01, 0x02, 0x0F, 0x10, 0x12, 0x13, 0x18, 0x19, 0x1A, 0x1D, 0x20].contains i then 14
    else if [0x08, 0x0B, 0x0C, 0x15, 0x16, 0x21].contains i then 16 else 15
  | 6 => 17
  | 7 => 18
  | 8 => 19
  | 9 => 20
  | 0xA => if [0x00, 0x03, 0x07, 0x08, 0x09, 0x0C, 0x0D].contains i then 21 else 22
  | 0xB => 23
  | 0xC => 24
  | _ => 1

/-- The register is a member of the safety parameter set (R363). -/
def isSps (b i : Nat) : Bool := regClass b i = 13 || regClass b i = 16 || regClass b i = 22

/-- The indices of the CAR, DOOR and ILK members, in the order of the register index (R130). -/
def carSps : List Nat := [0x0B, 0x0C, 0x0D, 0x0E, 0x0F, 0x10, 0x11, 0x13, 0x1A]
/-- The DOOR members. -/
def doorSps : List Nat := [0x08, 0x0B, 0x0C, 0x15, 0x16, 0x21]
/-- The ILK members. -/
def ilkSps : List Nat := [0x01, 0x02, 0x04, 0x05, 0x06, 0x0A, 0x0B]

/-- The member that a register and channel name. -/
def spsId (b i ch : Nat) : Option SpsId :=
  match b with
  | 4 => match fin? 9 (carSps.idxOf i), fin? 12 ch with
    | some m, some k => some (.car m k)
    | _, _ => none
  | 5 => match fin? 6 (doorSps.idxOf i), fin? 24 ch with
    | some m, some d => some (.door m d)
    | _, _ => none
  | 0xA => match fin? 7 (ilkSps.idxOf i), fin? 12 ch with
    | some m, some k => some (.ilk m k)
    | _, _ => none
  | _ => none

/-- The car that owns a channel (R121, Table 18-2). -/
def regCar (b i ch : Nat) : Option CarId :=
  match b with
  | 3 => if ch < 12 then fin? 12 ch else if ch < 36 then fin? 12 ((ch - 12) / 2) else none
  | 4 => if i = 0x15 || i = 0x16 then fin? 12 (ch / 4) else fin? 12 ch
  | 5 | 6 => fin? 12 (ch / 2)
  | 7 => if ch < 72 then fin? 12 (ch / 6) else fin? 12 (ch - 72)
  | 8 => if ch < 12 then fin? 12 ch else fin? 12 ((ch - 12) / 2)
  | 9 => fin? 12 (ch / 4)
  | 0xA => if i = 0x03 then fin? 12 (ch / 8) else fin? 12 ch
  | 0xD => if [0x00, 0x01, 0x06, 0x09].contains i then fin? 12 ch else none
  | _ => none

/-- The own channel of an issuer for a register (Table 8-5, R271) (DEDUCED, log entry 48). -/
def regOwn (who : Who) (b i : Nat) : Option Nat :=
  let n := regChannels b i
  let perCar := b ≠ 0xD || n = 12
  let perSession := b = 2 && n = 16
  let perSeat := b = 2 && [0x02, 0x08, 0x09].contains i
  if n ≠ 1 && !perCar then none
  else (ownChannel who b (n ≠ 1) perSession perSeat).map fun ch => if b = 4 && (i = 0x15 || i = 0x16) then 4 * ch else ch

/-- The register and channel that GET or PUT names, absent where none is named (R181, R182). -/
structure RegRef where
  b : Nat
  i : Nat
  ch : Nat
  deriving DecidableEq, Repr

/-- The channel field of a GET or PUT (R181) (DEDUCED, log entry 48). -/
def regChannel (who : Who) (w : Vector Word 16) (f : Enc) (b i : Nat) : Option Nat :=
  match f.m.toNat with
  | 0 => regOwn who b i
  | 1 => some (slice (regOf w f.a) 0 7 : BitVec 7).toNat
  | 2 => some (immBits f.imm 0 6).toNat
  | _ => some (64 + (immBits f.imm 0 6).toNat)

/-- A GET or PUT with a field that must be 0: IMM[5:0] where M names no immediate channel, or W(A)[31:7]. The register that it names
beside it is checked all the same, so that DENIED and VEILED stand before this RANGE (R11, R172, R181). -/
def regStray (w : Vector Word 16) (f : Enc) : Bool :=
  (f.m.toNat < 2 && immBits f.imm 0 6 ≠ 0) || (f.m = 1 && decide (128 ≤ (regOf w f.a).toNat))

/-- What GET or PUT names (R181, R360). -/
def regRef (who : Who) (w : Vector Word 16) (f : Enc) : Option RegRef :=
  let b := (immBits f.imm 12 4).toNat
  let i := (immBits f.imm 6 6).toNat
  if blockCount b ≤ i then none
  else match regChannel who w f b i with
    | none => none
    | some ch => if ch < regChannels b i then some ⟨b, i, ch⟩ else none

/-- The encoding of GET or PUT is illegal: an A field that names nothing (R172, R181) (DEDUCED, log entry 47). -/
def regIllegal (f : Enc) : Bool := f.m ≠ 1 && f.a ≠ 0

/-! ### Values -/

/-- A count, saturated to a width. -/
def satNat (w n : Nat) : BitVec w := BitVec.ofNat w (min n (2 ^ w - 1))

/-- A mask of the cars for which a condition holds. -/
def carMask (f : CarId → Bool) : BitVec 12 := (List.finRange 12).foldl (fun m k => if f k then m ||| (1#12 <<< k.val) else m) 0

/-- DEV_BUDGET.ALLOC: the largest of the four cluster sums (R151) (DESIGN CHOICE, log entry 45). -/
def Chip.budgetAlloc (c : Chip) : Nat :=
  ((List.range 4).map fun n =>
    (((List.finRange 48).filter fun t => (clusterOf t).1 = n).map fun t => (c.threads[t.val]).budget.toNat).foldl (· + ·) 0).foldl max 0

/-- DEV_BUDGET.ALLOC as read (R151) (DESIGN CHOICE, log entry 98). -/
def allocField (sum : Nat) : BitVec 14 := if sum < 2 ^ 14 then BitVec.ofNat 14 sum else (Config.openResult 22 sum).setWidth 14

/-- DEV_LASTWORD: the area, or the volatile copy when the area has failed (R357). -/
def Chip.lastWordReg (c : Chip) (ch : Nat) : Word :=
  let w := if c.journal.lwState = 3 then c.journal.volatile.getD c.journal.lastWord else c.journal.lastWord
  w.toArray.getD ch 0

/-- Block 0 (Table 4-11); the field of DEV_BUDGET.ALLOC where a loaded image's largest cluster sum does not fit its 14 bits is open
(R151) (DESIGN CHOICE, log entry 98). -/
def Chip.readDev (c : Chip) (i ch : Nat) : Word :=
  let d := c.dev
  match i with
  | 0x00 => 0x122400B1
  | 0x01 => field d.state.code 0
  | 0x02 => d.syndrome
  | 0x03 => field d.others 16 ||| field (if d.state = .tripped then d.cause else 0) 0
  | 0x04 => d.tick.extractLsb' 0 32
  | 0x05 => (d.tick.extractLsb' 32 16).setWidth 32
  | 0x06 => d.wall.extractLsb' 0 32
  | 0x07 => (d.wall.extractLsb' 32 16).setWidth 32
  | 0x08 => bit d.go 8 ||| field d.digest 6 ||| field d.phase 0
  | 0x09 => field (carMask fun k => c.testRunning k) 16 ||| field d.testCar 8 ||| field d.testCode 0
  | 0x0A => field d.steps 16 ||| field d.testLast 8 ||| field d.testDetail 0
  | 0x0B => bit d.otWarn 16 ||| field d.temp 0
  | 0x0C => field (allocField c.budgetAlloc) 16 ||| field c.window 0
  | 0x0D => d.uid.extractLsb' 0 32
  | 0x0E => d.uid.extractLsb' 32 32
  | 0x0F => c.lastWordReg ch
  | 0x10 => field (if c.lnk.ticklen = 0 then 0 else c.lnk.ticklen - 257) 16 ||| 1536
  | _ => 0x0C183004

/-- The code of a stream selection. -/
def StreamSel.code : StreamSel → BitVec 3
  | .none => 0 | .replay => 1 | .trace => 2 | .journal _ => 3

/-- Block 1 (Table 3-12). -/
def Chip.readLnk (c : Chip) (i : Nat) : Word :=
  let l := c.lnk
  let q := l.cfg
  match i with
  | 0x00 => field l.frameSkips 16 ||| bit l.noFit 15 ||| bit l.duneEdge 14 ||| bit l.rxEdge 13 ||| bit l.eqEdge 12
      ||| bit l.frameSkip 11 ||| bit l.sectBad 10 ||| bit l.darkIn 9 ||| bit (l.status.getLsbD 115) 8
  | 0x01 => field l.ticklen 0
  | 0x02 => field l.drop 0
  | 0x03 => field q.drops 0
  | 0x04 => field l.pktTotal 8 ||| field l.pktLast 0
  | 0x05 => field q.darkMax 0
  | 0x06 => field l.darkRun 16 ||| field l.darkTotal 0
  | 0x07 => field l.crcHeader 16 ||| field l.crcSection 0
  | 0x08 => field q.slotBase 0
  | 0x09 => field q.slotLen 0
  | 0x0A => field q.wadi 0
  | 0x0B => field l.txOfs 24 ||| field l.lastErr 16 ||| field l.rx1 8 ||| field l.rx0 0
  | 0x0C => field q.hold 16 ||| field q.maxStep 12 ||| field q.deadband 8 ||| field q.rxWin 0
  | 0x0D => field l.eqSck 8 ||| field l.eqDn1 4 ||| field l.eqDn0 0
  | 0x0E => field q.eqMax 12 ||| field q.eqMin 8 ||| field q.txEmph 0
  | 0x0F => field l.defTotal 16 ||| field l.defRun 0
  | 0x10 => BitVec.ofNat 32 (64 - c.sec.credits.length)
  | 0x11 => 0x00400010
  | 0x12 => field l.streamOwner 8 ||| field l.stream.code 0
  | 0x13 => field q.traceMask 0
  | 0x14 => field l.gaps 0
  | _ => l.frameNo.extractLsb' 0 32

/-- Word i of a digest, its byte 4i in [31:24] (R141). -/
def digestWord (d : BitVec 256) (i : Nat) : Word := d.extractLsb' (32 * (7 - i)) 32

/-- The code of a key state (Table 5-4). -/
def KeyState.code : KeyState → BitVec 2
  | .empty => 0 | .isSet => 1 | .factory => 2 | .zeroised => 3

/-- SEC_SESSIONS of a session; session 0 is always open, for OPEN (R96) (DESIGN CHOICE, log entry 94). -/
def Chip.readSession (c : Chip) (n : SessionId) : Word :=
  let s := c.sec.sessions[n.val]
  if n.val = 0 then 0xF0000000 ||| field s.idle 0
  else if !s.isOpen then 0
  else 0x80000000 ||| field s.seat 28 ||| field (satNat 4 (recent 1024 c.dev.tick s.macTicks).length) 24 ||| field s.idle 0

/-- SEC_KEYSTATE of a seat; a check value exists of a key alone (Table 5-4) (DESIGN CHOICE, log entry 23). -/
def Chip.readKey (c : Chip) (seat : BitVec 3) : Word :=
  match fin? 7 seat.toNat with
  | none => field (Config.emptyKcv seat) 16
  | some i =>
    let k := c.sec.keys[i.val]
    let kcv := if c.sec.hasKey i then (keyCheck k.key).extractLsb' 112 16 else Config.emptyKcv seat
    field kcv 16 ||| field k.changes 8 ||| field k.state.code 0

/-- Words of a stage that differ from the table in force. -/
def stageWords (a b : Vector Row 8) : Nat :=
  (((List.finRange 8).flatMap fun s => (List.finRange 8).map fun w =>
    decide (((a[s.val] : Row)[w.val] : Word) ≠ ((b[s.val] : Row)[w.val] : Word))).filter id).length

/-- Block 2 (Tables 5-4 and 6-9) (DESIGN CHOICE, log entry 94). -/
def Chip.readSec (c : Chip) (i ch : Nat) : Word :=
  let x := c.sec
  let n : SessionId := (BitVec.ofNat 4 ch).toFin
  let s := x.sessions[n.val]
  let seat := BitVec.ofNat 3 ch
  match i with
  | 0x00 => field (x.locked ||| x.lockDue) 16 ||| (List.range 7).foldl (fun m k => if x.seatActive k then m ||| (1#32 <<< k) else m) 0
  | 0x01 => c.readSession n
  | 0x02 => c.readKey seat
  | 0x03 => digestWord (tableDigest x.table) ch
  | 0x04 => match x.stage with
    | none => 0
    | some st => field (if st.pressed then (2 : BitVec 2) else 1) 24 ||| field (BitVec.ofNat 8 (stageWords st.rows x.table)) 16
        ||| field st.owner 0
  | 0x05 => x.tblGen
  | 0x06 => field (x.spsDigest.extractLsb' 240 16) 16 ||| field x.breaks 8 ||| field x.sealSt.code 0
  | 0x07 => field x.sealSeat 28 ||| field x.sealEvent 24 ||| field x.sealAudit 0
  | 0x08 => field (BitVec.ofNat 2 (c.level seat)) 8 ||| bit (c.secured seat) 2 ||| BitVec.ofNat 32 (c.view seat)
  | 0x09 => field (match fin? 7 ch with
      | none => 0
      | some k => satNat 6 (c.seatCount k)) 16 ||| field x.macTotal 0
  | 0x0A => field x.macMaxSeat 8 ||| field x.macMaxSession 0
  | 0x0B => field s.replays 16 ||| field s.echoes 0
  | 0x0C => s.high
  | 0x0D => field x.sessTo 0
  | 0x0E => match c.challenge n with
    | none => 0
    | some h => bit true 16 ||| field h.seat 12 ||| field h.age 0
  | 0x0F => s.nonce
  | 0x10 => x.kdfCtx
  | 0x11 => x.secureMask.extractLsb' (32 * ch) 32
  | 0x12 => match x.liveWitness x.witnessTo with
    | none => 0
    | some w => bit true 16 ||| field w.seat 12 ||| field (w.age.setWidth 11) 0
  | 0x13 => field x.witnessTo 0
  | 0x14 => digestWord x.progDigest ch
  | 0x15 => digestWord (x.progSeal.getD 0) ch
  | 0x16 => bit x.tapEn 0
  | 0x17 => 0
  | 0x18 => field x.entropyCause 28 ||| field (BitVec.ofNat 3 x.entropyBuf.length) 24 ||| field x.entropyRunMax 16
      ||| field x.entropyApMax 0
  | _ => bit (decide (c.auditFree < 64)) 16 ||| BitVec.ofNat 32 c.auditFree

/-- The code of a thread state (Table 7-9). -/
def ThreadState.code : ThreadState → BitVec 3
  | .unused => 0 | .ready => 1 | .waiting => 2 | .dark => 3 | .halted => 4

/-- Block 3 (Table 7-9) (DEDUCED, log entry 42). -/
def Chip.readThr (c : Chip) (i : Nat) (t : ThreadId) : Word :=
  let x := c.threads[t.val]
  match i with
  | 0x00 => field x.st.code 0
  | 0x01 => field x.budget 0
  | 0x02 => field x.last 16 ||| field x.peak 0
  | 0x03 => field x.pc 0
  | 0x04 => field x.entry 0
  | 0x05 => field x.restart 0
  | 0x06 => field x.stallMax 0
  | 0x07 => field x.stallCnt 0
  | 0x08 => field (BitVec.ofNat 2 (c.restartWindow t)) 16 ||| field x.restartTotal 0
  | 0x09 => field x.faultPc 16 ||| field x.faultCode 0
  | 0x0A => field x.pend 16 ||| (if x.st = .waiting then field x.mask 0 else 0)
  | _ => field x.actMask 16 ||| field x.seeMask 0

/-- The code of a service state (Table 12-1). -/
def Service.code : Service → BitVec 3
  | .islandOff => 0 | .out => 1 | .homing => 2 | .inspect => 3 | .in_ => 4 | .stoppedFault => 5

/-- The code of a direction. -/
def Dir.code : Dir → BitVec 2
  | .idle => 0 | .up => 1 | .down => 2

/-- The code of an axis state (Table 9-1). -/
def AxisState.code : AxisState → BitVec 3
  | .off => 0 | .idle => 1 | .moving => 2 | .stopping => 3 | .held => 4 | .homing => 5 | .cam => 6

/-- The landing whose position lies nearest a position, the lower on a tie. -/
def Car.nearestLanding (x : Car) (p : Word) : Nat :=
  (nearestBy (fun j => ((x.landingPos j - p.toInt).natAbs : Int)) (List.range x.loaded)).getD 0

/-- The position of a landing as a register value. -/
def Car.landingWord (x : Car) (j : Nat) : Word := BitVec.ofInt 32 (x.landingPos j)

/-- CAR_STOPAT at a view level: the position of the standing STOPAT landing, or of the one shown in its place (Table 6-7). -/
def Chip.readStopat (c : Chip) (who : Who) (k : CarId) (lvl : Nat) : Word :=
  let x := c.cars[k.val]
  if lvl = 0 then (match (c.axes[(carAxis k).val]).stopAt with
    | none => 0x80000000
    | some j => x.landingWord j.toNat)
  else if x.table.isNone then 0
  else match (c.axes[(carAxis k).val]).stopAt with
    | none => 0x80000000
    | some j => x.landingWord (c.shownLanding who k j.toNat)

/-- CAR_LOAD.LOAD at a view level (Table 6-7). -/
def Chip.shownLoad (c : Chip) (k : CarId) (lvl : Nat) : Nat :=
  let n := (c.cars[k.val]).load.toNat
  if lvl = 0 then n
  else if lvl = 1 then n / 500 * 500
  else
    let m := (slice (BitVec.ofNat 32 (c.sps0 (.car 8 k))) 0 16).toNat / 4
    if m = 0 then 0 else n / m * m

/-- A word of CAR_CALLS or CAR_REACH at a view level (Table 6-7, R137). -/
def Chip.maskWord (c : Chip) (who : Who) (x : BitVec 128) (w lvl : Nat) : Word :=
  let m := c.shownMask who x
  if 2 ≤ lvl then BitVec.ofNat 32 (countBits m % 256) else m.extractLsb' (32 * w) 32

/-- Block 4 of a car as an issuer of a view level sees it (Tables 6-7 and 12-10). -/
def Chip.readCar (c : Chip) (who : Who) (lvl i ch : Nat) : Word :=
  let word := i = 0x15 || i = 0x16
  match fin? 12 (if word then ch / 4 else ch) with
  | none => 0
  | some k =>
    let x := c.cars[k.val]
    let a := c.axes[(carAxis k).val]
    let shown := c.shownLanding who k x.landing.toNat
    match i with
    | 0x00 => field x.why 16 ||| field x.service.code 0
    | 0x01 => if lvl = 0 then x.pos else if x.table.isNone then 0 else x.landingWord shown
    | 0x02 => x.speed
    | 0x03 => x.accel
    | 0x04 => bit x.relev 10 ||| bit x.level 9 ||| bit x.zone 8 ||| field (BitVec.ofNat 8 shown) 0
    | 0x05 => bit (a.st = .moving || a.st = .stopping) 4 ||| field x.dir.code 0
    | 0x06 => field (BitVec.ofNat 8 x.loaded) 8 ||| field x.count 0
    | 0x07 => field x.ltbase 0
    | 0x08 => if lvl = 0 then a.target else if x.table.isNone then 0
      else x.landingWord (c.shownLanding who k (x.nearestLanding a.target))
    | 0x09 => a.remain
    | 0x0A => c.readStopat who k lvl
    | 0x12 => field x.slipLast 12 ||| field x.slipChecks 0
    | 0x14 => bit x.run.running 31 ||| field x.run.ticks 0
    | 0x15 => c.maskWord who x.callsMask (ch % 4) lvl
    | 0x16 => c.maskWord who x.reach (ch % 4) lvl
    | 0x17 => bit x.dpcfg.en 31 ||| field x.dpcfg.turnMax 24 ||| field x.dpcfg.missMax 20 ||| field x.dpcfg.spdCnt 16
        ||| field x.dpcfg.spdTol 0
    | 0x18 => field x.mspeed 16 ||| field x.dpStatus 8 ||| field x.dpErr 5 ||| field x.miss 3 ||| field x.spdRun 0
    | 0x19 => bit x.loadValid 31 ||| bit x.overload 30 ||| field (BitVec.ofNat 16 (c.shownLoad k lvl)) 0
    | 0x1B => field x.schedW 16 ||| bit x.modeSrc 7 ||| bit x.modeHold 6 ||| field x.mode 0
    | 0x1C => bit x.faultActive 31 ||| field x.faultOthers 16 ||| field x.faultCause 0
    | _ => field x.refl 24 ||| bit x.side 23 ||| field x.ql 8

/-- The code of a door state (Table 13-2). -/
def DoorState.code : DoorState → BitVec 4
  | .closedLocked => 0 | .closed => 1 | .opening => 2 | .open_ => 3 | .closing => 4 | .reversing => 5 | .nudging => 6
  | .stopped => 7 | .homing => 8 | .learning => 9 | .fault => 10

/-- The code of a motor type (Table 13-1). -/
def MotorType.code : MotorType → BitVec 3
  | .none => 0 | .pmsm => 1 | .stepper => 2 | .bdc => 3

/-- Block 5 (Table 13-4) (DESIGN CHOICE, log entry 49). -/
def Chip.readDoor (c : Chip) (i : Nat) (d : DoorId) : Word :=
  let x := c.doors[d.val]
  let q := x.cfg
  match i with
  | 0x00 => bit x.hot 9 ||| bit (q.type ≠ .none) 8 ||| field x.shown.code 0
  | 0x01 => x.pos
  | 0x02 => x.speed
  | 0x03 => bit q.learned 31 ||| field q.width 0
  | 0x04 => field q.umrev 12 ||| field q.type.code 0
  | 0x05 => field q.cpr 16 ||| field q.poles 0
  | 0x06 => field q.iscale 16 ||| field q.div 0
  | 0x07 => field q.deadt 0
  | 0x09 => field q.iboost 0
  | 0x0A => field x.limit 16 ||| field q.base 0
  | 0x0D => field q.mass 0
  | 0x0E => field q.kt 0
  | 0x0F => bit x.atCap 31 ||| field x.force 0
  | 0x10 => x.ke
  | 0x11 => field q.obstTicks 24 ||| field q.obstPerr 16 ||| field q.obstForce 0
  | 0x12 => field x.obstLast 30 ||| field x.obstCount 0
  | 0x13 => field x.revCycle 16 ||| field x.revTotal 0
  | 0x14 => bit x.armed 31 ||| field q.nudgeAfter 16 ||| field q.nudgeSpeed 0
  | 0x17 => field q.hallOffset 16 ||| bit q.hallInv 13 ||| field q.hallCycles 8 ||| field q.hallCodes 0
  | 0x18 => field x.hallRun 24 ||| field x.hallLast 16 ||| field x.hallErrs 0
  | 0x19 => field x.angleMode 16 ||| field x.angle 0
  | 0x1A => field x.angMax 16 ||| field x.angErr 0
  | 0x1B => field q.sel 24
  | 0x1C => bit q.reopenMaster 0
  | 0x1D => bit x.conf 31 ||| field q.lockTap 16 ||| field q.lockWin 0
  | 0x1E => field q.homeRef 16 ||| field q.stallT 8 ||| bit q.qOpen 0
  | 0x1F => field x.learnResult 28 ||| field q.learnSpeed 20 ||| field q.minW 10 ||| field q.maxW 0
  | 0x20 => bit x.faultActive 31 ||| field x.faultOthers 16 ||| field x.faultCause 0
  | _ => 0

/-- The code of a feedback mode (R217). -/
def FbkMode.code : FbkMode → BitVec 2
  | .off => 0 | .quad => 1 | .ssi => 2 | .switch => 3

/-- Block 6 (Table 10-2); the fields marked SWITCH read 0 in every other mode (R232) (DESIGN CHOICE, log entry 49; DESIGN CHOICE, log entry
105). -/
def Chip.readFbk (c : Chip) (i : Nat) (k : FbkId) : Word :=
  let x := c.fbks[k.val]
  let q := x.cfg
  let quad := x.act.mode = .quad
  let ssi := x.act.mode = .ssi
  let sw := x.act.mode = .switch
  match i with
  | 0x00 => field q.spdTicks 8 ||| bit q.dirInv 4 ||| field q.mode.code 0
  | 0x01 => if quad then x.latched else 0
  | 0x02 => if quad then x.speed else 0
  | 0x03 => field q.swTicks 16 ||| field q.cycles 0
  | 0x04 => bit x.held.isSome 8 ||| bit q.hyst 0
  | 0x05 => field (BitVec.ofNat 10 (c.errorWindow k)) 16 ||| field q.thresh 0
  | 0x06 => x.cmpBase
  | 0x07 => x.cmpStep
  | 0x08 => x.cmpNext
  | 0x09 => x.cmpHits
  | 0x0A => field q.divNum 0
  | 0x0B => field q.divDen 0
  | 0x0C => field q.dzLine 16 ||| bit q.adj 8 ||| field q.codes 0
  | 0x0D => bit (quad && x.zSeen) 13 ||| bit (ssi && x.valid) 12 ||| bit (sw && x.zoneLine) 8
      ||| (if sw then field x.raw 4 ||| field x.code 0 else 0)
  | 0x0E => field x.errLast 16 ||| field x.errs 0
  | 0x0F => q.ssi
  | 0x10 => if quad || ssi then x.pos else 0
  | _ => q.scale

/-- The loop of a trace source, where it is one. -/
def traceLoop (source : Word) : Option LoopId := if slice source 30 2 = 0 then fin? 84 (slice source 7 7).toNat else none

/-- LOOP_TRACE.ARMED: the trace channels that capture a signal of a loop. -/
def Chip.loopArmed (c : Chip) (l : LoopId) : BitVec 8 :=
  (List.finRange 8).foldl (fun m ch => match c.captures[ch.val] with
    | none => m
    | some r => if traceLoop r.item.source = some l then m ||| (1#8 <<< ch.val) else m) 0

/-- Block 7 (Table 11-5) (DESIGN CHOICE, log entry 49; DEDUCED, log entry 69). -/
def Chip.readLoop (c : Chip) (i : Nat) (l : LoopId) : Word :=
  let x := c.loops[l.val]
  let q := x.cfg
  match i with
  | 0x00 => bit q.run 0
  | 0x01 => bit q.bfp 0
  | 0x02 => q.kp
  | 0x03 => q.ki
  | 0x04 => q.kd
  | 0x05 => q.kff
  | 0x06 => q.imin
  | 0x07 => q.imax
  | 0x08 => q.omin
  | 0x09 => q.omax
  | 0x0A => field q.gexp 16 ||| field q.insh 8 ||| field q.outsh 0
  | 0x0B => field q.div 0
  | 0x0C => q.modelA
  | 0x0D => q.modelB
  | 0x0E => q.resBand
  | 0x0F => field q.resMax 24 ||| field x.resRun 16 ||| field x.resLast 0
  | 0x10 => field q.satMax 0
  | 0x11 => field x.satRun 16 ||| field x.satTotal 0
  | 0x12 => field x.trFaulted 16 ||| field x.trTriggered 8 ||| field (c.loopArmed l) 0
  | _ => field x.fault 24 ||| bit x.active 16 ||| bit (c.loopFaulted l || x.lowEnable) 4 ||| bit x.sat 3 ||| bit x.iHeld 2 ||| bit x.iClamp 1

/-- Block 8 (Table 9-5). -/
def Chip.readPrf (c : Chip) (i : Nat) (a : AxisId) : Word :=
  let x := c.axes[a.val]
  match i with
  | 0x00 => field x.st.code 0
  | 0x01 => bit x.seam 0
  | 0x02 => c.setPos a
  | 0x03 => clampInt 32 (c.setVel a)
  | 0x04 => x.target
  | 0x05 => x.remain
  | 0x06 => x.vlim
  | 0x07 => x.alim
  | 0x08 => x.dlim
  | 0x09 => x.jlim
  | 0x0A => field (BitVec.ofNat 4 (8 - x.queue.length)) 8 ||| field (BitVec.ofNat 4 x.queue.length) 0
  | 0x0B => field x.seamTol 0
  | 0x0C => 0
  | 0x0D => match x.engaged with
    | some (t, m) => bit true 31 ||| field t 24 ||| BitVec.ofNat 32 m.val
    | none => field x.lastTable 24 ||| field x.lastMaster 0
  | 0x0E => x.homeCfg
  | _ => bit x.homed 15 ||| bit x.limited 14 ||| bit (c.boundClips a) 13 ||| bit x.discard 4 ||| bit x.homeFail 3 ||| bit x.camLim 2
      ||| bit x.camEdge 1 ||| bit x.limSeen 0

/-- The code of a front-end type (Table 15-1). -/
def FeType.code : FeType → BitVec 3
  | .off => 0 | .bridge => 1 | .rtd => 2 | .tc => 3 | .ntc => 4

/-- Block 9 (Table 15-5) (DESIGN CHOICE, log entry 49). -/
def Chip.readFe (c : Chip) (i : Nat) (y : FeId) : Word :=
  let x := c.fes[y.val]
  let q := x.cfg
  match i with
  | 0x00 => field q.type.code 0
  | 0x01 => field q.curve 0
  | 0x02 => field q.gain 0
  | 0x03 => bit q.burn 12 ||| bit q.ac 8 ||| field q.ix 4 ||| field q.level 0
  | 0x04 => field q.notch 0
  | 0x05 => field q.rate 0
  | 0x06 => field x.raw 0
  | 0x07 => x.value
  | 0x08 => field x.sticky 8 ||| field x.live 0
  | 0x09 => field x.form 28 ||| field q.polyBase 0
  | 0x0A => field q.src 0
  | 0x0B => field q.zero 0
  | 0x0C => q.span
  | 0x0D => field q.win 24 ||| field q.pp 0
  | 0x0E => field q.sband 16 ||| field q.zband 0
  | _ => field x.calRes 28 ||| bit x.act.zset 24 ||| bit (c.filled y) 20 ||| bit x.valid 16 ||| bit x.ofsEdge 12 ||| field x.otrim 0

/-- A mask of the taps of a car for which a condition holds. -/
def tapMask (f : Fin 8 → Bool) : BitVec 8 := (List.finRange 8).foldl (fun m i => if f i then m ||| (1#8 <<< i.val) else m) 0

/-- Block A (Table 14-4). -/
def Chip.readIlk (c : Chip) (i ch : Nat) : Word :=
  if i = 0x03 then match fin? 96 ch with
    | none => 0
    | some s =>
      let t := c.taps[s.val]
      field (t.h.extractLsb' 8 8) 24 ||| field (t.lo.extractLsb' 8 8) 16 ||| field t.t 8 ||| field t.code 0
  else match fin? 12 ch with
  | none => 0
  | some k =>
    let x := (c.cars[k.val]).ilk
    match i with
    | 0x00 => field (tapMask fun j => (c.taps[(carTap k j).val]).outWin) 16 ||| field (tapMask (c.validOn k)) 8
        ||| field (tapMask fun j => c.tapUsed (carTap k j) && c.tapOn (carTap k j)) 0
    | 0x07 => field x.permit 24 ||| field x.zgrant 16 ||| field x.out 8 ||| field x.pump 0
    | 0x08 => field x.req 8 ||| field (c.presented k) 0
    | 0x09 => field x.mismatch 16 ||| field x.rb 8 ||| field x.permit 0
    | 0x0C => field x.clampLive 8 ||| field x.clampSticky 0
    | _ => bit x.rbFault 31 ||| field x.rbWhich 24 ||| bit x.pulseFault 20 ||| bit x.zlock 17 ||| bit x.zexit 16 ||| field x.winTaps 0

/-- The bytes that the running job has read before the cycle in which its issuer reads CRC_STATUS (R338, Table 16-4). -/
def Chip.scanDone (c : Chip) (who : Who) : BitVec 18 :=
  match c.scan.running with
  | none => 0
  | some r =>
    let now := match who with
      | .thread t => if c.stage = .thread then c.cycleOf t 4 else 0
      | .host _ _ _ => 0
    BitVec.ofNat 18 (min r.job.reads (4 * (r.spent + (now - c.scan.cycle))))

/-- Block B (Table 16-4). -/
def Chip.readCrc (c : Chip) (who : Who) (i ch : Nat) : Word :=
  if i = 0x07 then match fin? 3 ch with
    | none => 0
    | some m =>
      let x := c.scan.scrub[m.val]
      field x.rate 28 ||| field x.corr 16 ||| field x.next 0
  else match fin? 8 ch with
  | none => 0
  | some k =>
    let x := c.scan.cks[k.val]
    let runs := (c.scan.running.map fun r => decide (r.job.ck = k)).getD false
    let n := (c.scan.queue.filter fun j => j.ck = k).length + (if runs then 1 else 0)
    let done := if runs then c.scanDone who else x.done
    match i with
    | 0x00 => bit x.cfg.refOut 9 ||| bit x.cfg.refIn 8 ||| field x.cfg.sel 0
    | 0x01 => x.cfg.init
    | 0x02 => x.cfg.xorOut
    | 0x03 => x.val
    | 0x04 => field x.cfg.mode 30 ||| bit x.cfg.cont 28 ||| field x.space 24 ||| field x.start 0
    | 0x05 => field (if runs then (2 : BitVec 2) else if n = 0 then 0 else 1) 30 ||| field (BitVec.ofNat 5 n) 24
        ||| field x.outcome 20 ||| field done 0
    | _ => field x.fails 16 ||| field x.jobs 0

/-- Block C (Table 17-5). -/
def Chip.readJnl (c : Chip) (i ch : Nat) : Word :=
  let j := c.journal
  let s := c.sec.sessions[(BitVec.ofNat 4 ch).toFin.val]
  match i with
  | 0x00 => bit j.fault 31 ||| field j.lwState 29 ||| field j.dropped 22 ||| field (BitVec.ofNat 6 j.queue.length) 16
      ||| field j.admission 0
  | 0x01 => field j.auditHead 0
  | 0x02 => j.auditCount
  | 0x03 => j.opHead
  | 0x04 => j.opTail
  | 0x05 => (if ch < 4 then j.auditChain else j.opChain).extractLsb' (32 * (3 - ch % 4)) 32
  | 0x06 => bit j.tornFound 17 ||| bit j.tornArea 16 ||| field j.tornTotal 0
  | 0x07 => s.readPtr
  | 0x08 => field s.filterCars 16 ||| field s.filterLo 8 ||| field s.filterHi 0
  | _ => j.laps

/-- The states of the three islands of a car, car logic first: 0 OFF, 1 STAGING, 2 TESTING, 3 ON; an island
that has been switched in reads STAGING until all three are tested (R91, Table 4-11) (DESIGN CHOICE, log entry 96). -/
def Chip.islandStates (c : Chip) (k : CarId) : BitVec 2 × BitVec 2 × BitVec 2 :=
  match (c.cars[k.val]).power with
  | .off => (0, 0, 0)
  | .on => (3, 3, 3)
  | .up s =>
    let n := (c.dev.tick - s).toNat
    if 64 ≤ n then (2, 2, 2) else (1, if 16 ≤ n then 1 else 0, if 40 ≤ n then 1 else 0)

/-- PWR_CLKGATE.ENABLED in the order of Table 1-6; while an island is staged the manual does not say which of its domains run
(DESIGN CHOICE, log entry 24). -/
def Chip.clockGates (c : Chip) (k : CarId) : BitVec 15 :=
  match (c.cars[k.val]).power with
  | .off => 0
  | .on => 0x7FFF
  | .up s =>
    let n := (c.dev.tick - s).toNat
    if 64 ≤ n then 0x7FFF
    else (Config.openResult (8 + k.val) c.dev.tick.toNat).setWidth 15 &&& (if 40 ≤ n then 0x7FFF else if 16 ≤ n then 0x07FF else 0x001F)

/-- Block D (Table 4-11). -/
def Chip.readPwr (c : Chip) (i ch : Nat) : Word :=
  let p := c.pwr
  let k : CarId := (fin? 12 ch).getD 0
  let x := c.cars[k.val]
  let s := c.islandStates k
  match i with
  | 0x00 => bit x.powerPending 8 ||| field s.1 4 ||| field s.2.1 2 ||| field s.2.2 0
  | 0x01 => bit x.islandReq 0
  | 0x02 => bit p.avsEdge 24 ||| field p.mon 16 ||| field p.slack 8 ||| field p.vid 0
  | 0x03 => field p.cfg.vboot 24 ||| field p.cfg.vidMax 16 ||| field p.cfg.vidMin 8
  | 0x04 => field (4 : BitVec 6) 24 ||| field p.cfg.slackHi 16 ||| field p.cfg.slackLo 8 ||| field p.worst 0
  | 0x05 => bit c.warning 16 ||| field p.sticky 8 ||| field p.live 0
  | 0x06 => field (c.clockGates k) 0
  | 0x07 => field (p.railMv.toArray.getD ch 0) 0
  | 0x08 => field p.cfg.tempTrip 16 ||| field p.cfg.tempWarn 0
  | _ => field x.islandItem 8 ||| field x.islandResult 0

/-- The word that a register reads as, to an issuer of a view level (R136, R360); a member of the safety parameter set that is
unset reads 0 (DESIGN CHOICE, log entry 49). -/
def Chip.readReg (c : Chip) (who : Who) (lvl : Nat) (r : RegRef) : Word :=
  match (if isSps r.b r.i then spsId r.b r.i r.ch else none) with
  | some id => (c.sps.get id).getD 0
  | none =>
    match r.b with
    | 0 => c.readDev r.i r.ch
    | 1 => c.readLnk r.i
    | 2 => c.readSec r.i r.ch
    | 3 => c.readThr r.i ((fin? 48 r.ch).getD 0)
    | 4 => c.readCar who lvl r.i r.ch
    | 5 => c.readDoor r.i ((fin? 24 r.ch).getD 0)
    | 6 => c.readFbk r.i ((fin? 24 r.ch).getD 0)
    | 7 => c.readLoop r.i ((fin? 84 r.ch).getD 0)
    | 8 => c.readPrf r.i ((fin? 36 r.ch).getD 0)
    | 9 => c.readFe r.i ((fin? 48 r.ch).getD 0)
    | 0xA => c.readIlk r.i r.ch
    | 0xB => c.readCrc who r.i r.ch
    | 0xC => c.readJnl r.i r.ch
    | _ => c.readPwr r.i r.ch

/-! ### Access (R79, R120, R121, R136, R138, R144) -/

/-- A quantity that R138 keeps from all but exact, secured viewers. -/
def RegRef.raw (r : RegRef) : Bool := r.b = 6 || (r.b = 7 && 72 ≤ r.ch) || (r.b = 8 && r.ch < 12)

/-- A GET is veiled at a view level (Table 6-7, R138). -/
def RegRef.veiled (r : RegRef) (lvl : Nat) (secured : Bool) : Bool :=
  if r.raw then lvl ≠ 0 || !secured
  else match r.b with
    | 4 =>
      if r.i = 0x01 || r.i = 0x02 || r.i = 0x04 || r.i = 0x08 || r.i = 0x0A then 2 ≤ lvl
      else if r.i = 0x03 || r.i = 0x09 then 1 ≤ lvl
      else if r.i = 0x05 || r.i = 0x15 || r.i = 0x16 || r.i = 0x19 then 3 ≤ lvl
      else false
    | 9 => r.ch % 4 = 0 && (r.i = 0x06 || r.i = 0x07) && 1 ≤ lvl
    | _ => false

/-- A register of a car whose islands are not all on, which answers STATE (R79). -/
def Chip.regDark (c : Chip) (r : RegRef) : Bool :=
  if 4 ≤ r.b && r.b ≤ 0xA && !isSps r.b r.i && !(r.b = 4 && r.i = 0x00) then
    match regCar r.b r.i r.ch with
    | none => false
    | some k => !(c.cars[k.val]).on
  else false

/-- The DENIED answers of a GET or PUT by class and car (R120, R121, R144). -/
def Chip.regDenied (c : Chip) (who : Who) (r : RegRef) (write : Bool) : Bool :=
  let car := match regCar r.b r.i r.ch with
    | none => false
    | some k => if write then !c.mayAct who k else !c.maySee who k
  match who with
  | .thread _ => car
  | .host _ seat _ => car || !c.classBit seat (regClass r.b r.i) (if write then 1 else 0)

/-- GET (R181 to R183). -/
def bodyGet : Body := fun x _ c =>
  match regRef x.who x.w x.f with
  | none => { refuse .range with illegal := regIllegal x.f }
  | some r =>
    let lvl := c.whoLevel x.who
    { illegal := regIllegal x.f,
      checks := [(c.regDenied x.who r false, .denied), (r.veiled lvl (c.whoSecured x.who), .veiled), (regStray x.w x.f, .range),
        (c.regDark r, .state)],
      queue := none,
      act := fun c => ⟨.done, [(x.f.d, c.readReg x.who lvl r)], [], c⟩ }

/-- GET. -/
def runGet (i : Issuer) (f : Enc) (s : State) : State := issue i 0x1C f 4 bodyGet s

/-- The meaning of GET. -/
def execGet (i : Issuer) (f : Enc) (s : State) : Out := .next (runGet i f s)

end Sys2Proof.Machine
end

