-- ==== Sys2Proof/Machine/RegWrite.lean ====
section
/-! DEFINITION. PUT (R181 to R183, R386 to R388): what a write to each register checks and does, by block, with the audited changes
(R84, R102, R118, R131, R140, R141) and the requests that PUTs carry (R157, R158, R213, R226, R238, R241, R249 to R255, R270,
R281, R289, R291, R294, R323, R341). -/

namespace Sys2Proof.Machine

/-- A value lies outside a stated range. -/
def outside (lo hi x : Nat) : Bool := decide (x < lo) || decide (hi < x)

/-- A PUT that answers DONE where no check refuses it. -/
def putPlan (checks : Checks) (f : Chip → Chip) : Plan :=
  { illegal := false, checks := checks, queue := none, act := fun c => reply .done (f c) }

/-- A PUT to a register with no writable field (R6, R183). -/
def putNone : Plan := putPlan [] id

/-- The register part of a record body: block and index as in GET, then the channel (Table 17-2). -/
def regBytes (r : RegRef) : List Byte := bytesBE (BitVec.ofNat 16 (r.b * 4096 + r.i * 64)) 2 ++ [BitVec.ofNat 8 r.ch]

/-! ### Audited writes -/

/-- An audited write to a register of block 2 (R118, R140, R141): its SECREG record holds the values before and after
(DEDUCED, log entry 37). -/
def putSecReg (who : Who) (c : Chip) (r : RegRef) (v : Word) (checks : Checks) : Plan :=
  let p := c.projected
  let reg : BitVec 6 := BitVec.ofNat 6 r.i
  let ch : BitVec 7 := BitVec.ofNat 7 r.ch
  { illegal := false, checks := checks ++ c.auditRefusals who 1, queue := none,
    act := fun c =>
      c.acceptAudit who (.secreg reg ch v) false none
        [(195, regBytes r ++ bytesBE (p.readSec r.i r.ch) 4 ++ bytesBE ((p.secWrite reg ch v).readSec r.i r.ch) 4)] }

/-- The bits of the fields of a member of the safety parameter set. -/
def spsMask : SpsId → Word
  | .car m _ => ([0xFFFFFFFF, 0xFFFFFFFF, 0xFFFFFFFF, 0xFFFFFFFF, 0xFFFF, 0xFFF0FFFF, 0xFFFFF, 0xFFFFFF, 0xFFFFFFFF] : List Word).getD m.val 0
  | .door m _ => ([0xFFFF, 0xFFFF, 0xFFFF, 0xFFFFFF, 0xFFFFFF, 0xFFFFFFFF] : List Word).getD m.val 0
  | .ilk m _ => ([0xFFFF, 0xFFFFFF0F, 0xFFFFFFFF, 0xFFFFFFFF, 0xFFFFFFFF, 0xFFFF0001, 0x03FF0003] : List Word).getD m.val 0

/-- The taps that a matrix names, in either mask. -/
def matrixTaps (w : Word) : BitVec 8 := slice w 0 8 ||| slice w 16 8

/-- A matrix value breaks R304: MAIN of DRV or BRK without bits 8 and 9, a bit 13 to 15, or a tap that is not in use. -/
def matrixBad (used : BitVec 8) (motion : Bool) (w : Word) : Bool :=
  (motion && slice w 8 2 ≠ (3 : BitVec 2)) || w &&& 0xE000E000 ≠ 0 || matrixTaps w &&& ~~~used ≠ 0

/-- A value of a member lies outside its range (R271, R296, R304, R313), with other members as they will stand once the accepted
changes have taken effect (R388); a comparison with an unset member bounds nothing
(DEDUCED, log entry 51; DEDUCED, log entry 63). -/
def Chip.spsRange (c p : Chip) (i : SpsId) (v : Word) : Bool :=
  let n := v.toNat
  match i with
  | .car m k =>
    (match m.val with
      | 0 => outside 1 17000000 n
      | 1 => outside 1 5000000 n
      | 2 => outside 1 50000000 n
      | 3 => n = 0 || (match p.sps.get (.car 0 k) with
        | some w => decide (w.toNat < n)
        | none => false)
      | 4 => n = 0
      | 5 => slice v 20 12 = (0 : BitVec 12) || (slice v 0 16).toNat < (slice (BitVec.ofNat 32 (p.sps0 (.car 4 k))) 0 16).toNat
      | 6 | 7 => n = 0
      | _ => slice v 0 16 = (0 : BitVec 16) || (slice v 0 16).toNat < (slice v 16 16).toNat)
  | .door m d =>
    (match m.val with
      | 0 => outside 1 32767 n
      | 1 => n = 0 || n ≤ (c.doors[d.val]).cfg.obstForce.toNat
      | 2 | 3 | 4 => n = 0
      | _ => decide ((slice v 16 16 : BitVec 16).toInt ≤ (slice v 0 16 : BitVec 16).toInt))
  | .ilk m k =>
    let used := slice (BitVec.ofNat 32 (p.sps0 (.ilk 0 k))) 8 8
    (match m.val with
      | 0 =>
        let named := matrixTaps (BitVec.ofNat 32 (p.sps0 (.ilk 2 k))) ||| matrixTaps (BitVec.ofNat 32 (p.sps0 (.ilk 3 k)))
          ||| matrixTaps (BitVec.ofNat 32 (p.sps0 (.ilk 4 k)))
        named &&& ~~~(slice v 8 8) ≠ 0
      | 1 =>
        slice v 16 8 = (0 : Byte) || (slice v 24 8).toNat ≤ (slice v 16 8).toNat || 254 < (slice v 24 8).toNat
          || outside 1 31 (slice v 8 8).toNat || outside 2 12 (slice v 0 4).toNat
      | 2 | 3 => matrixBad used true v
      | 4 => matrixBad used false v
      | 5 =>
        (slice v 24 8).toNat < (69632 + c.lnk.ticklen.toNat - 1) / c.lnk.ticklen.toNat + 1 || (slice v 16 8).toNat < 2
      | _ => outside 1 800 (slice v 16 10).toNat)

/-- A PUT to a member of the safety parameter set (R131, R134, R135) (DEDUCED, log entry 38). -/
def putSps (who : Who) (c : Chip) (r : RegRef) (i : SpsId) (v : Word) : Plan :=
  let p := c.projected
  let w := v &&& spsMask i
  let keeper := who.isSeat 0
  let old := p.sps.get i
  let change : Change := .sps i w keeper
  { illegal := false,
    checks := ([(p.sec.sealSt ≠ .open_ && !keeper, .sealed_), (c.spsRange p i w, .range)] : Checks) ++ c.auditRefusals who 1,
    queue := none,
    act := fun c =>
      c.acceptAudit who change (keeper && c.wouldBreak) (regCar r.b r.i r.ch)
        [(196, regBytes r ++ [if old.isNone then 1 else 0] ++ bytesBE (old.getD 0) 4 ++ bytesBE w 4
          ++ [((p.applyChange 0 change).sec.sealSt.code).setWidth 8])] }

/-! ### Blocks 0 to 3 -/

/-- DEV_ADMIT: GO, and a re-admission (R76, R84) (DEDUCED, log entry 38). -/
def putAdmit (who : Who) (c : Chip) (v : Word) : Plan :=
  let readmit : BitVec 16 := slice v 16 16
  if readmit = 0 then
    putPlan [(!who.isSeat 0 && !who.isSeat 1, .denied), (c.dev.state = .tripped, .state)] fun c =>
      if c.dev.state = .admitting && v.getLsbD 8 then c.modDev fun d => { d with go := true } else c
  else
    { illegal := false,
      checks := ([(!who.isSeat 0, .denied), (readmit ≠ 0xA5D1, .range)] : Checks) ++ c.auditRefusals who 1, queue := none,
      act := fun c =>
        c.acceptAudit who .readmit false none
          [(199, [(c.dev.state.code).setWidth 8, if c.dev.state = .tripped then c.dev.cause.setWidth 8 else 0])] }

/-- Block 1 (R71, Table 3-12). -/
def putLnk (c : Chip) (i : Nat) (v : Word) : Plan :=
  let out : Bool × Status := (c.dev.state ≠ .admitting, .state)
  let set := fun (f : LnkCfg → LnkCfg) (c : Chip) => c.modLnk fun l => { l with cfg := f l.cfg }
  match i with
  | 0x00 => putPlan [] fun c => c.modLnk fun l =>
    { l with
      duneEdge := l.duneEdge && !v.getLsbD 14, rxEdge := l.rxEdge && !v.getLsbD 13, eqEdge := l.eqEdge && !v.getLsbD 12,
      frameSkip := l.frameSkip && !v.getLsbD 11 }
  | 0x03 => putPlan [out] (set fun q => { q with drops := slice v 0 4 })
  | 0x05 => putPlan [(outside 1 16 (slice v 0 5).toNat, .range)] (set fun q => { q with darkMax := slice v 0 5 })
  | 0x08 => putPlan [out, (outside 320 4095 (slice v 0 13).toNat, .range)] (set fun q => { q with slotBase := slice v 0 13 })
  | 0x09 => putPlan [out, (outside 1340 3000 (slice v 0 12).toNat, .range)] (set fun q => { q with slotLen := slice v 0 12 })
  | 0x0A => putPlan [out, (outside 8 64 (slice v 0 7).toNat, .range)] (set fun q => { q with wadi := slice v 0 7 })
  | 0x0C =>
    putPlan [(slice v 16 4 = (0 : BitVec 4) || slice v 12 2 = (0 : BitVec 2) || outside 1 32 (slice v 0 6).toNat, .range)]
      (set fun q => { q with hold := slice v 16 4, maxStep := slice v 12 2, deadband := slice v 8 3, rxWin := slice v 0 6 })
  | 0x0E =>
    putPlan [((slice v 12 4).toNat < (slice v 8 4).toNat, .range)]
      (set fun q => { q with eqMax := slice v 12 4, eqMin := slice v 8 4, txEmph := slice v 0 2 })
  | 0x13 => putPlan [] (set fun q => { q with traceMask := slice v 0 8 })
  | _ => putNone

/-- SEC_ZEROIZE (R102). -/
def putZeroize (who : Who) (c : Chip) (v : Word) : Plan :=
  let seats : BitVec 7 := slice v 0 7
  { illegal := false,
    checks := ([(!who.isSeat 0, .denied), (slice v 16 16 ≠ (0x9E0C : BitVec 16) || seats = 0, .range)] : Checks)
      ++ c.auditRefusals who 1,
    queue := none,
    act := fun c =>
      c.acceptAudit who (.zeroize seats) (c.wouldBreak && (seats.getLsbD 1 || seats.getLsbD 2)) none
        [(194, [seats.setWidth 8])] }

/-- Block 2 (R118, R141). -/
def putSec (who : Who) (c : Chip) (r : RegRef) (v : Word) : Plan :=
  let keeper : Bool × Status := (!who.isSeat 0, .denied)
  match r.i with
  | 0x00 => putSecReg who c r v [keeper]
  | 0x0A => putSecReg who c r v [keeper, (outside 1 32 (slice v 8 6).toNat || outside 1 8 (slice v 0 4).toNat, .range)]
  | 0x0D => putSecReg who c r v [keeper, (outside 256 1000000 (slice v 0 20).toNat, .range)]
  | 0x10 => putSecReg who c r v [keeper]
  | 0x11 => putSecReg who c r v []
  | 0x13 => putSecReg who c r v [keeper, (outside 64 2047 (slice v 0 11).toNat, .range)]
  | 0x16 => putSecReg who c r v [(c.running, .state)]
  | 0x17 => putZeroize who c v
  | _ => putNone

/-- The stored budgets of a thread's cluster, with its own replaced (R151) (DESIGN CHOICE, log entry 45). -/
def Chip.clusterBudget (c : Chip) (t : ThreadId) (n : Nat) : Nat :=
  (((List.finRange 48).filter fun u => decide ((clusterOf u).1 = (clusterOf t).1) && decide (u ≠ t)).map fun u =>
    (c.threads[u.val]).budget.toNat).foldl (· + ·) n

/-- A HALT command is turned away: a car or door thread of a car in service, or a system thread (R158). -/
def Chip.haltRefused (c : Chip) (t : ThreadId) : Bool :=
  match carOfThread t with
  | some k =>
    let st := (c.cars[k.val]).service
    st ≠ .out && st ≠ .stoppedFault && st ≠ .islandOff
  | none => 44 ≤ t.val

/-- Block 3 (R144, R151, R157, R158, R166). -/
def putThr (c : Chip) (i : Nat) (t : ThreadId) (v : Word) : Plan :=
  match i with
  | 0x00 =>
    let cmd := (slice v 28 4).toNat
    putPlan
      [(outside 1 2 cmd, .range), (cmd = 1 && decide (c.restartWindow t = 3), .state), (cmd = 2 && c.haltRefused t, .state)]
      fun c => c.modThread t fun x => { x with cmd := some (if cmd = 1 then .restart else .halt) }
  | 0x01 =>
    let n := (slice v 0 14).toNat
    putPlan [((n ≠ 0 && outside 16 c.window.toNat n) || decide (c.window.toNat < c.clusterBudget t n), .range)]
      fun c => c.modThread t fun x => { x with budget := slice v 0 14 }
  | 0x06 =>
    putPlan [(outside 4 4096 (slice v 0 16).toNat, .range)] fun c => c.modThread t fun x => { x with stallMax := slice v 0 16 }
  | 0x0B =>
    if 36 ≤ t.val && t.val < 44 then
      putPlan [] fun c => c.modThread t fun x => { x with actMask := slice v 16 12, seeMask := slice v 0 12 }
    else putNone
  | _ => putNone

/-! ### Cars (block 4) -/

/-- The refusal that keeps a setting to cars in OUT. -/
def Chip.notOut (c : Chip) (k : CarId) : Bool × Status := ((c.cars[k.val]).service ≠ .out, .state)

/-- CAR_SERVICE.REQ (R249, R250, R253): REFUSED writes the unmet conditions to WHY. -/
def putService (c : Chip) (k : CarId) (v : Word) : Plan :=
  let req : BitVec 4 := slice v 28 4
  let ans := c.request k req
  { illegal := false, checks := [(ans.1.isSome, ans.1.getD .state)], queue := none,
    act := fun c => reply .done (c.acceptRequest k req ans.2.2),
    onRefusal := fun st c => if st = .refused then c.modCar k fun x => { x with why := ans.2.1 } else c }

/-- The words of a run of data RAM bytes. -/
def wordsOf (a n : Nat) : Nat → Bool := fun w => decide (a < 4 * w + 4) && decide (4 * w < a + n)

/-- CAR_LTBASE loads the landing table (R255). -/
def putLandingTable (who : Who) (m : Mems) (c : Chip) (k : CarId) (v : Word) : Plan :=
  let a := (slice v 0 18).toNat
  let n := (c.cars[k.val]).count.toNat
  let t := m.landingTable a n
  (putPlan [c.notOut k] fun c => c.modCar k fun x => { x with ltbase := slice v 0 18, tableNext := t }).reads
    c who 4 0 (wordsOf a (8 + 16 * n)) [(t.isNone, .range)]

/-- CAR_MODE: the traffic mode, HOLD and the schedule table (R270) (DEDUCED, log entry 50). -/
def putMode (who : Who) (m : Mems) (c : Chip) (k : CarId) (v : Word) : Plan :=
  let w : BitVec 16 := slice v 16 16
  let t := if w = 0 then none else m.schedule w.toNat
  let n := (slice (m.ram.readLE (4 * w.toNat)) 0 6 : BitVec 6).toNat
  let plan := putPlan [] fun c =>
    c.modCar k fun x =>
      { x with
        schedW := w, schedule := t, schedSel := none, modeHold := v.getLsbD 6, mode := slice v 0 4, modeSrc := false }
  if w = 0 then plan else plan.reads c who 4 0 (wordsOf (4 * w.toNat) (4 * (n + 1))) [(t.isNone, .range)]

/-- Block 4 outside the safety parameter set (R271). -/
def putCar (who : Who) (m : Mems) (c : Chip) (i : Nat) (k : CarId) (v : Word) : Plan :=
  match i with
  | 0x00 => putService c k v
  | 0x06 =>
    putPlan [c.notOut k, (outside 2 128 (slice v 0 8).toNat, .range)] fun c => c.modCar k fun x => { x with count := slice v 0 8 }
  | 0x07 => putLandingTable who m c k v
  | 0x17 =>
    let q : DpCfg := ⟨v.getLsbD 31, slice v 24 4, slice v 20 2, slice v 16 3, slice v 0 16⟩
    putPlan [c.notOut k, (q.turnMax.toNat < 2 || q.missMax = 3 || q.spdCnt = 0 || q.spdTol = 0, .range)] fun c =>
      c.modCar k fun x => { x with dpcfg := q }
  | 0x1B => putMode who m c k v
  | 0x1C => putPlan [] fun c => c.modCar k fun x => { x with faultOthers := x.faultOthers &&& ~~~(slice v 16 12) }
  | 0x1D =>
    putPlan [c.notOut k] fun c => c.modCar k fun x => { x with refl := slice v 24 8, side := v.getLsbD 23, ql := slice v 8 8 }
  | _ => putNone

/-! ### Doors (block 5) -/

/-- DOOR_STATE.REQ (R289, R291). -/
def putDoorReq (c : Chip) (d : DoorId) (v : Word) : Plan :=
  let x := c.doors[d.val]
  let unused : Bool × Status := (!x.inUse, .state)
  match (slice v 28 4).toNat with
  | 1 =>
    putPlan [unused, (x.st ≠ .closing && x.st ≠ .reversing && x.st ≠ .opening, .state)] fun c =>
      if x.st = .closing then c.startReopen d else c
  | 2 =>
    putPlan [unused] fun c =>
      c.modDoor d fun x => { x with armed := true, st := if x.st = .closing then .nudging else x.st }
  | 3 =>
    putPlan [unused, (x.st ≠ .fault, .state), (x.speed ≠ 0 || x.tempBad, .refused)] fun c =>
      c.modDoor d fun x => { x with clearing := true }
  | _ => putPlan [(true, .range)] id

/-- A sine table with the writes that wait for the boundary. -/
def Chip.sineStored (c : Chip) (t : BitVec 2) : List (BitVec 16) :=
  c.sineNext.foldl (fun l w => if w.1 = t then l.set w.2.1.toNat w.2.2 else l) c.sine[t.toNat]

/-- A door in use selects a sine table while its car is neither OUT nor ISLAND_OFF (R281) (DEDUCED, log entry 66). -/
def Chip.sineHeld (c : Chip) (t : BitVec 2) : Bool :=
  (List.finRange 24).any fun d =>
    let k := c.cars[(carOfDoor d).val]
    (c.doors[d.val]).inUse && (c.doors[d.val]).cfg.sel = t && k.service ≠ .out && k.service ≠ .islandOff

/-- DOOR_SINTAB: SEL, and with WR an entry of a table (R281, R296) (DEDUCED, log entry 66). -/
def putSintab (c : Chip) (d : DoorId) (v : Word) : Plan :=
  let wr := v.getLsbD 31
  let t : BitVec 2 := slice v 28 2
  let sel : BitVec 2 := slice v 24 2
  let e : Byte := slice v 16 8
  let x : BitVec 16 := slice v 0 16
  let tab := c.sineStored t
  let low := if e = 0 then 0 else (tab.getD (e.toNat - 1) 0).toNat
  let high := if e = 255 then 65535 else (tab.getD (e.toNat + 1) 0).toNat
  putPlan
    [(wr && outside low high x.toNat, .range), (wr && c.sineHeld t, .state),
      (sel ≠ (c.doors[d.val]).cfg.sel && (c.cars[(carOfDoor d).val]).service ≠ .out, .state)]
    fun c =>
      let c := c.modDoor d fun y => { y with cfg := { y.cfg with sel := sel } }
      if wr then { c with sineNext := c.sineNext ++ [(t, e, x)] } else c

/-- DOOR_LEARN: its settings, and with GO a width learn (R294, R296) (DEDUCED, log entry 50; DEDUCED, log entry 62). -/
def putLearn (c : Chip) (d : DoorId) (v : Word) : Plan :=
  let x := c.doors[d.val]
  let a := c.axes[(doorAxis d).val]
  let k := carOfDoor d
  let st := (c.cars[k.val]).service
  let speed : Byte := slice v 20 8
  let minW : BitVec 10 := slice v 10 10
  let maxW : BitVec 10 := slice v 0 10
  let same := speed = x.cfg.learnSpeed && minW = x.cfg.minW && maxW = x.cfg.maxW
  let set := fun (q : DoorCfg) => { q with learnSpeed := speed, minW := minW, maxW := maxW }
  if v.getLsbD 31 then
    putPlan
      [((st ≠ .out && st ≠ .inspect) || x.st = .fault || (st ≠ .out && !same), .state),
        (minW = 0 || maxW.toNat ≤ minW.toNat || speed = 0, .range),
        (!a.homed || (x.st ≠ .closed && x.st ≠ .closedLocked) || a.st ≠ .idle || !a.queue.isEmpty || c.doorLow k, .refused)]
      fun c =>
        let target := BitVec.ofNat 32 (maxW.toNat * 4096)
        let c1 := c.modDoor d fun y =>
          let y := y.enter .learning
          { y with cfg := set y.cfg, act := set y.act, learn := some ⟨false, none⟩, learnResult := 1 }
        c1.modAxis (doorAxis d) fun y =>
          { y with
            st := .moving, target := target, e := genPos target, remain := 0, stopAt := none, limited := false,
            cap := some (speed.toNat * 1000) }
  else
    putPlan [c.notOut k, (speed = 0, .range)] fun c => c.modDoor d fun y => { y with cfg := set y.cfg }

/-- Block 5 outside the safety parameter set (R296). -/
def putDoor (c : Chip) (i : Nat) (d : DoorId) (v : Word) : Plan :=
  let x := c.doors[d.val]
  let out := c.notOut (carOfDoor d)
  let p := c.projected
  let set := fun (f : DoorCfg → DoorCfg) (c : Chip) => c.modDoor d fun y => { y with cfg := f y.cfg }
  let lo16 : BitVec 16 := slice v 0 16
  let hi16 : BitVec 16 := slice v 16 16
  let dead := fun (deadt : Byte) (div : BitVec 2) => decide (c.lnk.ticklen.toNat / (div.toNat + 1) ≤ 2 * deadt.toNat)
  match i with
  | 0x00 => putDoorReq c d v
  | 0x03 =>
    let w : BitVec 22 := slice v 0 22
    putPlan [out, (w ≠ 0 && w.toNat < 100000, .range)] (set fun q => { q with width := w })
  | 0x04 =>
    let t : BitVec 3 := slice v 0 3
    putPlan [out, (4 ≤ t.toNat, .range)] (set fun q =>
      { q with
        umrev := slice v 12 20,
        type := match t.toNat with
          | 1 => .pmsm
          | 2 => .stepper
          | 3 => .bdc
          | _ => .none })
  | 0x05 =>
    let poles : Byte := slice v 0 8
    putPlan [out, ((hi16 ≠ 0 && hi16.toNat < 4) || poles.getLsbD 0, .range)] (set fun q => { q with cpr := hi16, poles := poles })
  | 0x06 =>
    let div : BitVec 2 := slice v 0 2
    putPlan [out, (dead x.cfg.deadt div, .range)] (set fun q => { q with iscale := hi16, div := div })
  | 0x07 =>
    let deadt : Byte := slice v 0 8
    putPlan [out, (dead deadt x.cfg.div, .range)] (set fun q => { q with deadt := deadt })
  | 0x09 => putPlan [out, (32767 < lo16.toNat, .range)] (set fun q => { q with iboost := lo16 })
  | 0x0A =>
    let above := match p.sps.get (.door 0 d) with
      | some w => decide ((slice w 0 16).toNat < lo16.toNat)
      | none => false
    putPlan [out, (lo16 = 0 || above, .range)] (set fun q => { q with base := lo16 })
  | 0x0D => putPlan [out] (set fun q => { q with mass := lo16 })
  | 0x0E => putPlan [out] (set fun q => { q with kt := lo16 })
  | 0x11 =>
    let ticks : Byte := slice v 24 8
    let perr : Byte := slice v 16 8
    let above := match p.sps.get (.door 1 d) with
      | some w => decide ((slice w 0 16).toNat ≤ lo16.toNat)
      | none => false
    putPlan [out, (ticks = 0 || perr = 0 || lo16 = 0 || above, .range)]
      (set fun q => { q with obstTicks := ticks, obstPerr := perr, obstForce := lo16 })
  | 0x14 =>
    putPlan [(outside 1 2000 lo16.toNat, .range)] (set fun q => { q with nudgeAfter := slice v 16 8, nudgeSpeed := lo16 })
  | 0x17 =>
    let cycles : BitVec 5 := slice v 8 5
    putPlan [out, (cycles = 0, .range)]
      (set fun q => { q with hallOffset := hi16, hallInv := v.getLsbD 13, hallCycles := cycles, hallCodes := slice v 0 8 })
  | 0x1B => putSintab c d v
  | 0x1C => putPlan [out] (set fun q => { q with reopenMaster := v.getLsbD 0 })
  | 0x1D => putPlan [out, (lo16 = 0, .range)] (set fun q => { q with lockTap := slice v 16 3, lockWin := lo16 })
  | 0x1E =>
    let stallT : Byte := slice v 8 8
    putPlan [out, (stallT = 0, .range)] (set fun q => { q with homeRef := hi16, stallT := stallT, qOpen := v.getLsbD 0 })
  | 0x1F => putLearn c d v
  | 0x20 => putPlan [] fun c => c.modDoor d fun y => { y with faultOthers := y.faultOthers &&& ~~~(slice v 16 12) }
  | _ => putNone

/-! ### Feedback (block 6) and loops (block 7) -/

/-- Block 6 (R217, R218, R226, R227, R231, R232) (DEDUCED, log entry 67). -/
def putFbk (c : Chip) (i : Nat) (f : FbkId) (v : Word) : Plan :=
  let x := c.fbks[f.val]
  let out := c.notOut (carOfFbk f)
  let set := fun (g : FbkCfg → FbkCfg) (c : Chip) => c.modFbk f fun y => { y with cfg := g y.cfg }
  match i with
  | 0x00 =>
    let mode : FbkMode := match (slice v 0 2).toNat with
      | 0 => .off
      | 1 => .quad
      | 2 => .ssi
      | _ => .switch
    let ticks : Byte := slice v 8 8
    let fits := if f.val % 2 = 0 then mode = .off || mode = .quad else mode ≠ .quad
    putPlan [out, (ticks = 0 || !fits, .range)] (set fun q => { q with spdTicks := ticks, dirInv := v.getLsbD 4, mode := mode })
  | 0x03 =>
    let ticks : Byte := slice v 16 8
    let cycles : BitVec 5 := slice v 0 5
    putPlan [out, (ticks = 0 || cycles = 0, .range)] (set fun q => { q with swTicks := ticks, cycles := cycles })
  | 0x04 => putPlan [out] (set fun q => { q with hyst := v.getLsbD 0 })
  | 0x05 =>
    let n : BitVec 10 := slice v 0 10
    putPlan [out, (outside 1 1022 n.toNat, .range)] (set fun q => { q with thresh := n })
  | 0x06 => putPlan [] fun c => c.modFbk f fun y => { y with cmpBase := v, cmpArm := true }
  | 0x07 => putPlan [(v = 1 || v = 0xFFFFFFFF, .range)] fun c => c.modFbk f fun y => { y with cmpStep := v }
  | 0x0A =>
    if f.val % 2 = 0 then
      putPlan [(x.cfg.divDen.toNat < (slice v 0 16).toNat, .range)] fun c =>
        c.modFbk f fun y => { y with cfg := { y.cfg with divNum := slice v 0 16 }, divWritten := true }
    else putNone
  | 0x0B =>
    putPlan [(slice v 0 16 = (0 : BitVec 16) || (slice v 0 16).toNat < x.cfg.divNum.toNat, .range)] fun c =>
      c.modFbk f fun y => { y with cfg := { y.cfg with divDen := slice v 0 16 }, divWritten := true }
  | 0x0C =>
    putPlan [out, (slice v 16 2 = (3 : BitVec 2), .range)]
      (set fun q => { q with dzLine := slice v 16 2, adj := v.getLsbD 8, codes := slice v 0 8 })
  | 0x0D => putPlan [] fun c => c.modFbk f fun y => { y with zSeen := y.zSeen && !v.getLsbD 13 }
  | 0x0F =>
    putPlan
      [out, (outside 20 1250 (slice v 21 11).toNat || (slice v 16 5).toNat < 12 || slice v 12 2 = (3 : BitVec 2)
        || slice v 8 4 = (0 : BitVec 4) || slice v 0 8 = (0 : Byte)
        || decide (ssiDiv v * c.lnk.ticklen.toNat < (ssiClocks v + ssiMono v) * ssiPeriod v), .range)]
      (set fun q => { q with ssi := v })
  | 0x11 => putPlan [out] (set fun q => { q with scale := v })
  | _ => putNone

/-- A gain outside the range of a format (R237). -/
def gainBad (bfp : Bool) (v : Word) : Bool :=
  if bfp then v.toInt < -8388608 || 8388607 < v.toInt else v.toInt < -32768 || 32767 < v.toInt

/-- A limit of a current stage outside 16 bits (R242). -/
def stageBad (l : LoopId) (v : Word) : Bool := l.val < 72 && l.val % 3 = 0 && (v.toInt < -32768 || 32767 < v.toInt)

/-- The stored DIV of another stage of the same door. -/
def Chip.storedDiv (c : Chip) (l : Nat) : Nat := match fin? 84 l with
  | some i => (c.loops[i.val]).cfg.div.toNat
  | none => 1

/-- A divider breaks R234. -/
def Chip.divBad (c : Chip) (l : LoopId) (n : Nat) : Bool :=
  if 72 ≤ l.val then outside 1 64 n
  else if l.val % 3 = 1 then outside 1 16 n || c.storedDiv (l.val + 1) % n ≠ 0
  else outside 1 128 n || n % c.storedDiv (l.val - 1) ≠ 0

/-- A door's loop whose door is in FAULT, or a car's whose car is in STOPPED_FAULT (R241). -/
def Chip.loopHeld (c : Chip) (l : LoopId) : Bool :=
  if 72 ≤ l.val then (c.cars[(carOfLoop l).val]).service = .stoppedFault
  else match doorOfLoop l with
  | some d => (c.doors[d.val]).st = .fault
  | none => false

/-- Block 7 (R234, R237, R238, R240 to R242, R247). -/
def putLoop (c : Chip) (i : Nat) (l : LoopId) (v : Word) : Plan :=
  let q := (c.loops[l.val]).cfg
  let out := c.notOut (carOfLoop l)
  let set := fun (g : LoopCfg → LoopCfg) (c : Chip) => c.modLoop l fun y => { y with cfg := g y.cfg }
  let gain : Bool × Status := (gainBad q.bfp v, .range)
  match i with
  | 0x00 => putPlan [] fun c =>
    let held := c.loopHeld l
    c.modLoop l fun y =>
      { y with
        cfg := { y.cfg with run := v.getLsbD 0 }, ireset := y.ireset || v.getLsbD 8,
        clearFault := y.clearFault || (v.getLsbD 0 && y.fault ≠ 0 && !held) }
  | 0x01 =>
    let b := v.getLsbD 0
    putPlan [out, (gainBad b q.kp || gainBad b q.ki || gainBad b q.kd || gainBad b q.kff, .range)] (set fun q => { q with bfp := b })
  | 0x02 => putPlan [gain] (set fun q => { q with kp := v })
  | 0x03 => putPlan [gain] (set fun q => { q with ki := v })
  | 0x04 => putPlan [gain] (set fun q => { q with kd := v })
  | 0x05 => putPlan [gain] (set fun q => { q with kff := v })
  | 0x06 => putPlan [(decide (q.imax.toInt < v.toInt), .range)] (set fun q => { q with imin := v })
  | 0x07 => putPlan [(decide (v.toInt < q.imin.toInt), .range)] (set fun q => { q with imax := v })
  | 0x08 => putPlan [(decide (q.omax.toInt < v.toInt) || stageBad l v, .range)] (set fun q => { q with omin := v })
  | 0x09 => putPlan [(decide (v.toInt < q.omin.toInt) || stageBad l v, .range)] (set fun q => { q with omax := v })
  | 0x0A =>
    putPlan [(47 < (slice v 16 6).toNat, .range)]
      (set fun q => { q with gexp := slice v 16 6, insh := slice v 8 5, outsh := slice v 0 4 })
  | 0x0B =>
    if l.val < 72 && l.val % 3 = 0 then putNone
    else putPlan [out, (c.divBad l (slice v 0 8).toNat, .range)] (set fun q => { q with div := slice v 0 8 })
  | 0x0C => putPlan [out] (set fun q => { q with modelA := v })
  | 0x0D => putPlan [out] (set fun q => { q with modelB := v })
  | 0x0E => putPlan [out] (set fun q => { q with resBand := v })
  | 0x0F => putPlan [out, (slice v 24 8 = (0 : Byte), .range)] (set fun q => { q with resMax := slice v 24 8 })
  | 0x10 => putPlan [out] (set fun q => { q with satMax := slice v 0 16 })
  | 0x12 => putPlan [] fun c => c.modLoop l fun y =>
    { y with trFaulted := y.trFaulted &&& ~~~(slice v 16 8), trTriggered := y.trTriggered &&& ~~~(slice v 8 8) }
  | _ => putNone

/-! ### Profile generators (block 8) -/

/-- An axis has engaged a table. -/
def Axis.engages (x : Axis) (t : BitVec 4) : Bool :=
  match x.engaged with
  | some (u, _) => decide (u = t)
  | none => false

/-- Some axis has engaged a cam table, be a release of it accepted already, or is about to (R213) (DEDUCED, log entry 123). -/
def Chip.tableEngaged (c : Chip) (t : BitVec 4) : Bool :=
  c.axes.toList.any fun x => x.engages t || x.projected.engages t

/-- PRF_CAMSEL: HALF 0 stages, HALF 1 writes a word of a cam table (R213). -/
def putCamsel (who : Who) (m : Mems) (c : Chip) (a : AxisId) (v : Word) : Plan :=
  let t : BitVec 4 := slice v 25 4
  let point : BitVec 9 := slice v 16 9
  let data : BitVec 16 := slice v 0 16
  let held : Bool × Status := (c.tableEngaged t, .state)
  if v.getLsbD 29 then
    match (c.axes[a.val]).camStage with
    | none => putPlan [(true, .state)] id
    | some (u, p, low) =>
      { illegal := false, checks := [held, (u ≠ t || p ≠ point, .state)], queue := none,
        act := fun c =>
          let at_ := 2048 * t.toNat + 4 * point.toNat
          let c1 := match who with
            | .thread u => (c.noteScanned 2 (at_ / 4) (c.startedAt who 4)).logCam m at_ (c.startedAt who 4) ((clusterOf u).1 + 1) (data ++ low)
            | .host _ _ _ => c
          ⟨.done, [], [.cam at_ (data ++ low)], c1.modAxis a fun x => { x with camStage := none }⟩ }
  else putPlan [held] fun c => c.modAxis a fun x => { x with camStage := some (t, point, data) }

/-- Block 8 (R203, R210, R213, R215, R216) (DEDUCED, log entry 54). -/
def putPrf (who : Who) (m : Mems) (c : Chip) (i : Nat) (a : AxisId) (v : Word) : Plan :=
  let x := c.axes[a.val]
  let limit := fun (lim : BitVec 2) =>
    putPlan [(v = 0 || decide (c.axisBound a lim < v.toNat), .range)] fun c => c.modAxis a fun y => y.setLimit lim v
  match i with
  | 0x01 =>
    putPlan [(x.st ≠ .idle || !x.queue.isEmpty, .state), (a.val < 12 && v.getLsbD 0, .range)] fun c =>
      c.modAxis a fun y => { y with seam := v.getLsbD 0 }
  | 0x06 => limit 0
  | 0x07 => limit 1
  | 0x08 => limit 2
  | 0x09 => limit 3
  | 0x0B =>
    putPlan [(1000000 < (slice v 0 20).toNat, .range)] fun c => c.modAxis a fun y => { y with seamTol := slice v 0 20 }
  | 0x0C => putCamsel who m c a v
  | 0x0E =>
    putPlan [(x.st = .homing, .state), (v.getLsbD 28 || slice v 16 11 = (0 : BitVec 11) || slice v 0 16 = (0 : BitVec 16), .range)] fun c =>
      c.modAxis a fun y => { y with homeCfg := v }
  | 0x0F => putPlan [] fun c => c.modAxis a fun y =>
    { y with
      discard := y.discard && !v.getLsbD 4, homeFail := y.homeFail && !v.getLsbD 3, camLim := y.camLim && !v.getLsbD 2,
      camEdge := y.camEdge && !v.getLsbD 1, limSeen := y.limSeen && !v.getLsbD 0 }
  | _ => putNone

/-! ### Front ends (block 9) -/

/-- Coefficient pair i of a block at a byte address (R323). -/
def Mems.coef (m : Mems) (addr i : Nat) : Option Coef :=
  let e := m.ram.readLE (addr + 8 * i + 12)
  let x : BitVec 8 := slice e 0 8
  if e &&& 0xFFFFFF00 ≠ 0 || x.toInt < -96 || 31 < x.toInt then none else some ⟨m.ram.readLE (addr + 8 * i + 8), x⟩

/-- The coefficient block at a byte address: its form and pairs, absent where R323 answers RANGE. -/
def Mems.coefBlock (m : Mems) (addr : Nat) : Option (BitVec 4 × List Coef) :=
  let head := m.ram.readLE addr
  let n := if head = 1 then 12 else if head = 2 then 3 else 0
  if addr % 4 ≠ 0 || 0x30000 < addr + 8 || n = 0 || 0x30000 < addr + 8 + 8 * n || m.ram.readLE (addr + 4) ≠ 0 then none
  else
    let l := (List.range n).filterMap (m.coef addr)
    if l.length = n then some (slice head 0 4, l) else none

/-- The bytes of the coefficient block at a byte address, by its header (R323). -/
def Mems.coefBytes (m : Mems) (addr : Nat) : Nat :=
  let head := m.ram.readLE addr
  8 + 8 * (if head = 1 then 12 else if head = 2 then 3 else 0)

/-- The curves of a type, the default first (Table 15-3) (DEDUCED, log entry 77). -/
def FeType.curves : FeType → List (BitVec 4)
  | .off => []
  | .bridge => [0, 7]
  | .rtd => [1, 2]
  | .tc => [3, 4, 5]
  | .ntc => [6]

/-- A channel's stored type suits compensation (R325). -/
def Chip.compSuits (c : Chip) (x : FeId) (src : BitVec 3) : Bool :=
  if src = 4 || src = 7 then true
  else if 4 ≤ src.toNat || src.toNat = x.val % 4 then false
  else match fin? 48 (4 * (x.val / 4) + src.toNat) with
  | some y => (c.fes[y.val]).cfg.type = .rtd || (c.fes[y.val]).cfg.type = .ntc
  | none => false

/-- Block 9 (R314, R322, R323, R325, R327, R331) (DEDUCED, log entry 77). -/
def putFe (who : Who) (m : Mems) (c : Chip) (i : Nat) (y : FeId) (v : Word) : Plan :=
  let q := (c.fes[y.val]).cfg
  let held : Checks := [c.notOut (carOfFe y), (c.calPending y, .busy)]
  let set := fun (g : FeCfg → FeCfg) (c : Chip) => c.modFe y fun x => { x with cfg := g x.cfg }
  match i with
  | 0x00 =>
    let n := (slice v 0 3).toNat
    let type : FeType := match n with
      | 1 => .bridge
      | 2 => .rtd
      | 3 => .tc
      | 4 => .ntc
      | _ => .off
    let fits := if y.val % 4 = 0 then n ≤ 1 else n ≤ 4 && n ≠ 1
    putPlan ((!fits, .range) :: held) (set fun q =>
      { q with
        type := type, curve := type.curves.headD q.curve, zset := q.zset && type = q.type })
  | 0x01 => putPlan ((!q.type.curves.contains (slice v 0 4), .range) :: held) (set fun q => { q with curve := slice v 0 4 })
  | 0x02 =>
    putPlan held (set fun q => { q with gain := slice v 0 3, zset := q.zset && slice v 0 3 = q.gain })
  | 0x03 =>
    let ix : BitVec 2 := slice v 4 2
    let level : BitVec 2 := slice v 0 2
    let bad := level = 3 || (q.type = .rtd && ix.toNat < 2) || (q.type = .ntc && (ix = 0 || ix = 3))
    putPlan ((bad, .range) :: held) (set fun q =>
      let n := { q with burn := v.getLsbD 12, ac := v.getLsbD 8, ix := ix, level := level }
      { n with zset := q.zset && n.burn = q.burn && n.ac = q.ac && n.ix = q.ix && n.level = q.level })
  | 0x04 => putPlan ((slice v 0 2 = (3 : BitVec 2), .range) :: held) (set fun q => { q with notch := slice v 0 2 })
  | 0x05 => putPlan ((outside 1 16 (slice v 0 5).toNat, .range) :: held) (set fun q => { q with rate := slice v 0 5 })
  | 0x08 => putPlan [] fun c => c.modFe y fun x => { x with sticky := x.sticky &&& ~~~(slice v 8 4) }
  | 0x09 =>
    let a := (slice v 0 18).toNat
    let b := m.coefBlock a
    (putPlan held fun c => c.modFe y fun x => { x with cfg := { x.cfg with polyBase := slice v 0 18 }, coefsNext := b }).reads
      c who 4 0 (wordsOf a (m.coefBytes a)) [(b.isNone, .range)]
  | 0x0A => putPlan ((!c.compSuits y (slice v 0 3), .range) :: held) (set fun q => { q with src := slice v 0 3 })
  | 0x0B => putPlan held (set fun q => { q with zero := slice v 0 24, zset := true })
  | 0x0C => putPlan held (set fun q => { q with span := v })
  | 0x0D =>
    putPlan ((outside 8 255 (slice v 24 8).toNat || outside 1 8388607 (slice v 0 24).toNat, .range) :: held)
      (set fun q => { q with win := slice v 24 8, pp := slice v 0 24 })
  | 0x0E =>
    putPlan ((slice v 16 16 = (0 : BitVec 16) || slice v 0 16 = (0 : BitVec 16), .range) :: held)
      (set fun q => { q with sband := slice v 16 16, zband := slice v 0 16 })
  | 0x0F => putPlan [] fun c => c.modFe y fun x => { x with ofsEdge := x.ofsEdge && !v.getLsbD 12 }
  | _ => putNone

/-! ### Blocks A to D -/

/-- Block A outside the safety parameter set (R298, R313). -/
def putIlk (i : Nat) (k : CarId) (v : Word) : Plan :=
  match i with
  | 0x0C => putPlan [] fun c => c.modIlk k fun x => { x with clampSticky := x.clampSticky &&& ~~~(slice v 0 8 &&& ~~~x.clampLive) }
  | 0x0D => putPlan [] fun c => c.modIlk k fun x =>
    { x with
      pulseFault := x.pulseFault && !v.getLsbD 20, zexit := x.zexit && !v.getLsbD 16, winTaps := x.winTaps &&& ~~~(slice v 0 8) }
  | _ => putNone

/-- A scan job of a channel is queued or running (R341). -/
def Chip.ckPending (c : Chip) (k : CkId) : Bool :=
  c.scan.queue.any (fun j => j.ck = k) || (c.scan.running.map fun r => decide (r.job.ck = k)).getD false

/-- Block B (R336, R341, R342, R345). -/
def putCrc (c : Chip) (r : RegRef) (v : Word) : Plan :=
  if r.i = 0x07 then match fin? 3 r.ch with
    | none => putNone
    | some m =>
      putPlan [(slice v 28 4 = (0 : BitVec 4), .range)] fun c =>
        { c with scan := { c.scan with scrub := upd c.scan.scrub m fun x => { x with rate := slice v 28 4 } } }
  else match fin? 8 r.ch with
  | none => putNone
  | some k =>
    let q := (c.scan.cks[k.val]).cfg
    let set := fun (g : CkCfg → CkCfg) (c : Chip) => c.modCk k fun x => { x with cfg := g x.cfg }
    match r.i with
    | 0x00 => putPlan [] (set fun q => { q with refOut := v.getLsbD 9, refIn := v.getLsbD 8, sel := slice v 0 2 })
    | 0x01 => putPlan [] (set fun q => { q with init := v })
    | 0x02 => putPlan [] (set fun q => { q with xorOut := v })
    | 0x03 =>
      putPlan [(ckMask q.sel v ≠ v, .range), (c.ckPending k, .busy)] fun c => c.modCk k fun x => { x with val := v }
    | 0x04 =>
      putPlan [(slice v 30 2 = (3 : BitVec 2), .range)] (set fun q => { q with mode := slice v 30 2, cont := v.getLsbD 28 })
    | _ => putNone

/-- Block C (R358, R359). -/
def putJnl (who : Who) (r : RegRef) (v : Word) : Plan :=
  let own : Bool × Status := (decide (r.ch ≠ who.sid.toNat), .denied)
  let n : SessionId := (BitVec.ofNat 4 r.ch).toFin
  match r.i with
  | 0x07 => putPlan [own] fun c => c.modSession n fun s => { s with readPtr := v, readTorn := 0 }
  | 0x08 =>
    putPlan [own, ((slice v 0 8).toNat < (slice v 8 8).toNat, .range)] fun c => c.modSession n fun s =>
      { s with filterCars := slice v 16 12, filterLo := slice v 8 8, filterHi := slice v 0 8 }
  | _ => putNone

/-- Block D; WARN of PWR_TEMPTRIP is signed as DEV_TEMP is (R90, R95) (DESIGN CHOICE, log entry 95). -/
def putPwr (who : Who) (c : Chip) (r : RegRef) (v : Word) : Plan :=
  let set := fun (g : PwrCfg → PwrCfg) (c : Chip) => c.modPwr fun p => { p with cfg := g p.cfg }
  match r.i with
  | 0x01 => (match fin? 12 r.ch with
    | none => putNone
    | some k => if v.getLsbD 0 then islandOnPlan who c k [] else islandOffPlan c k [])
  | 0x02 => putPlan [] fun c => c.modPwr fun p => { p with avsEdge := p.avsEdge && !v.getLsbD 24 }
  | 0x03 =>
    putPlan [((slice v 16 6).toNat < (slice v 8 6).toNat, .range)]
      (set fun q => { q with vboot := slice v 24 6, vidMax := slice v 16 6, vidMin := slice v 8 6 })
  | 0x04 =>
    let hi : BitVec 6 := slice v 16 6
    let lo : BitVec 6 := slice v 8 6
    putPlan [(lo.toNat ≤ 4 || hi.toNat ≤ lo.toNat, .range)] (set fun q => { q with slackHi := hi, slackLo := lo })
  | 0x05 => putPlan [] fun c => c.modPwr fun p => { p with sticky := p.sticky &&& ~~~(slice v 8 5) }
  | 0x08 =>
    let trip : BitVec 16 := slice v 16 16
    let warn : BitVec 16 := slice v 0 16
    putPlan [(outside 10000 14800 trip.toNat || decide (trip.toInt ≤ warn.toInt), .range)]
      (set fun q => { q with tempTrip := trip, tempWarn := warn })
  | _ => putNone

/-! ### PUT -/

/-- A PUT of a value to a register and channel. -/
def putAt (who : Who) (m : Mems) (c : Chip) (r : RegRef) (v : Word) : Plan :=
  match (if isSps r.b r.i then spsId r.b r.i r.ch else none) with
  | some i => putSps who c r i v
  | none =>
    match r.b with
    | 0 => if r.i = 0x08 then putAdmit who c v else putNone
    | 1 => putLnk c r.i v
    | 2 => putSec who c r v
    | 3 => putThr c r.i ((fin? 48 r.ch).getD 0) v
    | 4 => if r.i = 0x15 || r.i = 0x16 then putNone else putCar who m c r.i ((fin? 12 r.ch).getD 0) v
    | 5 => putDoor c r.i ((fin? 24 r.ch).getD 0) v
    | 6 => putFbk c r.i ((fin? 24 r.ch).getD 0) v
    | 7 => putLoop c r.i ((fin? 84 r.ch).getD 0) v
    | 8 => putPrf who m c r.i ((fin? 36 r.ch).getD 0) v
    | 9 => putFe who m c r.i ((fin? 48 r.ch).getD 0) v
    | 0xA => if r.i = 0x03 then putNone else putIlk r.i ((fin? 12 r.ch).getD 0) v
    | 0xB => putCrc c r v
    | 0xC => putJnl who r v
    | _ => putPwr who c r v

/-- The writer of the register's fields is fixed by Table 6-4: the class write bit has no effect on it (R120). -/
def regFixed (r : RegRef) : Bool :=
  (r.b = 0 && r.i = 0x08) || (r.b = 2 && [0x00, 0x0A, 0x0D, 0x10, 0x13, 0x17].contains r.i)

/-- The DENIED answers of a PUT (R120, R121, R144, R145). -/
def Chip.putDenied (c : Chip) (who : Who) (r : RegRef) : Bool :=
  match who with
  | .thread _ => r.b < 4 || 0xC ≤ r.b || isSps r.b r.i || c.regDenied who r true
  | .host _ _ _ => !regFixed r && c.regDenied who r true

/-- PUT (R181 to R183). -/
def bodyPut : Body := fun x m c =>
  match regRef x.who x.w x.f with
  | none => { refuse .range with illegal := regIllegal x.f }
  | some r =>
    let plan := putAt x.who m c r (regOf x.w x.f.d)
    { plan with
      illegal := regIllegal x.f, checks := (c.putDenied x.who r, .denied) :: (regStray x.w x.f, .range) :: (c.regDark r, .state) :: plan.checks }

/-- A PUT whose row names the register (DEDUCED, log entry 47). -/
def regImm (f : Enc) (b : BitVec 4) (i : BitVec 6) : Enc := { f with imm := b ++ i ++ immBits f.imm 0 6 }

/-- PUT of either issuer. -/
def runPut (i : Issuer) (f : Enc) (s : State) : State := issue i 0x1D f 4 bodyPut s

end Sys2Proof.Machine
end

