-- ==== Sys2Proof/Machine/PutRows.lean ====
section
/-! DEFINITION. The rows of the table that are PUTs: each is a PUT whose immediate names the row's register; the request or bit that
a row is named after stands in W(D), and a PUT that carries another value does what R183 says of that value. -/

namespace Sys2Proof.Machine

/-- PUT to DEV_ADMIT, setting GO (R76). -/
def runDevAdmitGo (i : Issuer) (f : Enc) (s : State) : State := issue i 0x1D (regImm f 0x0 0x08) 4 bodyPut s
/-- PUT to DEV_ADMIT, asking for a re-admission (R84). -/
def runKeeperReadmit (i : Issuer) (f : Enc) (s : State) : State := issue i 0x1D (regImm f 0x0 0x08) 4 bodyPut s
/-- PUT to PWR_ISLANDREQ (R90). -/
def runPwrIslandreqWrite (i : Issuer) (f : Enc) (s : State) : State := issue i 0x1D (regImm f 0xD 0x01) 4 bodyPut s
/-- PUT to SEC_ZEROIZE (R102). -/
def runSecZeroize (i : Issuer) (f : Enc) (s : State) : State := issue i 0x1D (regImm f 0x2 0x17) 4 bodyPut s
/-- PUT to the LOCKED bits of SEC_SEATS (R112, R118). -/
def runSeatUnlock (i : Issuer) (f : Enc) (s : State) : State := issue i 0x1D (regImm f 0x2 0x00) 4 bodyPut s
/-- PUT to SEC_SESSTO, SEC_MACFAILMAX, SEC_KDFCTX or SEC_WITNESSTO (R118, R141). -/
def runKeeperSecWrite (i : Issuer) (f : Enc) (s : State) : State := issue i 0x1D f 4 bodyPut s
/-- PUT to SEC_SECUREMASK (R141). -/
def runSecuremaskWrite (i : Issuer) (f : Enc) (s : State) : State := issue i 0x1D (regImm f 0x2 0x11) 4 bodyPut s
/-- PUT to SEC_TAPCTL (R140). -/
def runTapctlWrite (i : Issuer) (f : Enc) (s : State) : State := issue i 0x1D (regImm f 0x2 0x16) 4 bodyPut s
/-- PUT to a member of the safety parameter set (R131). -/
def runSpsPut (i : Issuer) (f : Enc) (s : State) : State := issue i 0x1D f 4 bodyPut s
/-- PUT to THR_STATE.CMD RESTART (R157). -/
def runThreadRestartCmd (i : Issuer) (f : Enc) (s : State) : State := issue i 0x1D (regImm f 0x3 0x00) 4 bodyPut s
/-- PUT to THR_STATE.CMD HALT (R158). -/
def runThreadHaltCmd (i : Issuer) (f : Enc) (s : State) : State := issue i 0x1D (regImm f 0x3 0x00) 4 bodyPut s
/-- PUT to CAR_SERVICE.REQ OUT (R249). -/
def runCarReqOut (i : Issuer) (f : Enc) (s : State) : State := issue i 0x1D (regImm f 0x4 0x00) 4 bodyPut s
/-- PUT to CAR_SERVICE.REQ IN (R250). -/
def runCarReqIn (i : Issuer) (f : Enc) (s : State) : State := issue i 0x1D (regImm f 0x4 0x00) 4 bodyPut s
/-- PUT to CAR_SERVICE.REQ INSPECT (R250). -/
def runCarReqInspect (i : Issuer) (f : Enc) (s : State) : State := issue i 0x1D (regImm f 0x4 0x00) 4 bodyPut s
/-- PUT to CAR_SERVICE.REQ CLEAR (R253). -/
def runCarReqClear (i : Issuer) (f : Enc) (s : State) : State := issue i 0x1D (regImm f 0x4 0x00) 4 bodyPut s
/-- PUT to CAR_LTBASE (R255) (DEDUCED, log entry 50). -/
def runLandingTableLoad (i : Issuer) (f : Enc) (s : State) : State := issue i 0x1D (regImm f 0x4 0x07) 4 bodyPut s
/-- PUT to CAR_MODE (R270) (DEDUCED, log entry 50). -/
def runScheduleLoad (i : Issuer) (f : Enc) (s : State) : State := issue i 0x1D (regImm f 0x4 0x1B) 4 bodyPut s
/-- PUT to DOOR_STATE.REQ REOPEN (R289). -/
def runDoorReqReopen (i : Issuer) (f : Enc) (s : State) : State := issue i 0x1D (regImm f 0x5 0x00) 4 bodyPut s
/-- PUT to DOOR_STATE.REQ NUDGE (R289) (DEDUCED, log entry 63). -/
def runDoorReqNudge (i : Issuer) (f : Enc) (s : State) : State := issue i 0x1D (regImm f 0x5 0x00) 4 bodyPut s
/-- PUT to DOOR_STATE.REQ CLEAR (R291). -/
def runDoorReqClear (i : Issuer) (f : Enc) (s : State) : State := issue i 0x1D (regImm f 0x5 0x00) 4 bodyPut s
/-- PUT to DOOR_SINTAB (R281). -/
def runSintabWrite (i : Issuer) (f : Enc) (s : State) : State := issue i 0x1D (regImm f 0x5 0x1B) 4 bodyPut s
/-- PUT to DOOR_LEARN (R294) (DEDUCED, log entry 62). -/
def runLearnGo (i : Issuer) (f : Enc) (s : State) : State := issue i 0x1D (regImm f 0x5 0x1F) 4 bodyPut s
/-- PUT to PRF_CAMSEL with HALF 0 (R213). -/
def runCamselHalf0 (i : Issuer) (f : Enc) (s : State) : State := issue i 0x1D (regImm f 0x8 0x0C) 4 bodyPut s
/-- PUT to PRF_CAMSEL with HALF 1 (R213). -/
def runCamselHalf1 (i : Issuer) (f : Enc) (s : State) : State := issue i 0x1D (regImm f 0x8 0x0C) 4 bodyPut s
/-- PUT to LOOP_MODE with IRESET (R238). -/
def runLoopIreset (i : Issuer) (f : Enc) (s : State) : State := issue i 0x1D (regImm f 0x7 0x00) 4 bodyPut s
/-- PUT to LOOP_MODE with RUN (R241). -/
def runLoopFaultClear (i : Issuer) (f : Enc) (s : State) : State := issue i 0x1D (regImm f 0x7 0x00) 4 bodyPut s
/-- PUT to FBK_CMPBASE (R226). -/
def runCmpbaseArm (i : Issuer) (f : Enc) (s : State) : State := issue i 0x1D (regImm f 0x6 0x06) 4 bodyPut s
/-- PUT to FE_POLYBASE (R323). -/
def runPolybaseLoad (i : Issuer) (f : Enc) (s : State) : State := issue i 0x1D (regImm f 0x9 0x09) 4 bodyPut s
/-- PUT to CRC_VAL (R341). -/
def runCrcValWrite (i : Issuer) (f : Enc) (s : State) : State := issue i 0x1D (regImm f 0xB 0x03) 4 bodyPut s
/-- PUT to ILK_CLAMP (R298). -/
def runStickyClear (i : Issuer) (f : Enc) (s : State) : State := issue i 0x1D (regImm f 0xA 0x0C) 4 bodyPut s
/-- PUT to a register with no row of its own (R386). -/
def runRegisterWrite (i : Issuer) (f : Enc) (s : State) : State := issue i 0x1D f 4 bodyPut s

/-- The meaning of PUT. -/
def execPut (i : Issuer) (f : Enc) (s : State) : Out := .next (runPut i f s)
/-- The meaning of DEV_ADMIT_GO. -/
def execDevAdmitGo (i : Issuer) (f : Enc) (s : State) : Out := .next (runDevAdmitGo i f s)
/-- The meaning of KEEPER_READMIT. -/
def execKeeperReadmit (i : Issuer) (f : Enc) (s : State) : Out := .next (runKeeperReadmit i f s)
/-- The meaning of PWR_ISLANDREQ_WRITE. -/
def execPwrIslandreqWrite (i : Issuer) (f : Enc) (s : State) : Out := .next (runPwrIslandreqWrite i f s)
/-- The meaning of SEC_ZEROIZE. -/
def execSecZeroize (i : Issuer) (f : Enc) (s : State) : Out := .next (runSecZeroize i f s)
/-- The meaning of SEAT_UNLOCK. -/
def execSeatUnlock (i : Issuer) (f : Enc) (s : State) : Out := .next (runSeatUnlock i f s)
/-- The meaning of KEEPER_SEC_WRITE. -/
def execKeeperSecWrite (i : Issuer) (f : Enc) (s : State) : Out := .next (runKeeperSecWrite i f s)
/-- The meaning of SECUREMASK_WRITE. -/
def execSecuremaskWrite (i : Issuer) (f : Enc) (s : State) : Out := .next (runSecuremaskWrite i f s)
/-- The meaning of TAPCTL_WRITE. -/
def execTapctlWrite (i : Issuer) (f : Enc) (s : State) : Out := .next (runTapctlWrite i f s)
/-- The meaning of SPS_PUT. -/
def execSpsPut (i : Issuer) (f : Enc) (s : State) : Out := .next (runSpsPut i f s)
/-- The meaning of THREAD_RESTART_CMD. -/
def execThreadRestartCmd (i : Issuer) (f : Enc) (s : State) : Out := .next (runThreadRestartCmd i f s)
/-- The meaning of THREAD_HALT_CMD. -/
def execThreadHaltCmd (i : Issuer) (f : Enc) (s : State) : Out := .next (runThreadHaltCmd i f s)
/-- The meaning of CAR_REQ_OUT. -/
def execCarReqOut (i : Issuer) (f : Enc) (s : State) : Out := .next (runCarReqOut i f s)
/-- The meaning of CAR_REQ_IN. -/
def execCarReqIn (i : Issuer) (f : Enc) (s : State) : Out := .next (runCarReqIn i f s)
/-- The meaning of CAR_REQ_INSPECT. -/
def execCarReqInspect (i : Issuer) (f : Enc) (s : State) : Out := .next (runCarReqInspect i f s)
/-- The meaning of CAR_REQ_CLEAR. -/
def execCarReqClear (i : Issuer) (f : Enc) (s : State) : Out := .next (runCarReqClear i f s)
/-- The meaning of LANDING_TABLE_LOAD. -/
def execLandingTableLoad (i : Issuer) (f : Enc) (s : State) : Out := .next (runLandingTableLoad i f s)
/-- The meaning of SCHEDULE_LOAD. -/
def execScheduleLoad (i : Issuer) (f : Enc) (s : State) : Out := .next (runScheduleLoad i f s)
/-- The meaning of DOOR_REQ_REOPEN. -/
def execDoorReqReopen (i : Issuer) (f : Enc) (s : State) : Out := .next (runDoorReqReopen i f s)
/-- The meaning of DOOR_REQ_NUDGE. -/
def execDoorReqNudge (i : Issuer) (f : Enc) (s : State) : Out := .next (runDoorReqNudge i f s)
/-- The meaning of DOOR_REQ_CLEAR. -/
def execDoorReqClear (i : Issuer) (f : Enc) (s : State) : Out := .next (runDoorReqClear i f s)
/-- The meaning of SINTAB_WRITE. -/
def execSintabWrite (i : Issuer) (f : Enc) (s : State) : Out := .next (runSintabWrite i f s)
/-- The meaning of LEARN_GO. -/
def execLearnGo (i : Issuer) (f : Enc) (s : State) : Out := .next (runLearnGo i f s)
/-- The meaning of CAMSEL_HALF0. -/
def execCamselHalf0 (i : Issuer) (f : Enc) (s : State) : Out := .next (runCamselHalf0 i f s)
/-- The meaning of CAMSEL_HALF1. -/
def execCamselHalf1 (i : Issuer) (f : Enc) (s : State) : Out := .next (runCamselHalf1 i f s)
/-- The meaning of LOOP_IRESET. -/
def execLoopIreset (i : Issuer) (f : Enc) (s : State) : Out := .next (runLoopIreset i f s)
/-- The meaning of LOOP_FAULT_CLEAR. -/
def execLoopFaultClear (i : Issuer) (f : Enc) (s : State) : Out := .next (runLoopFaultClear i f s)
/-- The meaning of CMPBASE_ARM. -/
def execCmpbaseArm (i : Issuer) (f : Enc) (s : State) : Out := .next (runCmpbaseArm i f s)
/-- The meaning of POLYBASE_LOAD. -/
def execPolybaseLoad (i : Issuer) (f : Enc) (s : State) : Out := .next (runPolybaseLoad i f s)
/-- The meaning of CRC_VAL_WRITE. -/
def execCrcValWrite (i : Issuer) (f : Enc) (s : State) : Out := .next (runCrcValWrite i f s)
/-- The meaning of STICKY_CLEAR. -/
def execStickyClear (i : Issuer) (f : Enc) (s : State) : Out := .next (runStickyClear i f s)
/-- The meaning of REGISTER_WRITE. -/
def execRegisterWrite (i : Issuer) (f : Enc) (s : State) : Out := .next (runRegisterWrite i f s)

end Sys2Proof.Machine
end

