-- ==== Sys2Proof/Machine/Trace.lean ====
section
/-! DEFINITION. The trace engine (R243 to R246) and LOG (R160, R190). -/

namespace Sys2Proof.Machine

/-! ### Sources and triggers (Table 11-2, R244) -/

/-- What a source word names. -/
inductive Source where
  | loop (l : LoopId) (signal : Fin 9)
  | reg (r : RegRef)
  deriving DecidableEq, Repr

/-- The source of a source word, absent where R243 answers RANGE. -/
def sourceOf (w : Word) : Option Source :=
  match (slice w 30 2).toNat with
  | 0 =>
    if slice w 14 16 ≠ (0 : BitVec 16) || slice w 4 3 ≠ (0 : BitVec 3) then none
    else match fin? 84 (slice w 7 7).toNat, fin? 9 (slice w 0 4).toNat with
      | some l, some s => some (.loop l s)
      | _, _ => none
  | 1 =>
    let b := (slice w 26 4).toNat
    let i := (slice w 20 6).toNat
    let ch := (slice w 0 7).toNat
    if slice w 7 13 ≠ (0 : BitVec 13) || blockCount b ≤ i || regChannels b i ≤ ch then none else some (.reg ⟨b, i, ch⟩)
  | _ => none

/-- The car that owns a source, where one does. -/
def Source.car : Source → Option CarId
  | .loop l _ => some (carOfLoop l)
  | .reg r => regCar r.b r.i r.ch

/-- The door that owns a source. -/
def Source.door : Source → Option DoorId
  | .loop l _ => if l.val < 72 then doorOfLoop l else none
  | .reg r => if r.b = 5 then fin? 24 r.ch else if r.b = 7 && r.ch < 72 then fin? 24 (r.ch / 3)
    else if r.b = 8 && 12 ≤ r.ch then fin? 24 (r.ch - 12) else none

/-- The unit that owns a source is in its fault state: a door in FAULT, a car in STOPPED_FAULT (R244). -/
def Chip.sourceFault (c : Chip) (s : Source) : Bool :=
  match s.door with
  | some d => (c.doors[d.val]).st = .fault
  | none => match s.car with
    | some k => (c.cars[k.val]).service = .stoppedFault
    | none => false

/-- A source of a car whose islands are not all on; what R79 lets a GET read there is no such source (R79, R190)
(DESIGN CHOICE, log entry 118). -/
def Chip.sourceDark (c : Chip) : Source → Bool
  | .loop l _ => !(c.cars[(carOfLoop l).val]).on
  | .reg r => c.regDark r

/-- A source that R138 and Table 6-7 keep from an issuer of a level (DEDUCED, log entry 70). -/
def Source.veiled (lvl : Nat) (secured : Bool) : Source → Bool
  | .loop l _ => 72 ≤ l.val && (lvl ≠ 0 || !secured)
  | .reg r => r.veiled lvl secured

/-- The mode of a trigger word. -/
def trigMode (w : Word) : BitVec 2 := slice w 30 2
/-- The number of samples before the triggering one. -/
def preSamples (w : Word) : Nat := (slice w 27 3).toNat * 512
/-- The sample period in ticks. -/
def samplePeriod (w : Word) : Nat := 2 ^ (slice w 24 3).toNat
/-- The threshold TH × 2^TSH. -/
def threshold (w : Word) : Int := (slice w 0 16).toInt * 2 ^ (slice w 20 4).toNat

/-- TRACE (R190, R243, R244) (DEDUCED, log entry 70). -/
def bodyTrace : Body := fun x _ c =>
  let source := regOf x.w x.f.d
  let trigger := regOf x.w x.f.a
  let right : Bool × Status := (c.lacks x.who 5, .denied)
  let reserved : Bool × Status := (immBits x.f.imm 3 13 ≠ 0 || slice trigger 16 4 ≠ (0 : BitVec 4), .range)
  match sourceOf source with
  | none => { illegal := x.f.m ≠ 0, checks := [right, (true, .range)], queue := none, act := fun c => reply .range c }
  | some s =>
    let lvl := c.whoLevel x.who
    let unseen := match s.car with
      | some k => !c.maySee x.who k
      | none => false
    { illegal := x.f.m ≠ 0,
      checks :=
        [right, (unseen, .denied), (s.veiled lvl (c.whoSecured x.who), .veiled), reserved,
          (trigMode trigger = 3 && s.car.isNone, .range), (c.sourceDark s, .state),
          (c.queueFree .traces = 0 || c.noCredit x.who, .full)],
      queue := some .traces,
      act := fun c =>
        let credit := if x.who.isHost then some c.nextCredit else none
        let c1 := if x.who.isHost then c.takeCredit x.who.sid x.who.seat else c
        reply .queued
          { c1 with
            traceQueue := c1.traceQueue ++
              [⟨immBits x.f.imm 0 3, source, trigger, x.who.producer, BitVec.ofNat 2 lvl, c.whoSecured x.who, credit⟩] } }

/-- TRACE of either issuer. -/
def runTrace (i : Issuer) (f : Enc) (s : State) : State := issue i 0x33 f 6 bodyTrace s

/-! ### Captures (R245) -/

/-- The device with capture c replaced. -/
def Chip.setCapture (c : Chip) (i : CkId) (r : Option Capture) : Chip := { c with captures := c.captures.set i.val r }

/-- The value of a source at the trace point, as its producer may see it (R243). -/
def Chip.sourceValue (c : Chip) (item : TraceItem) : Word :=
  match sourceOf item.source with
  | none => 0
  | some (.loop l n) =>
    let s := (c.loops[l.val]).sig
    clampInt 32 (([s.r, s.y, s.e, s.pTerm, s.iTerm, s.dTerm, s.fTerm, s.u, s.res] : List Int).getD n.val 0)
  | some (.reg r) =>
    let who : Who := if item.secured then .thread 0 else .host 0 7 false
    c.readReg who item.level.toNat r

/-- The owner of a capture's source is in its fault state. -/
def Chip.captureFault (c : Chip) (r : Capture) : Bool :=
  match sourceOf r.item.source with
  | none => false
  | some s => c.sourceFault s

/-- A capture notes whether the owner of its source has entered its fault state (R244). -/
def Chip.watchFault (c : Chip) (r : Capture) : Capture :=
  let now := c.captureFault r
  { r with entered := r.entered || (now && !r.was), was := now }

/-- The fault state of the owner of a capture's source is left at the coming boundary by an accepted CLEAR (R249, R291). -/
def Chip.captureClears (c : Chip) (r : Capture) : Bool :=
  match sourceOf r.item.source with
  | none => false
  | some s => match s.door with
    | some d => (c.doors[d.val]).clearing
    | none => match s.car with
      | some k => (c.cars[k.val]).goto.isSome
      | none => false

/-- At a boundary a capture notes the fault state, and that one which the boundary ends may be entered anew behind it (R244). -/
def Chip.passBoundary (c : Chip) (r : Capture) : Capture :=
  let n := c.watchFault r
  { n with was := n.was && !c.captureClears r }

/-- TRACE_CAPTURE_START: the first queued item of a free channel starts at the trace point (R245). -/
def runTraceCaptureStart (i : CkId) (s : State) : State :=
  s.act fun c =>
    if !c.running || !c.may (.loop 84) || (c.captures[i.val]).isSome then c
    else match c.traceQueue.find? (fun t => t.channel.toNat = i.val) with
    | none => c
    | some item =>
      let sending : Bool := match c.blocks with
        | b :: _ => decide (b.channel.toNat = i.val)
        | [] => false
      let r : Capture := ⟨item, c.dev.tick, [], 0, none, false, false⟩
      let c1 : Chip :=
        { c.enter (.loop 84) with traceQueue := c.traceQueue.erase item, blocks := c.blocks.filter fun b => b.channel.toNat ≠ i.val }
      let c2 := c1.modLnk fun l => match l.chunk with
        | some (2, _) => if sending then { l with chunk := none } else l
        | _ => l
      c2.setCapture i (some { r with was := c.captureFault r })

/-- Whether a sample triggers a capture that is armed (R244, R245) (DEDUCED, log entry 70). -/
def Capture.triggers (r : Capture) (v : Word) : Bool :=
  let th := threshold r.item.trigger
  let prev := (r.samples.head?).map fun p => p.toInt
  match (trigMode r.item.trigger).toNat with
  | 0 => true
  | 1 => (prev.map fun p => decide (p < th ∧ th ≤ v.toInt)).getD false
  | 2 => (prev.map fun p => decide (th < p ∧ v.toInt ≤ th)).getD false
  | _ => r.entered

/-- A capture takes one sample. Before the trigger it keeps the samples that its block may still hold, and the predecessor
(DEDUCED, log entry 70). -/
def Capture.sample (r : Capture) (v : Word) : Capture :=
  let pre := preSamples r.item.trigger
  let trig := match r.trig with
    | some n => some n
    | none => if pre ≤ r.taken && r.triggers v then some r.taken else none
  let kept := if r.trig.isSome then r.samples else r.samples.take (max pre 1)
  let kept := if r.trig.isNone && trig.isSome then kept.take pre else kept
  { r with samples := v :: kept, taken := r.taken + 1, trig := trig, entered := false }

/-- The capture is due a sample in this tick (R245). -/
def Chip.sampleDue (c : Chip) (r : Capture) : Bool :=
  c.dev.tick = r.start + BitVec.ofNat 48 (r.taken * samplePeriod r.item.trigger)

/-- A trigger sets LOOP_TRACE.TRIGGERED of a loop source (Table 11-5). -/
def Chip.noteTrigger (c : Chip) (i : CkId) (item : TraceItem) : Chip :=
  match traceLoop item.source with
  | none => c
  | some l => c.modLoop l fun x => { x with trTriggered := x.trTriggered ||| (1#8 <<< i.val) }

/-- The capture holds every sample of its block (R245). -/
def Capture.complete (r : Capture) : Bool :=
  match r.trig with
  | none => false
  | some n => decide (4096 - preSamples r.item.trigger ≤ r.taken - n)

/-- TRACE_SAMPLE: a sample at the trace point, and the trigger test (R244, R245). -/
def runTraceSample (i : CkId) (s : State) : State :=
  s.act fun c =>
    match c.captures[i.val] with
    | none => c
    | some r =>
      if !c.running || !c.may (.loop 84) || !c.sampleDue r || r.complete then c
      else
        let r1 := (c.watchFault r).sample (c.sourceValue r.item)
        let c1 := (c.enter (.loop 84)).setCapture i (some r1)
        if r.trig.isNone && r1.trig.isSome then c1.noteTrigger i r.item else c1

/-- A capture as a trace block (Table 11-3) (DEDUCED, log entry 70). -/
def Capture.block (r : Capture) (endFault : Bool) : TraceBlock :=
  let pre := preSamples r.item.trigger
  match r.trig with
  | none => ⟨r.item.channel, endFault, false, r.item.source, r.start, 0, []⟩
  | some n =>
    ⟨r.item.channel, endFault, true, r.item.source, r.start + BitVec.ofNat 48 ((n - pre) * samplePeriod r.item.trigger),
      BitVec.ofNat 16 pre, r.samples.reverse.take 4096⟩

/-- A capture ends: its block waits to be sent, its place and credit return, JOBDONE (R245) (DEDUCED, log entry 70). -/
def Chip.endCapture (c : Chip) (i : CkId) (r : Capture) (endFault : Bool) : Chip :=
  let c1 := (c.setCapture i none)
  let c2 := { c1 with blocks := c1.blocks ++ [r.block endFault] }
  let c3 := ((c2.release r.item.credit).jobDone r.item.producer).placeFreed .traces
  if endFault then match traceLoop r.item.source with
    | none => c3
    | some l => c3.modLoop l fun x => { x with trFaulted := x.trFaulted ||| (1#8 <<< i.val) }
  else c3

/-- TRACE_COMPLETE (R245). -/
def runTraceComplete (i : CkId) (s : State) : State :=
  s.clock fun c => match c.captures[i.val] with
    | none => c
    | some r => if c.running && r.complete then c.endCapture i r false else c

/-- TRACE_TIMEOUT: a capture that has not triggered within 1,048,576 ticks ends with FAULT (R245). -/
def runTraceTimeout (i : CkId) (s : State) : State :=
  s.clock fun c => match c.captures[i.val] with
    | none => c
    | some r =>
      if c.running && r.trig.isNone && 1048576 ≤ (c.dev.tick - r.start).toNat then c.endCapture i r true else c

/-- The captures of a car that is switched off end with FAULT (R193, R245) (DEDUCED, log entry 70). -/
def Chip.endCarCaptures (c : Chip) (k : CarId) : Chip :=
  foldFin 8 (fun i c => match c.captures[i.val] with
    | none => c
    | some r => if (sourceOf r.item.source).bind Source.car = some k then c.endCapture i r true else c) c

/-! ### LOG (R160, R190) -/

/-- LOG (DESIGN CHOICE, log entry 39). -/
def bodyLog : Body := fun x _ c =>
  let type : Byte := immBits x.f.imm 0 8
  let d := x.f.d.toNat
  let pc : BitVec 16 := match x.who with
    | .thread t => (c.threads[t.val]).pc
    | .host _ _ _ => 0
  let source : Byte := match x.who with
    | .thread t => BitVec.ofNat 8 (0x80 + t.val)
    | .host sid seat _ => hostSource sid seat
  let body := bytesBE (regOf x.w x.f.d) 4 ++ bytesBE (regOf x.w (x.f.d + 1)) 4 ++ bytesBE (regOf x.w (x.f.d + 2)) 4 ++ bytesBE pc 2
  { illegal := x.f.a ≠ 0 || x.f.m ≠ 0 || 12 < d || (x.who.isHost && d ≠ 1),
    checks :=
      [(c.lacks x.who 6, .denied), (type.getLsbD 7 || immBits x.f.imm 8 8 ≠ 0, .range), (c.warning, .busy),
        (28 ≤ c.journal.queue.length || c.noCredit x.who, .full), (c.journal.fault, .fault)],
    queue := some .journal,
    act := fun c =>
      let credit := if x.who.isHost then some c.nextCredit else none
      let c1 := if x.who.isHost then c.takeCredit x.who.sid x.who.seat else c
      reply .queued
        (c1.enqueueRecord type source (recordFlags false (type.getLsbD 6) false false x.who.ownCar) body credit x.who.producer) }

/-- LOG of either issuer. -/
def runLog (i : Issuer) (f : Enc) (s : State) : State := issue i 0x34 f 6 bodyLog s

/-- The meaning of TRACE. -/
def execTrace (i : Issuer) (f : Enc) (s : State) : Out := .next (runTrace i f s)
/-- The meaning of LOG. -/
def execLog (i : Issuer) (f : Enc) (s : State) : Out := .next (runLog i f s)
/-- The meaning of TRACE_CAPTURE_START. -/
def execTraceCaptureStart (c : CkId) (s : State) : Out := .next (runTraceCaptureStart c s)
/-- The meaning of TRACE_SAMPLE. -/
def execTraceSample (c : CkId) (s : State) : Out := .next (runTraceSample c s)
/-- The meaning of TRACE_COMPLETE. -/
def execTraceComplete (c : CkId) (s : State) : Out := .next (runTraceComplete c s)
/-- The meaning of TRACE_TIMEOUT. -/
def execTraceTimeout (c : CkId) (s : State) : Out := .next (runTraceTimeout c s)

end Sys2Proof.Machine
end

