-- ==== Sys2Proof/Machine/Admission.lean ====
section
/-! DEFINITION. Admission: the steps of Table 4-3 and the timeline that they follow (R75 to R78), the program image and its
sealing (R164, R165, R77), recovery (R355), and the entry into RUN (R76, R140, R158). -/

namespace Sys2Proof.Machine

/-! ### The program image (R164) -/

/-- The length word is one that Table 7-7 allows (DEDUCED, log entry 29). -/
def Mems.lengthOk (m : Mems) : Bool := 208 ≤ m.imageLength && m.imageLength ≤ 64512

/-- Magic, length and reserved words are as Table 7-7 shows (DEDUCED, log entry 29). -/
def Mems.imageOk (m : Mems) : Bool :=
  m.progWord 0 = 0x7E1C0A55 && m.lengthOk && ((List.range 13).all fun i => m.progWord (3 + i) = 0)
    && ((List.range 48).all fun t => m.progWord (19 + 4 * t) = 0)

/-- A thread loaded from its descriptor (R164, R144, R166): masks from the image for group threads, the own car for car and door
threads, every car for system threads. A BUDGET of 1 to 15 and a STALLMAX outside 4 to 4,096 other than 0 are loaded as they stand:
the manual checks the image's magic, length and reserved words alone. A loaded thread with a budget still reads UNUSED until the device
enters RUN (DESIGN CHOICE, log entry 90; DESIGN CHOICE, log entry 117). -/
def Mems.descriptor (m : Mems) (t : ThreadId) (x : Thread) : Thread :=
  let vectors := m.progWord (16 + 4 * t.val)
  let limits := m.progWord (17 + 4 * t.val)
  let masks := m.progWord (18 + 4 * t.val)
  let budget : BitVec 14 := slice limits 16 14
  let stall : BitVec 16 := if slice limits 0 16 = (0 : BitVec 16) then 64 else slice limits 0 16
  let own : BitVec 12 := match carOfThread t with
    | some k => BitVec.ofNat 12 (2 ^ k.val)
    | none => 0xFFF
  let group := decide (36 ≤ t.val) && decide (t.val < 44)
  let act : BitVec 12 := if group then slice masks 16 12 else own
  let see : BitVec 12 := if group then slice masks 0 12 else own
  { x with
    entry := slice vectors 16 16, restart := slice vectors 0 16, budget := budget, budgetAct := budget, stallMax := stall,
    stallMaxAct := stall, actMask := act, actMaskAct := act, seeMask := see, seeMaskAct := see }

/-- The THR registers loaded on a MATCH (R164) (DESIGN CHOICE, log entry 45). -/
def Chip.loadThreads (c : Chip) (m : Mems) : Chip := { c with threads := vmap (fun t x => m.descriptor t x) c.threads }

/-! ### The tests of the steps (Table 4-3, Table 4-6) -/

/-- The power domains that a step tests. -/
def stepDomains (n : Fin 5) : List Nat :=
  match n.val with
  | 0 => [44, 47]
  | 1 => [36, 37, 38, 39, 47]
  | 4 => [42, 43, 45, 46, 48, 49, 50, 51, 52, 53]
  | _ => []

/-- The memories whose uncorrectable errors a step can meet, by the code of Table 4-6 (DESIGN CHOICE, log entry 30). -/
def stepMemories (n : Fin 5) : List Nat :=
  match n.val with
  | 0 => [2]
  | 1 => [0]
  | 2 => [1]
  | _ => []

/-- The step can end with this outcome of its tests (Table 4-3)
(DESIGN CHOICE, log entry 28; DESIGN CHOICE, log entry 34). -/
def stepAllows (n : Fin 5) : StepTest → Bool
  | .passed => true
  | .islandTest domain _ => (stepDomains n).contains domain.toNat
  | .eccDouble memory _ => (stepMemories n).contains memory.toNat
  | .journalFault kind _ _ _ => n.val = 3 && 1 ≤ kind.toNat && kind.toNat ≤ 4

/-- A failed test trips the device (Table 4-6). -/
def Chip.stepFails (c : Chip) : StepTest → Chip
  | .passed => c
  | .islandTest domain item => c.trip 9 (field item 8 ||| field domain 0) 0
  | .eccDouble memory address => c.trip 5 (field memory 28 ||| field address 0) 0
  | .journalFault kind address expected got => c.journalFault kind 0 address expected got false 0

/-- Step 3: the digest of the image against its seal, and while sealed that of the safety parameter set; a difference is
PROG_DIGEST (R77, R130, R164). An image without a usable length has no digest
(DESIGN CHOICE, log entry 28; DEDUCED, log entry 29). -/
def Chip.programStep (c : Chip) (m : Mems) : Chip :=
  let sps : BitVec 256 := c.sps.digest
  let c1 := if m.lengthOk then c.modSec fun x => { x with progDigest := m.imageDigest m.imageLength } else c
  let wrong : Bool := match c.sec.progSeal with
    | none => false
    | some sealed => m.lengthOk && c1.sec.progDigest ≠ sealed
  if wrong then (c1.modDev fun d => { d with digest := 3 }).trip 7 (c1.sec.progDigest.extractLsb' 224 32) 0
  else if c.sec.sealSt = .sealed_ && sps ≠ c.sec.spsDigest then c1.trip 7 (sps.extractLsb' 224 32) 0
  else c1

/-- Step 4: the journal is recovered; the admission number has been raised as the step began (R349, R355). -/
def State.journalStep (s : State) : State := s.recoverJournal (s.chip.journal.admission - 1)

/-- The entropy source's part of step 1: the start-up test decides over its bits, which are then discarded; RUNMAX and APMAX keep what
they showed (R115). -/
def Chip.entropyStart (c : Chip) (bits : BitVec 4096) : Chip :=
  let r := c.sec.startUp bits
  let c1 := { c with sec := r.1 }
  if r.2 = 0 then c1 else c1.entropyFail 3 0

/-- What a passed step does as its tests run; an uncorrectable word of the key store or of the image trips the device (R25)
(DESIGN CHOICE, log entry 34). -/
def State.stepEffect (s : State) (n : Fin 5) (bits : BitVec 4096) : State :=
  match n.val with
  | 0 => s.reading 5 (fun _ => true) 0 fun s => s.act fun c => c.readLastWord.entropyStart bits
  | 1 => { s with
      mem := { s.mem with ram := [], cam := [] },
      chip := { s.chip with flaws := s.chip.flaws.filter fun f => f.memory ≠ 0 && f.memory ≠ 2 } }
  | 2 => s.reading 1 (fun w => s.mem.lengthOk && decide (w < s.mem.imageLength)) 0 fun s => s.act fun c => c.programStep s.mem
  | 3 => s.journalStep
  | _ => s

/-- The length of a step in ticks (Table 4-3). -/
def stepLength (phase : BitVec 4) : Nat := [0, 64, 512, 512, 512, 400].getD phase.toNat 0

/-- ADMISSION_STEP: the step in progress runs its tests, step 1 with the entropy source's start-up bits (R75, R77, R78, R115, R355)
(DESIGN CHOICE, log entry 28; DESIGN CHOICE, log entry 30). -/
def runAdmissionStep (n : Fin 5) (test : StepTest) (bits : BitVec 4096) (s : State) : State :=
  let d := s.chip.dev
  if !s.chip.lnk.sckRunning || d.state ≠ .admitting || d.phase.toNat ≠ n.val + 1 || d.stepRun || d.stepHold || !stepAllows n test then s
  else
    let s1 := s.act fun c => c.modDev fun d => { d with stepRun := true }
    if test ≠ .passed then s1.act fun c => (if n.val = 0 then c.readLastWord else c).stepFails test else s1.stepEffect n bits

/-! ### The timeline (R76 to R78) -/

/-- Begin a phase at this tick; step 4 holds where a supply warning stands, and raises the admission number as it begins (R78, R349)
(DEDUCED, log entry 32). -/
def Chip.beginPhase (c : Chip) (phase : BitVec 4) : Chip :=
  let hold := decide (phase = 4) && c.warning
  let c1 := c.modDev fun d =>
    { d with phase := phase, stepStart := d.tick, stepRun := false, stepHold := hold,
             digest := if phase = 3 then 0 else d.digest }
  if phase = 4 && !hold then
    c1.modJournal fun j => { j with nextAdmission := j.nextAdmission + 1, admission := j.nextAdmission + 1 }
  else c1

/-- The step in progress ends: its bit of DEV_TESTRES.STEPS, and for step 3 DIGEST and the THR registers (R76, R77, R164)
(DESIGN CHOICE, log entry 28). -/
def Chip.endStep (c : Chip) (m : Mems) : Chip :=
  let pass := fun (c : Chip) (i : Nat) => c.modDev fun d => { d with steps := d.steps ||| BitVec.ofNat 5 (2 ^ i) }
  match c.dev.phase.toNat with
  | 1 => (pass c 0).beginPhase 2
  | 2 => (pass c 1).beginPhase 3
  | 3 =>
    let next : BitVec 4 := if c.dev.steps.getLsbD 4 then 6 else 4
    if c.sec.progSeal.isNone then (c.beginPhase next).modDev fun d => { d with digest := 2 }
    else if !m.imageOk then (c.beginPhase next).modDev fun d => { d with digest := 3 }
    else (((pass c 2).loadThreads m).beginPhase next).modDev fun d => { d with digest := 1 }
  | 4 => (pass c 3).beginPhase 5
  | 5 => (pass c 4).beginPhase 6
  | _ => c

/-- A step ends, a hold is released, and a completed sealing runs step 3 again (R77, R78): the admission part of a tick boundary.
Where a sealing completes while steps 4 and 5, which R78 has put off, still run, step 3 runs again once step 5 has passed: the
manual gives steps 4 and 5 their full lengths and step 3 its next tick, and not both can hold (DESIGN CHOICE, log entry 28;
DESIGN CHOICE, log entry 89). -/
def Chip.admissionBoundary (c : Chip) (m : Mems) : Chip :=
  if c.dev.state ≠ .admitting then c
  else
    let ended := c.dev.stepRun && decide (stepLength c.dev.phase ≤ (c.dev.tick - c.dev.stepStart).toNat)
    let c1 := if ended then c.endStep m
      else if c.dev.stepHold && !c.warning then c.beginPhase 4 else c
    if c1.dev.rerun && c1.dev.steps.getLsbD 4 then
      (c1.modDev fun d => { d with rerun := false, steps := d.steps &&& 0x1B }).beginPhase 3
    else c1

/-- The comparison of a sealing's digest: a match seals the program and runs step 3 again, a mismatch leaves the seal clear; either is
journaled, the record's place holds the packet credit, and the load ends (R77, R161, R165, Table 17-2). -/
def Chip.sealDone (c : Chip) (m : Mems) (l : Load) (want : BitVec 64) (credit : Option Nat) : Chip :=
  let digest := m.imageDigest l.n.toNat
  let good := head8 digest = want
  let c1 := c.modSec fun x =>
    { x with load := none, progDigest := digest, progSeal := if good then some digest else x.progSeal }
  let c2 := if good then c1.modDev fun d => { d with rerun := true } else c1
  c2.record 135 none ((if good then (1 : Byte) else 2) :: (bytesBE (l.n.setWidth 32) 4 ++ bytesBE (head8 digest) 8)) 0xFF credit

/-- PLOAD_SEAL_DONE: the digest of the loaded words is computed and compared; while a supply warning stands no seal is written, and
the sealing waits (R28, R86, R165) (DESIGN CHOICE, log entry 40). -/
def runPloadSealDone (s : State) : State :=
  s.clock fun c => match c.sec.load with
    | none => c
    | some l => match l.sealing with
      | none => c
      | some (want, credit) =>
        if c.dev.state ≠ .admitting || c.warning then c
        else c.reading 1 (fun w => decide (w < l.n.toNat)) 0 fun c => c.sealDone s.mem l want credit

/-- Everything that R76 asks for stands. -/
def Chip.mayRun (c : Chip) : Bool :=
  c.dev.state = .admitting && decide (2000 ≤ c.dev.tick.toNat) && c.dev.phase = 6 && c.dev.steps = 0x1F && c.dev.digest = 1
    && !c.dev.rerun && !c.warning && c.dev.go && c.latching

/-- ENTER_RUN: the device enters RUN at cycle 0, with the TAP reset and the threads' budgets checked (R76, R140, R158)
(DESIGN CHOICE, log entry 27). -/
def runEnterRun (s : State) : State :=
  s.clock fun c =>
    if !c.mayRun then c
    else
      ((c.modDev fun d => { d with state := .run, phase := 7, runTicks := 1 }).modSec fun x =>
        { x with tapEn := false, tap := .testLogicReset }).startThreads

/-- The meaning of ADMISSION_STEP. -/
def execAdmissionStep (n : Fin 5) (r : StepRun) (s : State) : Out := .next (runAdmissionStep n r.test r.bits s)
/-- The meaning of PLOAD_SEAL_DONE. -/
def execPloadSealDone (s : State) : Out := .next (runPloadSealDone s)
/-- The meaning of ENTER_RUN. -/
def execEnterRun (s : State) : Out := .next (runEnterRun s)

end Sys2Proof.Machine
end

