-- ==== Sys2Proof/Machine/UpSlot.lean ====
section
/-! DEFINITION. The up slot: listen window, status, results and the stream area with its chunks (R58, R60 to R64, R67, R109,
R246, R358). -/

namespace Sys2Proof.Machine

/-- The up SYNC of a drop (R52). -/
def upSync (drop : BitVec 2) : BitVec 64 := 0x58E3A16C0F9D27E4 + drop.setWidth 64

/-- The start of the slot in 1/16 cycles of the tick (R60, R65). -/
def Lnk.slotStart (l : Lnk) : Int :=
  16 * (l.act.slotBase.toNat + l.drop.toNat * (l.act.slotLen.toNat + l.act.wadi.toNat) : Nat) + l.txOfs.toInt

/-- The header of a chunk (R62). -/
def chunkHeader (type : BitVec 4) (cont : Bool) (len : Nat) : List Byte :=
  bytesBE (type ++ BitVec.ofBool cont ++ BitVec.ofNat 11 len) 2

/-- A chunk as far as the space allows: its bytes, the space left, and what continues in the next slot (R62). -/
def putChunk (type : BitVec 4) (bytes : List Byte) (space : Nat) : List Byte × Nat × Option (BitVec 4 × List Byte) :=
  if bytes.length + 2 ≤ space then (chunkHeader type false bytes.length ++ bytes, space - 2 - bytes.length, none)
  else if space < 3 then ([], space, some (type, bytes))
  else (chunkHeader type true (space - 2) ++ bytes.take (space - 2), 0, some (type, bytes.drop (space - 2)))

/-- Padding to the end of the area (R62) (DESIGN CHOICE, log entry 41). -/
def padding (space : Nat) : List Byte :=
  if space < 2 then List.replicate space 0 else chunkHeader 0 false (space - 2) ++ List.replicate (space - 2) 0

/-! ### Journal delivery (R358) -/

/-- The records of an area in SEQ order: the committed ones, and before the one with its SEQ every TORN slot (R347, R350, R358)
(DESIGN CHOICE, log entry 92). -/
def Mems.records (m : Mems) (auditArea : Bool) : List SlotView :=
  ((if auditArea then m.slots 0 4096 else m.slots 0x10000 12288).filter fun v => v.st = 0xC3 || v.st = 0x7A).mergeSort fun a b =>
    a.seq.toNat < b.seq.toNat || (a.seq = b.seq && (a.st = 0x7A || b.st = 0xC3))

/-- The bytes of a record that a session receives, absent where it is skipped (R138, R358). A TORN record is a slot with STATE TORN,
and a record of type 129 as well (DESIGN CHOICE, log entry 92). -/
def Chip.recordFor (c : Chip) (m : Mems) (auditArea : Bool) (n : SessionId) (v : SlotView) : Option (List Byte) :=
  let x := c.sec.sessions[n.val]
  let type := v.head.getD 0 0
  let flags := v.head.getD 2 0
  let car := (flags.extractLsb' 0 4).toNat
  let torn := v.st = 0x7A || type = 129
  let hidden := decide (car < 12) && !x.filterCars.getLsbD car
  let filtered := decide (type.toNat < x.filterLo.toNat) || decide (x.filterHi.toNat < type.toNat)
  if (hidden || filtered) && !torn then none
  else
    let veiled := flags.getLsbD 6 && (c.level x.seat ≠ 0 || !c.secured x.seat)
    let unseen := decide (car < 12) && !((c.row x.seat)[3]).getLsbD car
    let base := if auditArea then 0 else 0x10000
    let all := m.journal.bytes (4 * (base + 16 * v.index)) 64
    some (if torn || veiled || unseen then all.take 24 else all)

/-- Where delivery stands behind a record: the SEQ to send next, and how many TORN slots with that SEQ have been sent (R358)
(DESIGN CHOICE, log entry 92). -/
def SlotView.after (v : SlotView) (at_ : Word × Nat) : Word × Nat :=
  if v.st = 0x7A then (v.seq, if v.seq = at_.1 then at_.2 + 1 else 1) else (v.seq + 1, 0)

/-- Records into the space of an area: bytes, space left, where delivery stands, and what continues
(DESIGN CHOICE, log entry 41). -/
def Chip.fillJournal (c : Chip) (m : Mems) (auditArea : Bool) (n : SessionId) :
    List SlotView → Nat → Word × Nat → List Byte × Nat × (Word × Nat) × Option (BitVec 4 × List Byte)
  | [], space, ptr => ([], space, ptr, none)
  | v :: r, space, ptr =>
    match c.recordFor m auditArea n v with
    | none => c.fillJournal m auditArea n r space (v.after ptr)
    | some b =>
      if space < 3 then ([], space, ptr, none)
      else
        let p := putChunk 3 b space
        match p.2.2 with
        | some rest => (p.1, p.2.1, v.after ptr, some rest)
        | none =>
          let q := c.fillJournal m auditArea n r p.2.1 (v.after ptr)
          (p.1 ++ q.1, q.2)

/-- The SEQ of the oldest retained record of an area (R348, R358). -/
def Chip.oldest (c : Chip) (auditArea : Bool) : Word := if auditArea then 1 else c.journal.opTail

/-- The records of an area that a session is still to receive, oldest first (R358). -/
def Chip.dueRecords (c : Chip) (m : Mems) (auditArea : Bool) (n : SessionId) : List SlotView :=
  let x := c.sec.sessions[n.val]
  let from_ := if x.readPtr.toNat < (c.oldest auditArea).toNat then c.oldest auditArea else x.readPtr
  let due := (m.records auditArea).filter fun v => from_.toNat ≤ v.seq.toNat
  let sent := (due.takeWhile fun v => v.st = 0x7A && v.seq = from_).take (if from_ = x.readPtr then x.readTorn else 0)
  due.drop sent.length

/-- A slot of the journal holds an uncorrectable word. -/
def Chip.slotBad (c : Chip) (auditArea : Bool) (v : SlotView) : Option Nat :=
  let base := (if auditArea then 0 else 0x10000) + 16 * v.index
  c.badWord 3 fun w => decide (base ≤ w) && decide (w < base + 16)

/-! ### Trace blocks (R246) -/

/-- The bytes of a trace block (Table 11-3). -/
def TraceBlock.bytes (b : TraceBlock) : List Byte :=
  [b.channel.setWidth 8, BitVec.ofBool b.triggered ++ BitVec.ofBool b.endFault |>.setWidth 8]
    ++ bytesBE (BitVec.ofNat 16 b.samples.length) 2 ++ bytesBE b.source 4 ++ bytesBE b.start 6 ++ bytesBE b.trigIndex 2
    ++ b.samples.flatMap fun w => bytesBE w 4

/-- Blocks of the selected channels into the space, oldest first: bytes, space left, the blocks still to send with the one
being sent at their head, and what continues (DESIGN CHOICE, log entry 41). -/
def fillTrace (mask : BitVec 8) : List TraceBlock → Nat → List Byte × Nat × List TraceBlock × Option (BitVec 4 × List Byte)
  | [], space => ([], space, [], none)
  | b :: r, space =>
    if !mask.getLsbD b.channel.toNat then
      let q := fillTrace mask r space
      match q.2.2.2, q.2.2.1 with
      | some rest, h :: t => (q.1, q.2.1, h :: b :: t, some rest)
      | rest, l => (q.1, q.2.1, b :: l, rest)
    else if space < 3 then ([], space, b :: r, none)
    else
      let p := putChunk 2 b.bytes space
      match p.2.2 with
      | some rest => (p.1, p.2.1, b :: r, some rest)
      | none =>
        let q := fillTrace mask r p.2.1
        (p.1 ++ q.1, q.2)

/-! ### The stream area (R62, R109) -/

/-- The chunks of an area of the given space, with the device after them. A trace block whose channel has been taken out of TRACEMASK
waits in the middle, and no other block overtakes it (R246) (DESIGN CHOICE, log entry 41). A journal slot that holds an uncorrectable
word is not sent: reading it is JOURNAL_FAULT (R356). -/
def Chip.chunks (c : Chip) (m : Mems) (space : Nat) : List Byte × Chip :=
  let owner : SessionId := c.lnk.streamOwner.toFin
  -- what continues from the slot before
  let masked := match c.lnk.chunk, c.blocks with
    | some (2, _), b :: _ => !c.lnk.act.traceMask.getLsbD b.channel.toNat
    | _, _ => false
  let first : List Byte × Nat × Option (BitVec 4 × List Byte) := match c.lnk.chunk with
    | none => ([], space, none)
    | some (type, bytes) => if masked then ([], space, some (type, bytes)) else putChunk type bytes space
  let c0 := c.modLnk fun l => { l with chunk := first.2.2 }
  if first.2.2.isSome then (first.1 ++ padding first.2.1, c0)
  else
    let c1 := match c.lnk.chunk with
      | some (2, _) => { c0 with blocks := c0.blocks.drop 1 }
      | _ => c0
    match c.lnk.stream with
    | .none => (first.1 ++ padding first.2.1, c1)
    | .replay =>
      if c.lnk.replay.length + 2 ≤ first.2.1 then
        let p := putChunk 1 c.lnk.replay first.2.1
        (first.1 ++ p.1 ++ padding p.2.1, c1)
      else (first.1 ++ padding first.2.1, c1)
    | .trace =>
      let q := fillTrace c.lnk.act.traceMask c1.blocks first.2.1
      (first.1 ++ q.1 ++ padding q.2.1, { c1.modLnk fun l => { l with chunk := q.2.2.2 } with blocks := q.2.2.1 })
    | .journal auditArea =>
      let x := c.sec.sessions[owner.val]
      let due := c.dueRecords m auditArea owner
      let from_ := (due.head?.map fun v => v.seq).getD (if x.readPtr.toNat < (c.oldest auditArea).toNat then c.oldest auditArea else x.readPtr)
      let good := due.takeWhile fun v => (c.slotBad auditArea v).isNone
      let q := c.fillJournal m auditArea owner good first.2.1 (from_, if from_ = x.readPtr then x.readTorn else 0)
      let c2 := (c1.modLnk fun l => { l with chunk := q.2.2.2 }).modSession owner fun x =>
        { x with readPtr := q.2.2.1.1, readTorn := q.2.2.1.2 }
      let met := match (due.drop good.length).head? with
        | none => none
        | some v => if q.2.2.2.isNone && decide (3 ≤ q.2.1) then c.slotBad auditArea v else none
      (first.1 ++ q.1 ++ padding q.2.1, match met with
        | none => c2
        | some w => c2.eccFail 3 w 320)

/-- The stream area of a slot with n results: zeros without a selection or below 16 bytes; otherwise encrypted chunks and their
tag (R62, R109) (DESIGN CHOICE, log entry 19; DESIGN CHOICE, log entry 41). -/
def Chip.streamArea (c : Chip) (m : Mems) (n : Nat) : List Byte × Chip :=
  let area := c.lnk.act.areaBytes n
  if c.lnk.stream = .none || decide (area < 16) then (List.replicate area 0, c)
  else
    let r := c.chunks m (area - 8)
    let x := c.sec.sessions[(c.lnk.streamOwner.toFin).val]
    let who : List Byte := [c.lnk.drop.setWidth 8, c.lnk.streamOwner.setWidth 8]
    let tick := bytesBE c.dev.tick 6
    let counter : Block := ofBytes 128 ([1] ++ who ++ [0] ++ tick ++ List.replicate 6 0)
    let sent := ctr x.kEncUp counter r.1
    (sent ++ bytesBE (cmacTag x.kMacUp (who ++ tick ++ sent)) 8, r.2)

/-- The bytes of a result packet (Table 3-4). -/
def Result.bytes (r : Result) : List Byte :=
  [r.sid, r.status] ++ bytesBE r.kind 2 ++ bytesBE r.seq 4 ++ bytesBE r.body 16 ++ bytesBE r.tag 8

/-- The slot is sent (R58, R60, R67). -/
def Chip.sendSlot (c : Chip) (m : Mems) : Chip :=
  let results := c.lnk.results
  let r := c.streamArea m results.length
  let odd := c.lnk.act.slotLen.getLsbD 0
  let body := (bytesBE c.lnk.status 16 ++ results.flatMap Result.bytes ++ r.1).flatMap byteBits
  r.2.modLnk fun l =>
    { l with
      defRun := 0,
      slot := some ⟨upSync l.drop, l.slotStart, l.status, results, r.1, odd,
        crc32Bits (body ++ if odd then List.replicate 4 false else [])⟩ }

/-- The first sample of the listen window that read 1 (DESIGN CHOICE, log entry 44). -/
def firstHigh (listen : BitVec 16) : Nat := ((List.range 16).find? fun i => listen.getLsbD i).getD 0

/-- Activity in the listen window: the slot stays silent and the deferral is counted (R67). With REPLAY selected the input record
that the slot was to carry is lost, and no REPLAY_GAP shows it: the manual gives the flag for a record that does not fit alone
(DESIGN CHOICE, log entry 87) (DESIGN CHOICE, log entry 25; DESIGN CHOICE, log entry 44). -/
def Chip.defer (c : Chip) (listen : BitVec 16) : Chip :=
  let full := c.lnk.defRun = 31
  let c1 := c.modLnk fun l =>
    { l with
      deferred := true, defTotal := l.defTotal + 1, defIndex := BitVec.ofNat 4 (firstHigh listen),
      defRun := if full then (Config.openWord c.free).setWidth 5 else l.defRun + 1 }
  if full then c1.draw else c1

/-- UP_SLOT: the slot of the tick, once in it and after the Host phase: silent without a fit, deferred, or sent (R18, R60, R64, R67,
R70)
(DESIGN CHOICE, log entry 27). -/
def runUpSlot (listen : BitVec 16) (s : State) : State :=
  s.act fun c =>
    if !c.linkUp || c.changeDue || c.lnk.noFit || c.lnk.slot.isSome || c.lnk.deferred then c
    else
      let c := c.leaveHost
      if listen ≠ 0 then c.defer listen else c.sendSlot s.mem

/-- The meaning of UP_SLOT. -/
def execUpSlot (listen : BitVec 16) (s : State) : Out := .next (runUpSlot listen s)

end Sys2Proof.Machine
end

