-- ==== Sys2Proof/Machine/Slots.lean ====
section
/-! DEFINITION. The instruction word as fetched: the opcode map (R196) and the operations inside an opcode, a thread's slot (R150
to R152, R180), and the packet that the host may not send (R57, R116, R170, R172). -/

namespace Sys2Proof.Machine

/-- An encoding fault: a fault ILLEGAL of the thread, or the answer ILLEGAL (R170, R172). -/
def bodyIllegal : Body := fun _ _ _ => { refuse .illegal with illegal := true }

/-- A reserved opcode. It has no cycle count (DESIGN CHOICE, log entry 45). -/
def runReserved (i : Issuer) (op : BitVec 6) (f : Enc) (s : State) : State := issue i op f 0 bodyIllegal s

/-- An instruction that the host may not issue (R170) (DESIGN CHOICE, log entry 45). -/
def threadOnly (i : Issuer) (op : BitVec 6) (f : Enc) (run : ThreadId → Enc → State → State) (s : State) : State :=
  match i with
  | .thread t => run t f s
  | .host _ => runReserved i op f s

/-- A sub-operation that the instruction does not have returns RANGE after the right it needs (R11). -/
def bodyNoOperation (denied : Ctx → Chip → List (Bool × Status)) : Body := fun x _ c =>
  { illegal := noFields x.f, checks := denied x c ++ [(true, .range)], queue := none, act := fun c => reply .range c }

/-- CAMSET: IMM[12] engages (Table 8-6). -/
def opCamset (i : Issuer) (f : Enc) (s : State) : State :=
  if f.imm.getLsbD 12 then runCamsetEngage i f s else runCamsetRelease i f s

/-- ISLAND: IMM[8] switches on (R193). -/
def opIsland (i : Issuer) (f : Enc) (s : State) : State := if f.imm.getLsbD 8 then runIslandOn i f s else runIslandOff i f s

/-- SELFTEST: the code in IMM[7:0] (R194). -/
def opSelftest (i : Issuer) (f : Enc) (s : State) : State :=
  let code : Byte := immBits f.imm 0 8
  match code.toNat with
  | 0x01 => runSelftestRamScrub i f s
  | 0x02 => runSelftestProgScrub i f s
  | 0x03 => runSelftestReference i f s
  | 0x04 => runSelftestEntropy i f s
  | 0x10 => runSelftestEnablePulse i f s
  | 0x11 => runSelftestGateDriver i f s
  | 0x12 => runSelftestBridgeExcitation i f s
  | _ => issue i 0x2A f 6 (bodyNoOperation fun x c => [(c.lacks x.who (if disruptive code then 12 else 11), .denied)]) s

/-- STREAM: the selection in IMM[2:0] (R195). -/
def opStream (i : Issuer) (f : Enc) (s : State) : State :=
  match (immBits f.imm 0 3).toNat with
  | 0 => runStreamNone i f s
  | 1 => runStreamReplay i f s
  | 2 => runStreamTrace i f s
  | 3 => runStreamJournal i f s
  | _ => issue i 0x35 f 4 (hostOnly (bodyNoOperation fun _ _ => [])) s

/-- PLOAD: the operation in IMM[15:14] (R165). -/
def opPload (i : Issuer) (f : Enc) (s : State) : State :=
  match (immBits f.imm 14 2).toNat with
  | 0 => runPloadBegin i f s
  | 1 => runPloadData i f s
  | 2 => runPloadSeal i f s
  | _ => issue i 0x3D f 8 (hostOnly (bodyNoOperation fun x c => ploadChecks x c)) s

/-- LDI and LDIH are one opcode (R178). -/
def opLdi (t : ThreadId) (f : Enc) (s : State) : State := if f.m = 3 then runLdih t f s else runLdi t f s

/-- The opcodes 00h to 1Fh (Table 8-10). -/
def runLow (i : Issuer) (op : BitVec 6) (f : Enc) (s : State) : State :=
  match op.toNat with
  | 0x01 => threadOnly i op f runAdd s
  | 0x02 => threadOnly i op f runSub s
  | 0x03 => threadOnly i op f runAnd s
  | 0x04 => threadOnly i op f runOr s
  | 0x05 => threadOnly i op f runXor s
  | 0x06 => threadOnly i op f runShl s
  | 0x07 => threadOnly i op f runShr s
  | 0x08 => threadOnly i op f runSar s
  | 0x09 => threadOnly i op f runMul s
  | 0x0A => threadOnly i op f runMac s
  | 0x0B => threadOnly i op f runSat s
  | 0x0C => threadOnly i op f runCmp s
  | 0x0D => threadOnly i op f opLdi s
  | 0x10 => runLd i f s
  | 0x11 => runSt i f s
  | 0x14 => threadOnly i op f runBr s
  | 0x15 => threadOnly i op f runCall s
  | 0x16 => threadOnly i op f runRet s
  | 0x17 => threadOnly i op f runYield s
  | 0x18 => threadOnly i op f runWait s
  | 0x19 => threadOnly i op f runAssert s
  | 0x1C => runGet i f s
  | 0x1D => runRegisterWrite i f s
  | _ => runReserved i op f s

/-- The opcodes 20h to 3Fh (Table 8-10). -/
def runHigh (i : Issuer) (op : BitVec 6) (f : Enc) (s : State) : State :=
  match op.toNat with
  | 0x20 => runMove i f s
  | 0x21 => runMoveq i f s
  | 0x22 => runStop i f s
  | 0x23 => runStopat i f s
  | 0x24 => runResume i f s
  | 0x25 => runFlush i f s
  | 0x26 => runLimit i f s
  | 0x27 => opCamset i f s
  | 0x28 => runHome i f s
  | 0x29 => opIsland i f s
  | 0x2A => opSelftest i f s
  | 0x2C => runCallset i f s
  | 0x2D => runCallclr i f s
  | 0x2E => runNextstop i f s
  | 0x2F => runReach i f s
  | 0x30 => runDeoreq i f s
  | 0x31 => runCrcjob i f s
  | 0x32 => issue i 0x32 f 6 bodyCal s
  | 0x33 => runTrace i f s
  | 0x34 => runLog i f s
  | 0x35 => opStream i f s
  | 0x36 => runChal i f s
  | 0x37 => if f.imm.getLsbD 15 then runSessionClose i f s else runSessionOpen i f s
  | 0x38 => runTbledit i f s
  | 0x39 => runTblpress i f s
  | 0x3A => if f.imm.getLsbD 15 then runKeysetPart1 i f s else runKeysetPart0 i f s
  | 0x3B => runStarch i f s
  | 0x3C => runUnstarch i f s
  | 0x3D => opPload i f s
  | 0x3E => runDarn i f s
  | _ => runReserved i op f s

/-- An instruction word of either issuer (R167, R196). -/
def runWord (i : Issuer) (w : Word) (s : State) : State :=
  if w.msb then runHigh i (opOf w) (encOf w) s else runLow i (opOf w) (encOf w) s

/-! ### A thread's slot (R150 to R152) -/

/-- A word from which an instruction may be fetched (R180). -/
def Mems.fetchable (m : Mems) (pc : BitVec 16) : Bool := 208 ≤ pc.toNat && m.inImage pc.toNat

/-- The thread fetches and runs one instruction; a fetch from anywhere else faults with ILLEGAL, and one of an uncorrectable word
trips the device (R25, R180)
(DESIGN CHOICE, log entry 5). -/
def State.fetchRun (s : State) (t : ThreadId) : State :=
  s.threadNow t fun s =>
    let pc := (s.chip.threads[t.val]).pc
    if s.mem.fetchable pc then
      s.reading 1 (fun w => decide (w = pc.toNat)) (s.chip.cycleOf t 0) (runWord (.thread t) (s.mem.progWord pc.toNat))
    else { s with chip := s.chip.modThread t fun x => x.fault 2 }

/-- Up to n instructions of the slot (DESIGN CHOICE, log entry 5). -/
def fetchLoop (t : ThreadId) : Nat → State → State
  | 0, s => s
  | n + 1, s => fetchLoop t n (s.fetchRun t)

/-- The slot of a thread opens, once in a tick: a READY thread gets its budget, a WAITING one spends its slot (R150, R155). -/
def Thread.openSlot (x : Thread) : Thread :=
  if x.ran || x.mustRestart then x
  else if x.st = .ready then { x with slotLeft := x.budgetAct, last := 0, ran := true }
  else if x.st = .waiting then { x with last := 0, progressed := true }
  else x

/-- THREAD_SLOT: in the thread window the thread's slot opens where it has not and is in turn, and up to n instructions are fetched and
run in it; the thread of a car whose islands are off does not run (R15, R18, R20, R142, R150 to R152, R180)
(DESIGN CHOICE, log entry 5). -/
def runThreadSlot (t : ThreadId) (n : BitVec 14) (s : State) : State :=
  if s.chip.running && s.chip.may .thread && s.chip.lit t then
    fetchLoop t n.toNat { s with
      chip := (s.chip.enter .thread).modThread t fun x => if s.chip.inTurn t (s.chip.slotStart t) then x.openSlot else x }
  else s

/-! ### A packet of no other row -/

/-- ILLEGAL_PACKET: a packet whose word the host may not send is answered ILLEGAL after 8 cycles; any other word does what its
row says (R57, R116, R170, R172) (DEDUCED, log entry 47). -/
def runIllegalPacket (p : Packet) (word : Word) (s : State) : State := runWord (.host p) word s

/-- The meaning of THREAD_SLOT. -/
def execThreadSlot (t : ThreadId) (n : BitVec 14) (s : State) : Out := .next (runThreadSlot t n s)
/-- The meaning of ILLEGAL_PACKET. -/
def execIllegalPacket (p : Packet) (word : Word) (s : State) : Out := .next (runIllegalPacket p word s)

end Sys2Proof.Machine
end

