-- ==== Sys2Proof/Machine/Tick.lean ====
section
/-! DEFINITION. TICK_START: a tick ends and the next one begins with the latch of every input at cycle 0 (R18, R19, R32, R40), with
the boundary effects of every chapter in a fixed order: link, time and sessions, admission, power, threads, cars. -/

namespace Sys2Proof.Machine

/-! ### Link and time (R32, R40, R42, R59, R61, R62, R64) -/

/-- The highest drop of LNK_DROPS plus 1. -/
def topDrop (h : BitVec 4) : Nat := if h.getLsbD 3 then 4 else if h.getLsbD 2 then 3 else if h.getLsbD 1 then 2 else 1

/-- The drop sends its slot in this tick (R64). -/
def Lnk.fits (l : Lnk) : Bool :=
  l.act.drops.getLsbD l.drop.toNat && decide (topDrop l.act.drops * (l.act.slotLen.toNat + l.act.wadi.toNat) ≤ l.ticklen.toNat)

/-- A stream selection accepted in the last tick acts; for the journal the pointer goes to the oldest retained record (R195,
R358) (DESIGN CHOICE, log entry 41). -/
def Chip.streamBoundary (c : Chip) : Chip :=
  match c.lnk.streamNext with
  | none => c
  | some (owner, sel) =>
    let c1 := c.modLnk fun l =>
      { l with streamNext := none, stream := sel, streamOwner := if sel = .none then 0 else owner, chunk := none }
    match sel with
    | .journal auditArea => c1.modSession owner.toFin fun x => { x with readPtr := c1.oldest auditArea, readTorn := 0 }
    | .none | .replay | .trace => c1

/-- The link at a boundary: the status block of the ended tick, the packets and wall time of its frame, accepted PUTs, the fit rule
(R42, R59, R61, R64, R65) (DESIGN CHOICE, log entry 83). -/
def Chip.linkBoundary (c : Chip) : Chip :=
  let c0 := if c.lnk.frameIn then c else c.darkFrame false
  let status := c0.statusBlock (c0.dev.tick.extractLsb' 0 4)
  let c1 := c0.modDev fun d =>
    { d with
      tick := d.tick + 1, hostCycles := 0, hostStopped := false, tripThisTick := false,
      wall := c0.lnk.nextWall.getD d.wall, wallSeen := d.wallSeen.orElse fun _ => c0.lnk.nextWall,
      runTicks := if d.state = .run then satInc d.runTicks else 0 }
  let c2 := c1.modLnk fun l =>
    let l := { l with
      act := l.cfg, status := status, section_ := l.received, received := [], results := [], slot := none, frameIn := false,
      nextWall := none, deferred := false, replay := Config.replayRecord c0.inputs,
      sinceChange := satInc l.sinceChange }
    { l with noFit := !l.fits }
  c2.streamBoundary

/-! ### Sessions (R103, R114, R133) -/

/-- Changes due at this boundary: of the accepted ones, in their order, those whose records are all committed, up to the first that is not or
that a supply warning holds (R86, R128, R129). -/
def markDue (warning : Bool) : List Audit → List Audit
  | [] => []
  | a :: r =>
    if a.waits = [] && !(warning && a.change.nonvolatile) then { a with due := true } :: markDue warning r
    else (a :: r).map fun a => { a with due := false }

/-- Sessions that were to close at this boundary close; idle times and ages grow; with no supply warning left, the LOCKED bits that
waited for it are written; the audited changes that take effect at it are marked (R86, R103, R112, R114, R128, R133). -/
def Chip.sessionBoundary (c : Chip) : Chip :=
  let c1 := foldFin 16 (fun n c => match (c.sec.sessions[n.val]).closing with
    | none => c
    | some reason => c.closeSession n reason) c
  c1.modSec fun x =>
    { x with
      locked := if c1.warning then x.locked else x.locked ||| x.lockDue, lockDue := if c1.warning then x.lockDue else 0,
      sessions := vmap (fun n s => if s.isOpen || n.val = 0 then { s with idle := satInc s.idle } else s) x.sessions,
      challenges := vmap (fun _ h => h.map fun h => { h with age := satInc h.age }) x.challenges,
      witness := x.witness.map fun w => { w with age := satInc w.age }, audits := markDue c1.warning x.audits }

/-! ### Cars (R253 to R256, R261, R264, R270) -/

/-- A switch-off accepted in the last tick acts (R90, R193). -/
def Chip.powerOffStep (c : Chip) (k : CarId) : Chip :=
  if (c.cars[k.val]).powerOff then (c.endCarCaptures k).switchOff k else c

/-- REQ CLEAR acts: axis k re-seated at CAR_POS, the car's halted threads restarted with their windows cleared, ACTIVE cleared
(R253) (DEDUCED, log entry 59). -/
def Chip.clearFault (c : Chip) (k : CarId) : Chip :=
  let c1 := c.modAxis (carAxis k) fun a => a.reseat (c.cars[k.val]).pos
  let c2 := [carThread k, doorThread (frontDoor k), doorThread (rearDoor k)].foldl (fun c t =>
    c.modThread t fun x =>
      if x.st = .halted then (if x.budgetAct = 0 then { x with restarts := [] } else { x.start x.restart with restarts := [] })
      else x) c1
  c2.modCar k fun x => { x with faultActive := false, pulseOk := false }

/-- An accepted request changes the state of the car (R249, R253, R254). -/
def Chip.serviceStep (c : Chip) (k : CarId) : Chip :=
  match (c.cars[k.val]).goto with
  | none => c
  | some dest =>
    let c1 := if (c.cars[k.val]).service = .stoppedFault then c.clearFault k else c
    (c1.setService k dest).modCar k fun x => { x with goto := none }

/-- Position, speed and nearest landing (R256) (DEDUCED, log entry 51). -/
def Chip.positionStep (c : Chip) (k : CarId) : Chip :=
  let f := c.fbks[(machine k).val]
  c.modCar k fun x =>
    let x := match x.tableNext with
      | none => x
      | some t => { x with table := some t, tableNext := none }
    let pos := BitVec.ofInt 32 f.measured
    { x with pos := pos, speed := f.speed, accel := c.carAccel k, landing := BitVec.ofNat 8 (x.nearestLanding pos) }

/-- The run-time limiter: a run counts its ticks, and ends at rest at its end point (R264). -/
def Chip.runTimeStep (c : Chip) (k : CarId) : Chip :=
  let x := c.cars[k.val]
  let a := c.axes[(carAxis k).val]
  if !x.run.running then c
  else
    let near := match c.sps.get (.car 4 k) with
      | none => false
      | some w => decide ((x.pos.toInt * unit - a.e.toInt).natAbs ≤ w.toNat * 2 ^ 48)
    let over_ := (a.st = .idle || a.st = .held) && x.speed = 0 && near
    c.modCar k fun x =>
      if over_ then { x with run := { x.run with running := false } }
      else { x with run := { x.run with ticks := satInc x.run.ticks } }

/-- SCHEDULE_EVAL: MODE takes the selected entry's mode when the selection changes (R270). -/
def Chip.scheduleStep (c : Chip) (k : CarId) : Chip :=
  c.modCar k fun x => match x.schedule with
    | none => x
    | some t =>
      if x.modeHold then x
      else match t.select c.dev.wall with
        | none => x
        | some e => if x.schedSel = some e then x else { x with mode := e.2, modeSrc := true, schedSel := some e }

/-- The latches of a car with its islands on (R18, R228, R256, R267, R297, R307) (DEDUCED, log entry 57). -/
def Chip.carLatch (c : Chip) (k : CarId) (x : TickInputs) : Chip :=
  let c1 := (((c.fbkBoundary k).positionStep k).serviceStep k).switchStep k x.switches[k.val]
  let c2 := c1.floorStep k
  let c3 := (c2.doorBoundary (frontDoor k) x.current[(frontDoor k).val]).doorBoundary (rearDoor k) x.current[(rearDoor k).val]
  let c4 := foldFin 8 (fun i c => c.tapLatch (carTap k i) x.tapMv[(carTap k i).val]) c3
  let c5 := (c4.modCar k Car.latchReply).enableLatch k x.pads[k.val] x.readbacks[k.val] x.pulseRb
  (c5.runTimeStep k).scheduleStep k

/-- Loops, front-end channels, the calibration group and the axes of a car at the boundary (R214, R238, R242, R326, R331) (DEDUCED, log entry 50). -/
def Chip.carConfigure (c : Chip) (k : CarId) : Chip :=
  let doors := [frontDoor k, rearDoor k]
  let loops := carLoop k :: doors.flatMap fun d => (List.finRange 3).map (doorLoop d)
  let c1 := loops.foldl (fun c l => c.modLoop l fun x => x.boundary (c.loopForced l || !c.loopUsed l) (c.enableLow l)) c
  let c2 := (foldFin 4 (fun i c => c.modFe (carFe k i) Fe.boundary) c1).modCal k CalGroup.boundary
  [carAxis k, doorAxis (frontDoor k), doorAxis (rearDoor k)].foldl (fun c a => c.modAxis a fun x => { x with taken := false }) c2

/-- The p of the car's axes as the last Profile phase left it, before anything at the boundary re-seats them (R214). -/
def Chip.latchPositions (c : Chip) (k : CarId) : Chip :=
  [carAxis k, doorAxis (frontDoor k), doorAxis (rearDoor k)].foldl (fun c a => c.modAxis a fun x => { x with pPrev := x.p }) c

/-- A car at the boundary (DESIGN CHOICE, log entry 83). -/
def Chip.carBoundary (c : Chip) (k : CarId) (x : TickInputs) : Chip :=
  let c1 := ((c.latchPositions k).powerOffStep k).modCar k fun x => { x with powerFresh := false }
  if (c1.cars[k.val]).on then (c1.carLatch k x).carConfigure k
  else (c1.serviceStep k)

/-! ### The whole boundary -/

/-- DOOR_SINTAB entries written in the last tick act (R281). -/
def Chip.sineBoundary (c : Chip) : Chip :=
  { c with
    sine := c.sineNext.foldl (fun v w => v.set w.1.toNat ((v[w.1.toNat]).set w.2.1.toNat w.2.2)) c.sine, sineNext := [] }

/-- Every capture notes its owner's fault state (R244). -/
def Chip.captureBoundary (c : Chip) : Chip := { c with captures := vmap (fun _ r => r.map c.passBoundary) c.captures }

/-- A tick begins: its Host phase, its input record with what is latched at cycle 0, no write of its thread window, the scan engine at
its first cycle, and the bit errors that have struck since the tick before (R18, R46, R338, R342). -/
def Chip.openTick (c : Chip) (x : TickInputs) : Chip :=
  { c with
    stage := .host, inputs := ⟨some x, []⟩, ramLog := [], turn := (0, 0), flaws := x.flaws ++ c.flaws,
    journal := { c.journal with started := false, scrubbed := false },
    scan := { c.scan with cycle := 1536, scrub := vmap (fun _ b => { b with visited := false }) c.scan.scrub } }

/-- The boundary of a tick with the inputs latched at its cycle 0 (DESIGN CHOICE, log entry 83). -/
def Chip.tickBoundary (c : Chip) (m : Mems) (x : TickInputs) : Chip :=
  let wasRunning := c.running
  let c1 := ((c.scanProgress m).captureBoundary.linkBoundary).openTick x
  let now := c1.dev.tick
  let c2 := { c1 with threads := vmap (fun n (t : Thread) => t.boundary wasRunning now (c1.lit n)) c1.threads }
  let c3 := ((c2.sessionBoundary.admissionBoundary m).powerBoundary x).sineBoundary
  foldFin 12 (fun k c => c.carBoundary k x) c3

/-- TICK_START: while SCK runs and the link is up, the next tick begins, once what is due at the boundary before has taken effect (R18,
R32, R40, R129)
(DESIGN CHOICE, log entry 27; DESIGN CHOICE, log entry 72). -/
def runTickStart (x : TickInputs) (s : State) : State :=
  s.act fun c => if c.linkUp && !c.changeDue then c.tickBoundary s.mem x else c

/-- The meaning of TICK_START. -/
def execTickStart (x : TickInputs) (s : State) : Out := .next (runTickStart x s)

end Sys2Proof.Machine
end

