-- ==== Sys2Proof/Machine/Dispatch.lean ====
section
/-! DEFINITION. The meaning of every command, one arm per row of the opcode table. -/

namespace Sys2Proof.Machine

/-- The effect of a command on everything but the queue (R18, R110, R117, R169). -/
def exec (i : Instr) (s : State) : Host.Outcome State Fault Refusal :=
  match i with
  | .add t f => Sys2Proof.Machine.execAdd t f s
  | .sub t f => Sys2Proof.Machine.execSub t f s
  | .and t f => Sys2Proof.Machine.execAnd t f s
  | .or t f => Sys2Proof.Machine.execOr t f s
  | .xor t f => Sys2Proof.Machine.execXor t f s
  | .shl t f => Sys2Proof.Machine.execShl t f s
  | .shr t f => Sys2Proof.Machine.execShr t f s
  | .sar t f => Sys2Proof.Machine.execSar t f s
  | .mul t f => Sys2Proof.Machine.execMul t f s
  | .mac t f => Sys2Proof.Machine.execMac t f s
  | .sat t f => Sys2Proof.Machine.execSat t f s
  | .cmp t f => Sys2Proof.Machine.execCmp t f s
  | .ldi t f => Sys2Proof.Machine.execLdi t f s
  | .ldih t f => Sys2Proof.Machine.execLdih t f s
  | .ld u f => Sys2Proof.Machine.execLd u f s
  | .st u f => Sys2Proof.Machine.execSt u f s
  | .br t f => Sys2Proof.Machine.execBr t f s
  | .call t f => Sys2Proof.Machine.execCall t f s
  | .ret t f => Sys2Proof.Machine.execRet t f s
  | .yield t f => Sys2Proof.Machine.execYield t f s
  | .wait t f => Sys2Proof.Machine.execWait t f s
  | .assert t f => Sys2Proof.Machine.execAssert t f s
  | .get u f => Sys2Proof.Machine.execGet u f s
  | .put u f => Sys2Proof.Machine.execPut u f s
  | .move u f => Sys2Proof.Machine.execMove u f s
  | .moveq u f => Sys2Proof.Machine.execMoveq u f s
  | .stop u f => Sys2Proof.Machine.execStop u f s
  | .stopat u f => Sys2Proof.Machine.execStopat u f s
  | .resume u f => Sys2Proof.Machine.execResume u f s
  | .flush u f => Sys2Proof.Machine.execFlush u f s
  | .limit u f => Sys2Proof.Machine.execLimit u f s
  | .camsetEngage u f => Sys2Proof.Machine.execCamsetEngage u f s
  | .camsetRelease u f => Sys2Proof.Machine.execCamsetRelease u f s
  | .home u f => Sys2Proof.Machine.execHome u f s
  | .islandOn u f => Sys2Proof.Machine.execIslandOn u f s
  | .islandOff u f => Sys2Proof.Machine.execIslandOff u f s
  | .selftestRamScrub u f => Sys2Proof.Machine.execSelftestRamScrub u f s
  | .selftestProgScrub u f => Sys2Proof.Machine.execSelftestProgScrub u f s
  | .selftestReference u f => Sys2Proof.Machine.execSelftestReference u f s
  | .selftestEntropy u f => Sys2Proof.Machine.execSelftestEntropy u f s
  | .selftestEnablePulse u f => Sys2Proof.Machine.execSelftestEnablePulse u f s
  | .selftestGateDriver u f => Sys2Proof.Machine.execSelftestGateDriver u f s
  | .selftestBridgeExcitation u f => Sys2Proof.Machine.execSelftestBridgeExcitation u f s
  | .callset u f => Sys2Proof.Machine.execCallset u f s
  | .callclr u f => Sys2Proof.Machine.execCallclr u f s
  | .nextstop u f => Sys2Proof.Machine.execNextstop u f s
  | .reach u f => Sys2Proof.Machine.execReach u f s
  | .deoreq u f => Sys2Proof.Machine.execDeoreq u f s
  | .crcjob u f => Sys2Proof.Machine.execCrcjob u f s
  | .calZero u f => Sys2Proof.Machine.execCalZero u f s
  | .calSpan u f => Sys2Proof.Machine.execCalSpan u f s
  | .trace u f => Sys2Proof.Machine.execTrace u f s
  | .log u f => Sys2Proof.Machine.execLog u f s
  | .streamNone u f => Sys2Proof.Machine.execStreamNone u f s
  | .streamReplay u f => Sys2Proof.Machine.execStreamReplay u f s
  | .streamTrace u f => Sys2Proof.Machine.execStreamTrace u f s
  | .streamJournal u f => Sys2Proof.Machine.execStreamJournal u f s
  | .chal u f => Sys2Proof.Machine.execChal u f s
  | .sessionOpen u f => Sys2Proof.Machine.execSessionOpen u f s
  | .sessionClose u f => Sys2Proof.Machine.execSessionClose u f s
  | .tbledit u f => Sys2Proof.Machine.execTbledit u f s
  | .tblpress u f => Sys2Proof.Machine.execTblpress u f s
  | .keysetPart0 u f => Sys2Proof.Machine.execKeysetPart0 u f s
  | .keysetPart1 u f => Sys2Proof.Machine.execKeysetPart1 u f s
  | .starch u f => Sys2Proof.Machine.execStarch u f s
  | .unstarch u f => Sys2Proof.Machine.execUnstarch u f s
  | .ploadBegin u f => Sys2Proof.Machine.execPloadBegin u f s
  | .ploadData u f => Sys2Proof.Machine.execPloadData u f s
  | .ploadSeal u f => Sys2Proof.Machine.execPloadSeal u f s
  | .darn u f => Sys2Proof.Machine.execDarn u f s
  | .devAdmitGo u f => Sys2Proof.Machine.execDevAdmitGo u f s
  | .keeperReadmit u f => Sys2Proof.Machine.execKeeperReadmit u f s
  | .pwrIslandreqWrite u f => Sys2Proof.Machine.execPwrIslandreqWrite u f s
  | .secZeroize u f => Sys2Proof.Machine.execSecZeroize u f s
  | .seatUnlock u f => Sys2Proof.Machine.execSeatUnlock u f s
  | .keeperSecWrite u f => Sys2Proof.Machine.execKeeperSecWrite u f s
  | .securemaskWrite u f => Sys2Proof.Machine.execSecuremaskWrite u f s
  | .tapctlWrite u f => Sys2Proof.Machine.execTapctlWrite u f s
  | .spsPut u f => Sys2Proof.Machine.execSpsPut u f s
  | .threadRestartCmd u f => Sys2Proof.Machine.execThreadRestartCmd u f s
  | .threadHaltCmd u f => Sys2Proof.Machine.execThreadHaltCmd u f s
  | .carReqOut u f => Sys2Proof.Machine.execCarReqOut u f s
  | .carReqIn u f => Sys2Proof.Machine.execCarReqIn u f s
  | .carReqInspect u f => Sys2Proof.Machine.execCarReqInspect u f s
  | .carReqClear u f => Sys2Proof.Machine.execCarReqClear u f s
  | .landingTableLoad u f => Sys2Proof.Machine.execLandingTableLoad u f s
  | .scheduleLoad u f => Sys2Proof.Machine.execScheduleLoad u f s
  | .doorReqReopen u f => Sys2Proof.Machine.execDoorReqReopen u f s
  | .doorReqNudge u f => Sys2Proof.Machine.execDoorReqNudge u f s
  | .doorReqClear u f => Sys2Proof.Machine.execDoorReqClear u f s
  | .sintabWrite u f => Sys2Proof.Machine.execSintabWrite u f s
  | .learnGo u f => Sys2Proof.Machine.execLearnGo u f s
  | .camselHalf0 u f => Sys2Proof.Machine.execCamselHalf0 u f s
  | .camselHalf1 u f => Sys2Proof.Machine.execCamselHalf1 u f s
  | .loopIreset u f => Sys2Proof.Machine.execLoopIreset u f s
  | .loopFaultClear u f => Sys2Proof.Machine.execLoopFaultClear u f s
  | .cmpbaseArm u f => Sys2Proof.Machine.execCmpbaseArm u f s
  | .polybaseLoad u f => Sys2Proof.Machine.execPolybaseLoad u f s
  | .crcValWrite u f => Sys2Proof.Machine.execCrcValWrite u f s
  | .stickyClear u f => Sys2Proof.Machine.execStickyClear u f s
  | .registerWrite u f => Sys2Proof.Machine.execRegisterWrite u f s
  | .tickStart x => Sys2Proof.Machine.execTickStart x s
  | .downFrame fr => Sys2Proof.Machine.execDownFrame fr s
  | .huntSyncLock l => Sys2Proof.Machine.execHuntSyncLock l s
  | .upSlot listen => Sys2Proof.Machine.execUpSlot listen s
  | .linkDarkTrip cycle => Sys2Proof.Machine.execLinkDarkTrip cycle s
  | .slotDeferTrip cycle => Sys2Proof.Machine.execSlotDeferTrip cycle s
  | .eqTrial lane up before after => Sys2Proof.Machine.execEqTrial lane up before after s
  | .sckGapTrip cycle gapNs => Sys2Proof.Machine.execSckGapTrip cycle gapNs s
  | .sckResume => Sys2Proof.Machine.execSckResume s
  | .enableDecay k which => Sys2Proof.Machine.execEnableDecay k which s
  | .rstNAssert lowNs => Sys2Proof.Machine.execRstNAssert lowNs s
  | .leaveDark railMv highEdges dropsel => Sys2Proof.Machine.execLeaveDark railMv highEdges dropsel s
  | .supplyPorLoss rail mv => Sys2Proof.Machine.execSupplyPorLoss rail mv s
  | .supplyWarning rail mv => Sys2Proof.Machine.execSupplyWarning rail mv s
  | .supplyWarningClear rail mv cycles => Sys2Proof.Machine.execSupplyWarningClear rail mv cycles s
  | .brownoutTrip rail mv cycles cycle => Sys2Proof.Machine.execBrownoutTrip rail mv cycles cycle s
  | .overtempTrip cycle => Sys2Proof.Machine.execOvertempTrip cycle s
  | .avsDecision => Sys2Proof.Machine.execAvsDecision s
  | .lockstepTrip cluster thread cycle => Sys2Proof.Machine.execLockstepTrip cluster thread cycle s
  | .entropyInterval bits => Sys2Proof.Machine.execEntropyInterval bits s
  | .admissionStep n test => Sys2Proof.Machine.execAdmissionStep n test s
  | .enterRun => Sys2Proof.Machine.execEnterRun s
  | .islandPowerupStart => Sys2Proof.Machine.execIslandPowerupStart s
  | .islandPowerupDone k test => Sys2Proof.Machine.execIslandPowerupDone k test s
  | .sessionIdleTimeout sid => Sys2Proof.Machine.execSessionIdleTimeout sid s
  | .sessionMaclimit sid => Sys2Proof.Machine.execSessionMaclimit sid s
  | .seatLockout seat => Sys2Proof.Machine.execSeatLockout seat s
  | .challengeExpiry sid => Sys2Proof.Machine.execChallengeExpiry sid s
  | .witnessExpiry => Sys2Proof.Machine.execWitnessExpiry s
  | .auditedChangeEffect => Sys2Proof.Machine.execAuditedChangeEffect s
  | .threadSlot t n => Sys2Proof.Machine.execThreadSlot t n s
  | .threadWake t => Sys2Proof.Machine.execThreadWake t s
  | .threadStall t => Sys2Proof.Machine.execThreadStall t s
  | .threadRestart t => Sys2Proof.Machine.execThreadRestart t s
  | .threadHaltLimit t => Sys2Proof.Machine.execThreadHaltLimit t s
  | .profileAdvance a => Sys2Proof.Machine.execProfileAdvance a s
  | .moveTake a => Sys2Proof.Machine.execMoveTake a s
  | .homeReference a => Sys2Proof.Machine.execHomeReference a s
  | .quadEdge e ab held cycle => Sys2Proof.Machine.execQuadEdge e ab held cycle s
  | .zIndex e held cycle => Sys2Proof.Machine.execZIndex e held cycle s
  | .ssiReadStart u ssidt => Sys2Proof.Machine.execSsiReadStart u ssidt s
  | .ssiReadDone u bits => Sys2Proof.Machine.execSsiReadDone u bits s
  | .feedbackFault u => Sys2Proof.Machine.execFeedbackFault u s
  | .loopRun l => Sys2Proof.Machine.execLoopRun l s
  | .loopModelFault l => Sys2Proof.Machine.execLoopModelFault l s
  | .loopSatFault l => Sys2Proof.Machine.execLoopSatFault l s
  | .driveCommand k => Sys2Proof.Machine.execDriveCommand k s
  | .driveReply k r => Sys2Proof.Machine.execDriveReply k r s
  | .driveReplyMissing k => Sys2Proof.Machine.execDriveReplyMissing k s
  | .driveportFault k => Sys2Proof.Machine.execDriveportFault k s
  | .drivespeedFault k => Sys2Proof.Machine.execDrivespeedFault k s
  | .carArrival k => Sys2Proof.Machine.execCarArrival k s
  | .runlimExpiry k => Sys2Proof.Machine.execRunlimExpiry k s
  | .hallEdge d code held cycle => Sys2Proof.Machine.execHallEdge d code held cycle s
  | .commutationFault d => Sys2Proof.Machine.execCommutationFault d s
  | .doorKeFault d => Sys2Proof.Machine.execDoorKeFault d s
  | .opentExpiry d => Sys2Proof.Machine.execOpentExpiry d s
  | .closetExpiry d => Sys2Proof.Machine.execClosetExpiry d s
  | .doorStall d => Sys2Proof.Machine.execDoorStall d s
  | .matrixEval k => Sys2Proof.Machine.execMatrixEval k s
  | .readbackFault k => Sys2Proof.Machine.execReadbackFault k s
  | .safePulseReadbackFault => Sys2Proof.Machine.execSafePulseReadbackFault s
  | .chopSample x c => Sys2Proof.Machine.execChopSample x c s
  | .offsetTrim x => Sys2Proof.Machine.execOffsetTrim x s
  | .feResult x => Sys2Proof.Machine.execFeResult x s
  | .referenceTrip cycle => Sys2Proof.Machine.execReferenceTrip cycle s
  | .calStart g => Sys2Proof.Machine.execCalStart g s
  | .calDecide g => Sys2Proof.Machine.execCalDecide g s
  | .calTimeout g => Sys2Proof.Machine.execCalTimeout g s
  | .scanJobStart => Sys2Proof.Machine.execScanJobStart s
  | .scanJobDone => Sys2Proof.Machine.execScanJobDone s
  | .scanJobTimeout => Sys2Proof.Machine.execScanJobTimeout s
  | .scrubVisit m e => Sys2Proof.Machine.execScrubVisit m e s
  | .scrubPassEnd second => Sys2Proof.Machine.execScrubPassEnd second s
  | .selftestComplete code k r => Sys2Proof.Machine.execSelftestComplete code k r s
  | .journalScrub e => Sys2Proof.Machine.execJournalScrub e s
  | .traceCaptureStart c => Sys2Proof.Machine.execTraceCaptureStart c s
  | .traceSample c => Sys2Proof.Machine.execTraceSample c s
  | .traceComplete c => Sys2Proof.Machine.execTraceComplete c s
  | .traceTimeout c => Sys2Proof.Machine.execTraceTimeout c s
  | .journalRecordStart => Sys2Proof.Machine.execJournalRecordStart s
  | .journalCommit w => Sys2Proof.Machine.execJournalCommit w s
  | .ploadSealDone => Sys2Proof.Machine.execPloadSealDone s
  | .illegalPacket p word => Sys2Proof.Machine.execIllegalPacket p word s
  | .tapTck rising control tdi => Sys2Proof.Machine.execTapTck rising control tdi s

end Sys2Proof.Machine
end

