-- ==== Sys2Proof/Machine/Step.lean ====
section
/-! DEFINITION. One step of the block: the command at the front of the queue runs; with an empty queue the block idles
(DESIGN CHOICE, log entry 2). -/

namespace Sys2Proof.Machine

/-- Take the command at the front of the queue and answer its outcome on the queue's rest. -/
def step (s : State) : Host.Outcome State Fault Refusal :=
  match s.pending with
  | [] => .next s
  | c :: rest => exec c { s with pending := rest }

/-- The table gives no bits to any row, so no word spells a command and the state stays as it is (DEDUCED, log entry 10). -/
def State.withFetchWord (s : State) (nbits w : Nat) : State :=
  match decodeTableWord nbits w with
  | some c => { s with pending := c :: s.pending }
  | none => s

end Sys2Proof.Machine
end

