-- ==== Sys2Proof/Machine/Pins.lean ====
section
/-! DEFINITION. The pins: what every output carries in a cycle of the present tick (Table 1-3, Table 4-5), and the order of the bits on
the lanes of the link (R50, R51). Each output follows from the state alone; no thread and no packet sets one (R16). -/

namespace Sys2Proof.Machine

/-- The admission cycle count of a cycle of the present tick. -/
def Chip.now (c : Chip) (cycle : Nat) : Nat := c.dev.tick.toNat * c.lnk.ticklen.toNat + cycle

/-! ### Control core -/

/-- A level of a VIO pin: with VIO absent it is high impedance (Tables 4-5 and 19-8). -/
def Chip.viaVio {α : Type} (c : Chip) (x : α) : Option α := if c.pwr.vioOn then some x else none

/-- DEV_OK: high in RUN only. -/
def Chip.devOk (c : Chip) : Option Bool := c.viaVio c.running

/-- SAFE_PULSE: bit 0 of DEV_TICK in RUN, low otherwise (R41). -/
def Chip.safePulse (c : Chip) : Option Bool := c.viaVio (c.running && c.dev.tick.getLsbD 0)

/-- AVS_VID_0 to AVS_VID_5: the adaptive loop in RUN, VBOOT otherwise; not conducting with VIO absent (R88). -/
def Chip.avsVid (c : Chip) : Option (BitVec 6) := c.viaVio (if c.running then c.pwr.vid else c.pwr.act.vboot)

/-- TDO: the TAP's bit where it is enabled outside DARK and RUN, otherwise high impedance (R140, Table 4-5). -/
def Chip.tdoPin (c : Chip) : Option Bool :=
  if c.dev.state = .dark || c.running || !c.sec.tapEn then none else some c.sec.tdo

/-! ### Enables and gates (R273, R274, R307) -/

/-- DRVEN, BRKEN and DOOREN of a car: the levels at the pads, low in every other state than RUN but for the fall after a trip. -/
def Chip.enables (c : Chip) (k : CarId) : BitVec 3 := if (c.cars[k.val]).on then (c.cars[k.val]).ilk.pad else 0

/-- The pump pulses of a cycle: every store that is pumped gets one in each 4,096 cycles of the admission cycle count (R35, R38, R307)
(DESIGN CHOICE, log entry 72). -/
def Chip.pumpPulses (c : Chip) (k : CarId) (cycle : Nat) : BitVec 3 :=
  if c.lnk.sckRunning && (c.cars[k.val]).on && c.now cycle % 4096 = 0 then (c.cars[k.val]).ilk.pump else 0

/-- C of a leg in a period of length p: round(d × p) (R274) (DEDUCED, log entry 66). -/
def dutyCompare (n : Int) (p : Nat) : Nat := ((2 * n * p + 2 ^ 31) / 2 ^ 32).toNat

/-- The gates of a leg, high side first, at a cycle of a period of length p (R274). -/
def Leg.gates (x : Leg) (deadt p o : Nat) : Bool × Bool :=
  match x with
  | .low => (false, false)
  | .duty n =>
    let k := dutyCompare n p
    let rise := p / 2 - k / 2
    let fall := p / 2 + (k + 1) / 2
    (decide (rise + deadt ≤ o) && decide (o < fall), decide (o < rise) || (decide (fall + deadt ≤ o) && decide (o < p)))

/-- The PWM period of a door in which a cycle of the tick lies: its number, its length and the cycle counted from its start (R35). -/
def Chip.pwmAt (c : Chip) (d : DoorId) (cycle : Nat) : Nat × Nat × Nat :=
  let n := (c.doors[d.val]).act.div.toNat + 1
  let p := c.pwmPeriods d
  let j := if p.1 = 0 then 0 else min (n - 1) (cycle / p.1)
  (j, if j + 1 = n then p.2 else p.1, cycle - j * p.1)

/-- The compares in force in a period: those latched at cycle 1,280 from the first period that starts after it (R18, R36). -/
def Chip.legsAt (c : Chip) (d : DoorId) (period : Nat) : Vector Leg 3 :=
  let p := (c.pwmPeriods d).1
  if 1280 < period * p then (c.doors[d.val]).legsNext else (c.doors[d.val]).legs

/-- The gate outputs of a door are driven: RUN, its car's islands on, DOOREN high, and the door in use and not in FAULT (R23, R272, R274,
R291, Table 4-5). -/
def Chip.gatesDriven (c : Chip) (d : DoorId) : Bool :=
  c.running && (c.enables (carOfDoor d)).getLsbD 2 && (c.doors[d.val]).inUse && (c.doors[d.val]).st ≠ .fault

/-- A running disruptive test of a car. -/
def Chip.testOf (c : Chip) (code : Byte) (k : CarId) : Option ActiveTest := c.dev.tests.find? fun t => t.code = code && t.car = k

/-- The gate of a door that the gate driver test drives high alone in a cycle: from the start of the tick after its acceptance on, UH to WL
of the front door and then of the rear door, 64 cycles each; behind that both gates of each leg are commanded, and the hardware interlock
holds them low (R295) (DESIGN CHOICE, log entry 33). -/
def Chip.testGate (c : Chip) (d : DoorId) (cycle : Nat) : Option Nat :=
  match c.testOf 0x11 (carOfDoor d) with
  | none => none
  | some t =>
    let start := (t.start.toNat + 1) * c.lnk.ticklen.toNat + 384 * (d.val % 2)
    let o := c.now cycle - start
    if c.running && (c.doors[d.val]).inUse && decide (start ≤ c.now cycle) && decide (o < 384) then some (o / 64) else none

/-- The gates of the three legs of a door, high side and low side of U, V and W, in a cycle of the tick; high impedance with VIO absent
(R273, R274, R280, R295, Table 4-5). -/
def Chip.gateOutputs (c : Chip) (d : DoorId) (cycle : Nat) : Option (Vector (Bool × Bool) 3) :=
  c.viaVio (match c.testGate d cycle with
    | some g => (Vector.ofFn fun n : Fin 3 => (decide (g = 2 * n.val), decide (g = 2 * n.val + 1)))
    | none =>
      if c.gatesDriven d then
        let at_ := c.pwmAt d cycle
        (c.legsAt d at_.1).map fun x => x.gates (c.doors[d.val]).act.deadt.toNat at_.2.1 at_.2.2
      else Vector.replicate 3 (false, false))

/-! ### Drive port (R265, R266) -/

/-- The ten bits of a character: start 0, the data least significant bit first, stop 1 (R265). -/
def characterBits (b : Byte) : List Bool := false :: ((List.range 8).map fun i => b.getLsbD i) ++ [true]

/-- A drive port pair: from 50 cycles before the start bit of the car's own frame driven to 1, then 120 bits of 50 cycles from cycle 1,280
of the launch tick; otherwise high impedance (R18, R265, R266, Tables 4-5 and 19-16). -/
def Chip.drivePort (c : Chip) (k : CarId) (cycle : Nat) : Option Bool :=
  let x := c.cars[k.val]
  match x.dpStart with
  | none => none
  | some t =>
    let start := t.toNat * c.lnk.ticklen.toNat + 1280
    if !c.running || !x.on || c.now cycle + 50 < start then none
    else if c.now cycle < start then some true
    else (x.command.flatMap characterBits)[(c.now cycle - start) / 50]?

/-! ### Feedback outputs (R227, R229) -/

/-- The SSI clock of an interface: from the start of a read B periods of DIV cycles, each low for the first half rounded up; otherwise
high (R229, Table 4-5). -/
def Chip.ssiClock (c : Chip) (i : FbkId) (cycle : Nat) : Option Bool :=
  c.viaVio (match (c.fbks[i.val]).ssiRead with
  | none => true
  | some r =>
    let o := c.now cycle - r.start.toNat * c.lnk.ticklen.toNat
    let div := ssiPeriod r.ssi
    !(c.running && decide (o < ssiClocks r.ssi * div) && decide (o % div < (div + 1) / 2)))

/-- The repeat outputs A, B of an interface in a cycle: their phase, held in TRIPPED and low in every state before RUN (R227, Table
4-5). -/
def Chip.repeatOutputs (c : Chip) (i : FbkId) (cycle : Nat) : Option (BitVec 2) :=
  c.viaVio (if c.running || c.dev.state = .tripped then
    match ((c.fbks[i.val]).repeatPhase (c.now cycle)).toNat with
    | 0 => 0
    | 1 => 2
    | 2 => 3
    | _ => 1
  else 0)

/-! ### Excitation (R314, R315, R330) -/

/-- The excitation in nV that the bridge excitation test drives on channel 4k of its car: off, 2.5 V, 5.0 V and 5.0 V reversed, for 128
ticks each (R330, Table 15-4) (DESIGN CHOICE, log entry 33). -/
def Chip.testExcitation (c : Chip) (x : FeId) : Option Int :=
  if x.val % 4 ≠ 0 then none
  else (c.testOf 0x12 (carOfFe x)).map fun t =>
    ([0, 2500000000, 5000000000, -5000000000] : List Int).getD (min 3 ((c.dev.tick - t.start).toNat / 128)) 0

/-- The bridge excitation of a channel in nV, reversed in the second half of each chopper period with AC; off where the channel does not
convert, high impedance in DARK; an excitation test drives its own levels (R314, R316, R330, Table 4-5). -/
def Chip.excitation (c : Chip) (x : FeId) (cycle : Nat) : Option Int :=
  let q := (c.fes[x.val]).act
  if c.dev.state = .dark then none
  else if !c.converts x then some 0
  else match c.testExcitation x with
  | some v => some v
  | none => some (if q.ac && c.now cycle / 8192 % 2 = 1 then -q.levelNv else q.levelNv)

/-- The IX current code of a channel: the source is on for an RTD or an NTC that converts, high impedance in DARK (R314, R315, Table
4-5). -/
def Chip.ixCode (c : Chip) (x : FeId) : Option (BitVec 2) :=
  let q := (c.fes[x.val]).act
  if c.dev.state = .dark then none else some (if c.converts x && (q.type = .rtd || q.type = .ntc) then q.ix else 0)

/-- The burnout current of a channel is on (R315). -/
def Chip.burnout (c : Chip) (x : FeId) : Bool :=
  let q := (c.fes[x.val]).act
  c.converts x && q.type = .tc && q.burn

/-! ### Link lanes (R50, R51, R60) -/

/-- The four bits of an SCK cycle on the two lanes, in the order in which the stream takes them (R50). -/
structure LaneBits where
  lane0Rise : Bool
  lane1Rise : Bool
  lane0Fall : Bool
  lane1Fall : Bool
  deriving DecidableEq, Repr

/-- The stream bits of successive cycles (R50). -/
def laneStream (l : List LaneBits) : List Bool := l.flatMap fun x => [x.lane0Rise, x.lane1Rise, x.lane0Fall, x.lane1Fall]

/-- The lane bits of cycle n of a stream (R50). -/
def laneBitsAt (s : List Bool) (n : Nat) : Option LaneBits :=
  match s[4 * n]?, s[4 * n + 1]?, s[4 * n + 2]?, s[4 * n + 3]? with
  | some a, some b, some c, some d => some ⟨a, b, c, d⟩
  | _, _, _, _ => none

/-- The bits of a word, most significant first (R51). -/
def wordBits {w : Nat} (x : BitVec w) : List Bool := (List.range w).map fun i => x.getMsbD i

/-- The bits that an up slot drives, from its cycle 4 on (Table 3-5). -/
def Slot.bits (x : Slot) : List Bool :=
  wordBits x.sync ++ wordBits x.status ++ (x.results.flatMap Result.bytes).flatMap byteBits ++ x.stream.flatMap byteBits
    ++ (if x.odd then List.replicate 4 false else []) ++ wordBits x.crc

/-- The up lanes in a cycle counted from the start of the own slot: driven from cycle 4 to the slot's end, otherwise high impedance
(R60, R67, Table 4-5); without SCK too, once the gap detector has fired (R37). The slot starts at LNK_SLOTBASE moved by the launch offset, which `Slot.start` holds in 1/16 cycles. -/
def Chip.upLanes (c : Chip) (n : Nat) : Option LaneBits :=
  match c.lnk.slot with
  | none => none
  | some x => if c.dev.state = .dark || c.dev.state = .hunt || !c.lnk.sckRunning || n < 4 then none else laneBitsAt x.bits (n - 4)

/-- The number that bits spell, most significant first. -/
def bitsToNat (l : List Bool) : Nat := l.foldl (fun n b => 2 * n + b.toNat) 0

/-- A field of w bits at an offset of a stream; what the stream does not reach reads 0 (R51). -/
def fieldAt (s : List Bool) (start w : Nat) : BitVec w := BitVec.ofNat w (bitsToNat ((s.drop start).take w) <<< (w - (s.length - start)))

/-- The header of a down frame from its stream (Table 3-1). -/
def headerAt (s : List Bool) : Header :=
  ⟨fieldAt s 0 64, fieldAt s 64 40, fieldAt s 104 48, #v[fieldAt s 152 8, fieldAt s 160 8, fieldAt s 168 8, fieldAt s 176 8], fieldAt s 184 8,
    fieldAt s 192 16⟩

/-- The counts of n sections from a stream offset, and where the next one begins (R55). -/
def countsAt (s : List Bool) : Nat → Nat → List (BitVec 16) × Nat
  | 0, at_ => ([], at_)
  | n + 1, at_ =>
    let k : BitVec 16 := fieldAt s at_ 16
    let r := countsAt s n (at_ + 48 + 256 * k.toNat)
    (k :: r.1, r.2)

/-- A down frame as the device takes it from the stream of a tick: the header, the counts ahead, and the own section (R50, R51, R55). A
count above 20 makes the section bad, and no packet is read (R56). -/
def frameAt (drop : BitVec 2) (s : List Bool) : DownFrame :=
  let a := countsAt s drop.toNat 224
  let n : BitVec 16 := fieldAt s a.2 16
  let packets := if n.toNat ≤ 20 then (List.range n.toNat).map fun i => fieldAt s (a.2 + 16 + 256 * i) 256 else []
  ⟨headerAt s, a.1, n, packets, fieldAt s (a.2 + 16 + 256 * n.toNat) 32⟩

end Sys2Proof.Machine
end

