-- ==== Sys2Proof/WellFormed.lean ====
section
/-! DEFINITION. Which commands a sender may form: stamps inside the longest tick (R53), the fields that a row fixes (Table 8-1,
Table 8-2), addresses inside the memory that a command names (R342, R346), and outcomes that a step can have
(Table 4-3). A command that is not well formed still has a meaning; nothing rests on its being sent. -/

namespace Sys2Proof

/-- A cycle stamp lies inside the longest tick, 12,500 cycles (R53). -/
def cycleOk (c : BitVec 14) : Bool := decide (c.toNat < 12500)

/-- IMM as a register address: block and index (R182). -/
def addrIs (f : Enc) (block : BitVec 4) (index : BitVec 6) : Bool :=
  f.imm.extractLsb' 12 4 == block && f.imm.extractLsb' 6 6 == index

/-- IMM[n-1:0] is the row's code. -/
def lowIs (f : Enc) (n : Nat) (v : BitVec n) : Bool := f.imm.extractLsb' 0 n == v

/-- IMM[15] is the row's selector. -/
def bit15Is (f : Enc) (b : Bool) : Bool := f.imm.getLsbD 15 == b

/-- IMM[15:14] is the row's operation. -/
def top2Is (f : Enc) (v : BitVec 2) : Bool := f.imm.extractLsb' 14 2 == v

/-- Every word that a scrub visit reports lies in its memory. -/
def ScrubErrors.inside (e : ScrubErrors) (words : Nat) : Bool :=
  e.single.all (fun a => decide (a.toNat < words)) && (e.double.all fun a => decide (a.toNat < words))
    && (e.verifyFail.all fun a => decide (a.toNat < words))

/-- The words of the scrubbed memories: data RAM, program store, cam tables (R342). -/
def scrubSize (m : Fin 3) : Nat := match m with
  | 0 => 49152
  | 1 => 65536
  | 2 => 8192

/-- A write outcome names one of the seventeen words of a record and its slot header (R351). -/
def RecordWrite.inside : RecordWrite → Bool
  | .verified => true
  | .verifyFail i _ _ => decide (i.toNat < 17)
  | .interrupted i => decide (i.toNat < 17)

/-- The device test that can fail in an admission step is one that the step runs (Table 4-3). -/
def StepTest.fits : StepTest → Fin 5 → Bool
  | .passed, _ => true
  | .islandTest _ _, n => n == 0 || n == 1 || n == 4
  | .eccDouble _ _, n => n == 0 || n == 1 || n == 2
  | .journalFault .., n => n == 3

/-- A sender may form the command. -/
def Instr.wf : Instr → Bool
  | .add _ _ => true
  | .sub _ _ => true
  | .and _ _ => true
  | .or _ _ => true
  | .xor _ _ => true
  | .shl _ _ => true
  | .shr _ _ => true
  | .sar _ _ => true
  | .mul _ _ => true
  | .mac _ _ => true
  | .sat _ _ => true
  | .cmp _ _ => true
  | .ldi _ _ => true
  | .ldih _ f => f.m == 3
  | .ld _ _ => true
  | .st _ _ => true
  | .br _ _ => true
  | .call _ _ => true
  | .ret _ _ => true
  | .yield _ _ => true
  | .wait _ _ => true
  | .assert _ _ => true
  | .get _ _ => true
  | .put _ _ => true
  | .move _ _ => true
  | .moveq _ _ => true
  | .stop _ _ => true
  | .stopat _ _ => true
  | .resume _ _ => true
  | .flush _ _ => true
  | .limit _ _ => true
  | .camsetEngage _ f => f.imm.getLsbD 12
  | .camsetRelease _ f => !f.imm.getLsbD 12
  | .home _ _ => true
  | .islandOn _ f => f.imm.getLsbD 8
  | .islandOff _ f => !f.imm.getLsbD 8
  | .selftestRamScrub _ f => lowIs f 8 0x01
  | .selftestProgScrub _ f => lowIs f 8 0x02
  | .selftestReference _ f => lowIs f 8 0x03
  | .selftestEntropy _ f => lowIs f 8 0x04
  | .selftestEnablePulse _ f => lowIs f 8 0x10
  | .selftestGateDriver _ f => lowIs f 8 0x11
  | .selftestBridgeExcitation _ f => lowIs f 8 0x12
  | .callset _ _ => true
  | .callclr _ _ => true
  | .nextstop _ _ => true
  | .reach _ _ => true
  | .deoreq _ _ => true
  | .crcjob _ _ => true
  | .calZero _ f => f.imm.extractLsb' 8 2 == 0#2
  | .calSpan _ f => f.imm.extractLsb' 8 2 == 1#2
  | .trace _ _ => true
  | .log _ _ => true
  | .streamNone _ f => lowIs f 3 0
  | .streamReplay _ f => lowIs f 3 1
  | .streamTrace _ f => lowIs f 3 2
  | .streamJournal _ f => lowIs f 3 3
  | .chal _ _ => true
  | .sessionOpen _ f => bit15Is f false
  | .sessionClose _ f => bit15Is f true
  | .tbledit _ _ => true
  | .tblpress _ _ => true
  | .keysetPart0 _ f => bit15Is f false
  | .keysetPart1 _ f => bit15Is f true
  | .starch _ _ => true
  | .unstarch _ _ => true
  | .ploadBegin _ f => top2Is f 0
  | .ploadData _ f => top2Is f 1
  | .ploadSeal _ f => top2Is f 2
  | .darn _ _ => true
  | .devAdmitGo _ f => addrIs f 0x0 0x08
  | .keeperReadmit _ f => addrIs f 0x0 0x08
  | .pwrIslandreqWrite _ f => addrIs f 0xD 0x01
  | .secZeroize _ f => addrIs f 0x2 0x17
  | .seatUnlock _ f => addrIs f 0x2 0x00
  | .keeperSecWrite _ _ => true
  | .securemaskWrite _ f => addrIs f 0x2 0x11
  | .tapctlWrite _ f => addrIs f 0x2 0x16
  | .spsPut _ _ => true
  | .threadRestartCmd _ f => addrIs f 0x3 0x00
  | .threadHaltCmd _ f => addrIs f 0x3 0x00
  | .carReqOut _ f => addrIs f 0x4 0x00
  | .carReqIn _ f => addrIs f 0x4 0x00
  | .carReqInspect _ f => addrIs f 0x4 0x00
  | .carReqClear _ f => addrIs f 0x4 0x00
  | .landingTableLoad _ f => addrIs f 0x4 0x07
  | .scheduleLoad _ f => addrIs f 0x4 0x1B
  | .doorReqReopen _ f => addrIs f 0x5 0x00
  | .doorReqNudge _ f => addrIs f 0x5 0x00
  | .doorReqClear _ f => addrIs f 0x5 0x00
  | .sintabWrite _ f => addrIs f 0x5 0x1B
  | .learnGo _ f => addrIs f 0x5 0x1F
  | .camselHalf0 _ f => addrIs f 0x8 0x0C
  | .camselHalf1 _ f => addrIs f 0x8 0x0C
  | .loopIreset _ f => addrIs f 0x7 0x00
  | .loopFaultClear _ f => addrIs f 0x7 0x00
  | .cmpbaseArm _ f => addrIs f 0x6 0x06
  | .polybaseLoad _ f => addrIs f 0x9 0x09
  | .crcValWrite _ f => addrIs f 0xB 0x03
  | .stickyClear _ f => addrIs f 0xA 0x0C
  | .registerWrite _ _ => true
  | .tickStart _ => true
  | .downFrame _ => true
  | .huntSyncLock _ => true
  | .upSlot _ => true
  | .linkDarkTrip cycle => cycleOk cycle
  | .slotDeferTrip cycle => cycleOk cycle
  | .eqTrial _ _ _ _ => true
  | .sckGapTrip cycle _ => cycleOk cycle
  | .sckResume => true
  | .enableDecay _ _ => true
  | .rstNAssert _ => true
  | .leaveDark _ _ _ => true
  | .supplyPorLoss _ _ => true
  | .supplyWarning _ _ => true
  | .supplyWarningClear _ _ _ => true
  | .brownoutTrip _ _ _ cycle => cycleOk cycle
  | .overtempTrip cycle => cycleOk cycle
  | .avsDecision => true
  | .lockstepTrip _ _ cycle => cycleOk cycle
  | .entropyInterval _ => true
  | .admissionStep n r => r.test.fits n
  | .enterRun => true
  | .islandPowerupStart => true
  | .islandPowerupDone _ _ => true
  | .sessionIdleTimeout _ => true
  | .sessionMaclimit _ => true
  | .seatLockout _ => true
  | .challengeExpiry _ => true
  | .witnessExpiry => true
  | .auditedChangeEffect => true
  | .threadSlot _ _ => true
  | .threadWake _ => true
  | .threadStall _ => true
  | .threadRestart _ => true
  | .threadHaltLimit _ => true
  | .profileAdvance _ => true
  | .moveTake _ => true
  | .homeReference _ => true
  | .quadEdge _ _ _ cycle => cycleOk cycle
  | .zIndex _ _ cycle => cycleOk cycle
  | .ssiReadStart _ _ => true
  | .ssiReadDone _ _ => true
  | .feedbackFault _ => true
  | .loopRun _ => true
  | .loopModelFault _ => true
  | .loopSatFault _ => true
  | .driveCommand _ => true
  | .driveReply _ _ => true
  | .driveReplyMissing _ => true
  | .driveportFault _ => true
  | .drivespeedFault _ => true
  | .carArrival _ => true
  | .runlimExpiry _ => true
  | .hallEdge _ _ _ cycle => cycleOk cycle
  | .commutationFault _ => true
  | .doorKeFault _ => true
  | .opentExpiry _ => true
  | .closetExpiry _ => true
  | .doorStall _ => true
  | .matrixEval _ => true
  | .readbackFault _ => true
  | .safePulseReadbackFault => true
  | .chopSample _ _ => true
  | .offsetTrim _ => true
  | .feResult _ => true
  | .referenceTrip r => cycleOk r.cycle
  | .calStart _ => true
  | .calDecide _ => true
  | .calTimeout _ => true
  | .scanJobStart => true
  | .scanJobDone => true
  | .scanJobTimeout => true
  | .scrubVisit m e => e.inside (scrubSize m)
  | .scrubPassEnd _ => true
  | .selftestComplete _ _ _ => true
  | .journalScrub e => e.inside 262144
  | .traceCaptureStart _ => true
  | .traceSample _ => true
  | .traceComplete _ => true
  | .traceTimeout _ => true
  | .journalRecordStart => true
  | .journalCommit w => w.inside
  | .ploadSealDone => true
  | .illegalPacket _ _ => true
  | .tapTck _ _ _ => true

end Sys2Proof
end

