-- ==== Sys2Proof/Safety.lean ====
section
/-! DEFINITION. The terms that the statements use: safe runs, when an instruction is ready to execute, and what the state is once
it has been answered. -/

namespace Sys2Proof

/-- The block has answered k commands without a stop (R9). -/
def runsFor (k : Nat) (s : Machine.State) : Prop := ∃ t, core.run k s = .next t

/-- Every car's enables are pumped only where the matrices of the last Close phase permit them (R307). -/
def enablesPermitted (s : Machine.State) : Prop :=
  ∀ k : CarId, (s.chip.cars[k.val]).ilk.pump &&& ~~~(s.chip.cars[k.val]).ilk.permit = 0

namespace Machine

/-! ### A thread instruction without a status -/

/-- A thread may execute an instruction of the given cycles now: the device runs, the thread is READY in its open slot with no
restart due, the instruction is in turn, the scan engine has met no uncorrectable word by its cycle, and the cycles fit the slot
(R20, R152, R338). -/
def SlotFits (t : ThreadId) (cycles : Nat) (s : State) : Prop :=
  s.chip.canRun t = true ∧ s.chip.scanFails (s.chip.cycleOf t 0 + 1) = false ∧ cycles ≤ (s.chip.threads[t.val]).slotLeft.toNat

/-- The state after a thread has spent the cycles in its turn and its registers have changed (R20, R152, R156). -/
def ranThread (t : ThreadId) (cycles : Nat) (f : Thread → Thread) (s : State) : State :=
  { s with chip := (s.chip.starts t cycles).modThread t f }

/-! ### A status instruction of either issuer -/

/-- The issuer as an instruction sees it: a thread, or the session, seat and CONF flag of a packet (R169). -/
def whoOf (i : Issuer) (s : State) : Who :=
  match i with
  | .thread t => .thread t
  | .host p =>
    .host (p.sid.setWidth 4)
      (match s.chip.sessionOf p.sid with
        | none => 7
        | some n => (s.chip.sec.sessions[n.val]).seat)
      (p.flags.getLsbD 0)

/-- The registers that an instruction reads: those of the thread, or operands A, B and C as W1 to W3 (R169). -/
def operandsOf (i : Issuer) (s : State) : Vector Word 16 :=
  match i with
  | .thread t => (s.chip.threads[t.val]).w
  | .host p => (Vector.replicate 16 (0 : Word)).set 1 p.a |>.set 2 p.b |>.set 3 p.c

/-- What an instruction sees. -/
def ctxOf (i : Issuer) (f : Enc) (s : State) : Ctx := ⟨whoOf i s, f, operandsOf i s⟩

/-- The device as an issued instruction finds it: the thread's cycles counted in its turn, or the packet taken from the section. -/
def found (i : Issuer) (cycles : Nat) (s : State) : Chip :=
  match i with
  | .thread t => s.chip.starts t cycles
  | .host _ => s.chip.modLnk fun l => { l with section_ := l.section_.tail }

/-- The device that the effect of an accepted instruction changes: as found, and for a packet with its cycles on the packet rung
and its sequence in the window (R110, R173). -/
def begun (i : Issuer) (cycles : Nat) (s : State) : Chip :=
  match i with
  | .thread _ => found i cycles s
  | .host p =>
    ((found i cycles s).modDev fun d => { d with hostCycles := d.hostCycles + BitVec.ofNat 16 cycles }).countGate p .evaluate

/-- An instruction reaches its refusals: in a thread its cycles fit the open slot and D is not 15 (R142, R152); from the host the
packet stands first in the section while the Host phase lasts, is well formed, passes R110 to an evaluation, fits the packet rung,
and the device state allows it (R11, R18, R59, R107, R110, R117, R173, Table 4-4). -/
def Ready (i : Issuer) (op : BitVec 6) (f : Enc) (cycles : Nat) (s : State) : Prop :=
  match i with
  | .thread t => SlotFits t cycles s ∧ f.d ≠ 15
  | .host p =>
    let c := s.chip
    let body := c.wireBody p (encWord op f)
    c.lnk.section_.head? = some (wirePacket p body) ∧ c.may .host = true ∧ c.dev.tripThisTick = false ∧ c.dev.hostStopped = false ∧
    p.kind = 1 ∧ p.flags &&& 0xFE = 0 ∧ (p.sid = 0 → p.flags.getLsbD 0 = false) ∧ f.d.toNat ≤ 3 ∧ f.a.toNat ≤ 3 ∧
    c.gate p body = .evaluate ∧ c.dev.hostCycles.toNat + cycles ≤ 256 ∧ ∀ x ∈ c.deviceChecks op f, x.1 = false

/-- The result words of an answer as they go on the wire: encrypted where the packet asked with CONF (R108, R169). -/
def sentBody (p : Packet) (ws : List (BitVec 4 × Word)) (c : Chip) : Block :=
  match c.sessionOf p.sid with
  | none => resultBody ws
  | some n =>
    if p.flags.getLsbD 0 then confBlock (c.sec.sessions[n.val]).kEncUp c.lnk.drop p.sid p.seq (resultBody ws) else resultBody ws

/-- The state once an instruction has taken effect with an answer: in a thread the registers written, the status in W15, Z, and
the next PC (R142); for the host the result packet in its position and the window entry of the packet (R58, R110). -/
def answered (i : Issuer) (r : Reply) (s : State) : State :=
  match i with
  | .thread t =>
    s.with r.mem (r.chip.modThread t fun x =>
      let y : Thread := { x with w := r.writes.foldl (fun w p => setReg w p.1 p.2) x.w }
      { y.setStatus r.status with pc := x.pc + 1 })
  | .host p =>
    let body := sentBody p r.writes s.chip
    let c := r.chip.answerPacket p r.status.code body
    s.with r.mem (match s.chip.sessionOf p.sid with
      | none => c
      | some n => c.modSession n fun x => x.close_ p r.status body)

/-- The state once a packet has been refused: its status with zero in the result bytes, and the window entry of its sequence (R58,
R110, R117). -/
def refusedPacket (p : Packet) (x : Status) (c : Chip) (s : State) : State :=
  let d := c.answerPacket p x.code 0
  s.act fun _ => match s.chip.sessionOf p.sid with
    | none => d
    | some n => d.modSession n fun y => y.close_ p x 0

/-- The immediate of a motion instruction names axis a, with its reserved bits 0, and the issuer may act on it: the MOVE right,
CARACT or ACT, the islands on, and the door in use (R184, R121, R272). -/
def ActsOnAxis (i : Issuer) (f : Enc) (cycles : Nat) (reserved : BitVec 16) (a : AxisId) (s : State) : Prop :=
  let c := found i cycles s
  let who := whoOf i s
  axisOperand who f.imm = some a ∧ f.imm &&& reserved = 0 ∧ c.lacks who 0 = false ∧ c.mayAct who (carOfAxis a) = true ∧
    (c.cars[(carOfAxis a).val]).on = true ∧ c.doorUnused a = false

/-- The immediate of a stop or interlock instruction names car k, and the issuer has the right, may act on or see the car, and its
islands are on (R187). -/
def ActsOnCar (i : Issuer) (f : Enc) (cycles : Nat) (right : Nat) (acts : Bool) (k : CarId) (s : State) : Prop :=
  let c := found i cycles s
  let who := whoOf i s
  carOperand who f.imm = some k ∧ c.lacks who right = false ∧ (if acts then c.mayAct who k else c.maySee who k) = true ∧
    (c.cars[k.val]).on = true

/-- A GET or PUT names a register that exists, with no stray field bits (R181, R182). -/
def Names (i : Issuer) (f : Enc) (r : RegRef) (s : State) : Prop :=
  regRef (whoOf i s) (operandsOf i s) f = some r ∧ regIllegal f = false ∧ regStray (operandsOf i s) f = false

/-- A PUT may write the register: the writer of R120 to R122 and R144, and the islands on where the register lies in one. -/
def MayPut (i : Issuer) (f : Enc) (r : RegRef) (s : State) : Prop :=
  Names i f r s ∧ (found i 4 s).putDenied (whoOf i s) r = false ∧ (found i 4 s).regDark r = false

/-- The value that a PUT writes. -/
def putValue (i : Issuer) (f : Enc) (s : State) : Word := regOf (operandsOf i s) f.d

/-- A credit for the items that a host packet puts into an engine queue; a thread's items hold none (R160). -/
def creditOf (i : Issuer) (c : Chip) : Option Nat :=
  match i with
  | .thread _ => none
  | .host _ => some c.nextCredit

/-- The device with the packet credit of an issuer taken (R161). -/
def withCredit (i : Issuer) (s : State) (c : Chip) : Chip :=
  match i with
  | .thread _ => c
  | .host _ => c.takeCredit (whoOf i s).sid (whoOf i s).seat

/-- The commands that may write a byte of a memory: ST, PUT for a cam table, the program load, and what runs an instruction of
any kind, a scan job or a journal record, recovers the journal, or cuts a record off (R352, R355). -/
def stores : Instr → Bool
  | .st _ _ | .put _ _ | .camselHalf0 _ _ | .camselHalf1 _ _ | .spsPut _ _ | .keeperSecWrite _ _ | .registerWrite _ _
  | .ploadData _ _ | .illegalPacket _ _ | .threadSlot _ _ | .scanJobDone | .auditedChangeEffect | .admissionStep _ _
  | .journalRecordStart | .journalCommit _ | .rstNAssert _ | .supplyPorLoss _ _ => true
  | _ => false

/-- Nothing in a list of conditions refuses. -/
def Clear (l : List (Bool × Status)) : Prop := ∀ x ∈ l, x.1 = false

/-! ### What an advance leaves -/

/-- The speed bound Vc of a move with a cap under working limits: the smaller of Vt and the cap, or Vt alone (R201). -/
def speedBoundOf (c : Chip) (l : Limits) (cap : Option Nat) : Int :=
  match cap with
  | none => l.vt
  | some v => min (l.vt : Int) (c.speedUnits v)

/-- One advance of R201 toward E, the choice of the step being that of `advanceFrame`: an axis at rest within 1 µm of E takes E and its
move ends, HELD where it still holds a target behind it; any other changes p, v and a by the step, turned back from the frame toward E
(R201, R202). -/
def AdvancedBy (l : Limits) (vc : Int) (x y : Axis) : Prop :=
  let gap := x.e.toInt - x.p.toInt
  let s := if gap ≠ 0 then gap.sign else if x.v.toInt ≠ 0 then -x.v.toInt.sign else 1
  let r := advanceFrame l vc (s * gap) (s * x.v.toInt) (s * x.a.toInt)
  let rests := x.v.toInt = 0 ∧ x.a.toInt = 0 ∧ s * gap < unit
  (rests → y.st = (if x.remain ≠ 0 then .held else .idle) ∧ y.p = x.e ∧ y.v = x.v ∧ y.a = x.a) ∧
  (¬ rests → y.st = x.st ∧ y.p = gen (x.p.toInt + s * r.1) ∧ y.v = gen (s * r.1) ∧ y.a = gen (s * r.2.1) ∧
    y.limited = (x.limited || r.2.2))

/-! ### What an event leaves -/

/-- A trip from ADMIT or RUN with its cause, syndrome and cycle: the outputs are harmless, and threads, axes, loops, the counts of
feedback, front ends, taps, the parameter set and the waiting records stay as they are (R81, R82). -/
def TrippedBy (cause : BitVec 5) (syndrome : Word) (cycle : BitVec 14) (s t : State) : Prop :=
  let c := s.chip
  let d := t.chip
  t.pending = s.pending ∧ t.mem = s.mem ∧ d.dev.state = .tripped ∧ d.dev.cause = cause ∧ d.dev.others = 0 ∧
  d.dev.syndrome = syndrome ∧ d.dev.tripAt = some (c.dev.tick, cycle) ∧ d.dev.tripThisTick = true ∧
  (∀ k : CarId, (d.cars[k.val]).ilk.permit = 0 ∧ (d.cars[k.val]).ilk.pump = 0 ∧ (d.cars[k.val]).service = (c.cars[k.val]).service) ∧
  (∀ n : DoorId, (d.doors[n.val]).legs = Vector.replicate 3 .low ∧ (d.doors[n.val]).st = (c.doors[n.val]).st) ∧
  d.devOk = d.viaVio false ∧ d.safePulse = d.viaVio false ∧
  (∀ (n : DoorId) (cycle : Nat), d.gateOutputs n cycle = d.viaVio (Vector.replicate 3 (false, false))) ∧
  d.pwr.vid = c.pwr.act.vboot ∧ d.threads = c.threads ∧ d.axes = c.axes ∧ d.loops = c.loops ∧
  d.fbks = vmap (fun _ (x : Fbk) => { x.holdRepeat (c.stamp cycle) with ssiRead := none }) c.fbks ∧ d.fes = c.fes ∧
  d.taps = c.taps ∧ d.sps = c.sps ∧ d.journal.queue = c.journal.queue

/-- Entry to DARK: no keyed session, no thread, no island, no move and no enable is left, and keys, table, seals, the parameter
set and the memories stand, but for the slot of a journal record that was being written (R72 to R74, R352). -/
def WentDark (s t : State) : Prop :=
  let c := s.chip
  let d := t.chip
  t.pending = s.pending ∧ (c.journal.writing = none → t.mem = s.mem) ∧ t.mem.ram = s.mem.ram ∧ t.mem.prog = s.mem.prog ∧
  t.mem.cam = s.mem.cam ∧ d.dev.state = .dark ∧ d.dev.cause = 0 ∧ d.dev.go = false ∧
  (∀ n : SessionId, n.val ≠ 0 → (d.sec.sessions[n.val]).isOpen = false) ∧ (∀ n : ThreadId, d.threads[n.val] = Thread.init) ∧
  (∀ k : CarId, d.cars[k.val] = Car.init) ∧ (∀ a : AxisId, (d.axes[a.val]).queue = []) ∧ d.scan.queue = [] ∧ d.journal.queue = [] ∧
  d.lnk.section_ = [] ∧ d.sec.audits = [] ∧
  d.sec.keys = c.sec.keys ∧ d.sec.table = c.sec.table ∧ d.sec.sealSt = c.sec.sealSt ∧ d.sec.progSeal = c.sec.progSeal ∧ d.sps = c.sps

/-- A car fault from a service state other than ISLAND_OFF and STOPPED_FAULT: the cause, an empty stop table, and a STOP with the
discards of R212 for the car's axis; the other cars and axes and all doors stay as they are (R252, R254). -/
def CarStopped (k : CarId) (code : Nat) (s t : State) : Prop :=
  let c := s.chip
  let d := t.chip
  let a := carAxis k
  t.pending = s.pending ∧ t.mem = s.mem ∧ d.dev = c.dev ∧ d.sec = c.sec ∧ d.doors = c.doors ∧
  (d.cars[k.val]).service = .stoppedFault ∧ (d.cars[k.val]).faultActive = true ∧
  (d.cars[k.val]).faultCause = BitVec.ofNat 8 code ∧ (d.cars[k.val]).calls = [] ∧ (d.cars[k.val]).present = none ∧
  (d.cars[k.val]).pos = (c.cars[k.val]).pos ∧ (d.cars[k.val]).power = (c.cars[k.val]).power ∧
  (d.axes[a.val]).cmds = (c.axes[a.val]).cmds ++ [.purge, .stop] ∧
  (d.axes[a.val]).homed = (if code ≤ 3 then false else (c.axes[a.val]).homed) ∧
  (∀ j : CarId, j ≠ k → d.cars[j.val] = c.cars[j.val]) ∧ ∀ b : AxisId, b ≠ a → d.axes[b.val] = c.axes[b.val]

/-- A fault of one door: gates low, no learn, and the discards of R212 for its axis; every car, every other door and every other axis
stays as it is (R26, R291). -/
def DoorFaulted (n : DoorId) (code : Nat) (s t : State) : Prop :=
  let c := s.chip
  let d := t.chip
  let a := doorAxis n
  t.pending = s.pending ∧ t.mem = s.mem ∧ d.dev = c.dev ∧ d.sec = c.sec ∧ d.cars = c.cars ∧ (d.doors[n.val]).st = .fault ∧
  (d.doors[n.val]).faultActive = true ∧ (d.doors[n.val]).faultCause = BitVec.ofNat 8 code ∧
  (d.doors[n.val]).legs = Vector.replicate 3 .low ∧ (d.doors[n.val]).conf = (c.doors[n.val]).conf ∧ (d.doors[n.val]).learn = none ∧
  (d.axes[a.val]).cmds = (c.axes[a.val]).cmds ++ [.purge] ∧
  (∀ m : DoorId, m ≠ n → d.doors[m.val] = c.doors[m.val]) ∧ ∀ b : AxisId, b ≠ a → d.axes[b.val] = c.axes[b.val]

/-- A session has closed with its keys erased; every other session, the keys, the table and the seals stand (R114). -/
def SessionEnded (n : SessionId) (reason : Byte) (s t : State) : Prop :=
  let c := s.chip.sec
  let d := t.chip.sec
  t.pending = s.pending ∧ t.mem = s.mem ∧ d.sessions[n.val] = Session.init ∧
  (∀ m : SessionId, m ≠ n → d.sessions[m.val] = c.sessions[m.val]) ∧ d.keys = c.keys ∧ d.table = c.table ∧ d.sealSt = c.sealSt ∧
  t.chip.cars = s.chip.cars ∧ t.chip.threads = s.chip.threads ∧ t.chip.dev = s.chip.dev ∧
  (s.chip.journal.queue.length < s.chip.journal.places → (t.chip.journal.queue.map fun r => (r.type, r.body)) =
    (s.chip.journal.queue.map fun r => (r.type, r.body)) ++
      [(133, [BitVec.ofNat 8 n.val, (c.sessions[n.val]).seat.setWidth 8, reason])])

/-- The queue of commands, the device state, and all cars, doors, axes, sessions and parameters stay as they are. -/
def SameMachine (s t : State) : Prop :=
  let c := s.chip
  let d := t.chip
  t.pending = s.pending ∧ d.dev = c.dev ∧ d.cars = c.cars ∧ d.doors = c.doors ∧ d.axes = c.axes ∧ d.sec.sessions = c.sec.sessions ∧
    d.sps = c.sps

end Machine

end Sys2Proof
end

