-- ==== Sys2Proof/Certificates/Slice0/Obligations.lean ====
section
/-! DEFINITION. The statements about the model, each a proposition under Obligations. -/

open Sys2Proof Sys2Proof.Machine

/-! ### The machine as a whole -/

/-- A step runs the command at the front of the queue on the queue's rest. That an empty queue leaves the state alone is the
model's choice (log entry 2). -/
def Obligations.StepRunsFrontCommand : Prop :=
  ∀ (i : Instr) (rest : List Instr) (s : State),
    step { s with pending := i :: rest } = exec i { s with pending := rest } ∧ step { s with pending := [] } = .next { s with pending := [] }

/-- Reset leaves the block in HUNT with no trip standing, an empty queue, every thread UNUSED with cleared registers, every island
off with every car ISLAND_OFF, every axis OFF, no enable permitted or pumped, DEV_OK, SAFE_PULSE and all gates low, no drive port
driven, every SSI clock high, no keyed session open, and the memories in canonical form (R74, Table 4-5; log entries 1 and 6). -/
def Obligations.ResetLeavesHuntAndOutputsOff : Prop :=
  let c := State.reset.chip
  State.reset.pending = [] ∧ State.reset.mem.wf = true ∧ enablesPermitted State.reset ∧ c.dev.state = .hunt ∧ c.dev.cause = 0 ∧ c.dev.others = 0 ∧
  (∀ t : ThreadId, (c.threads[t.val]).st = .unused ∧ (c.threads[t.val]).w = Vector.replicate 16 0) ∧
  (∀ k : CarId, (c.cars[k.val]).power = .off ∧ (c.cars[k.val]).service = .islandOff ∧
    (c.cars[k.val]).ilk.permit = 0 ∧ (c.cars[k.val]).ilk.pump = 0) ∧
  (∀ a : AxisId, (c.axes[a.val]).st = .off ∧ (c.axes[a.val]).queue = []) ∧
  (∀ d : DoorId, (c.doors[d.val]).legs = Vector.replicate 3 .low) ∧
  c.devOk = some false ∧ c.safePulse = some false ∧ (∀ (k : CarId) (cycle : Nat), c.enables k = 0 ∧ c.drivePort k cycle = none) ∧
  (∀ (d : DoorId) (cycle : Nat), c.gateOutputs d cycle = some (Vector.replicate 3 (false, false))) ∧
  (∀ (i : FbkId) (cycle : Nat), c.ssiClock i cycle = some true) ∧
  ∀ n : SessionId, n.val ≠ 0 → (c.sec.sessions[n.val]).isOpen = false

/-- Every step keeps the canonical form of the four memories. -/
def Obligations.StepKeepsMemoryCanonical : Prop := ∀ s t : State, s.mem.wf = true → step s = .next t → t.mem.wf = true

/-- Every command is answered with a next state, and leaves the queue of waiting commands as it stands. For instructions this is R10; that
an event row commanded out of its place leaves the state as it was, and that nothing faults, is the model's choice (log entries 3 and
13). -/
def Obligations.CommandsCompleteAndKeepQueue : Prop := ∀ (i : Instr) (s : State), ∃ t, exec i s = .next t ∧ t.pending = s.pending

/-- In DARK, with no packet waiting and no audited change open, no command but LEAVE_DARK changes the device state, and nothing of the
two appears (R73). -/
def Obligations.DarkIsLeftByLeaveDarkAlone : Prop :=
  let quiet := fun (s : State) => s.chip.dev.state = .dark ∧ s.chip.lnk.section_ = [] ∧ s.chip.sec.audits = []
  ∀ (i : Instr) (s t : State), quiet s → (∀ r n d, i ≠ .leaveDark r n d) → exec i s = .next t → quiet t

/-- The commands that may write a byte of a memory: the stores of LD and ST's family, PUT for a cam table, program load, and what
runs an instruction of any kind, a scan job, or a record of the journal or its end. -/
def Obligations.MemoryChangesByStorersAlone : Prop :=
  ∀ (i : Instr) (s t : State), exec i s = .next t → stores i = false → ∀ a,
    t.mem.ram.read a = s.mem.ram.read a ∧ t.mem.prog.read a = s.mem.prog.read a ∧ t.mem.cam.read a = s.mem.cam.read a ∧
      t.mem.journal.read a = s.mem.journal.read a

/-- The refusal that is reported is the first applicable one in the order of R11, and none is where no condition holds; a duplicate
within the sequence window is answered with ECHO whatever else holds (R11, R110). -/
def Obligations.RefusalIsFirstOfOrder : Prop :=
  let order : List Status :=
    [.mac, .noSession, .replay, .illegal, .denied, .sealed_, .veiled, .range, .state, .unreach, .refused, .busy, .full, .fault]
  (∀ l : List (Bool × Status), (∀ x ∈ l, x.2 ∈ order) →
    (∀ s, refusal l = some s → (∃ x ∈ l, x.1 = true ∧ x.2 = s) ∧ ∀ x ∈ l, x.1 = true → order.idxOf s ≤ order.idxOf x.2) ∧
    (refusal l = none → ∀ x ∈ l, x.1 = false)) ∧
  (∀ (c : Chip) (p : Packet) (body answer : Block) (n : SessionId) (e : WinEntry), p.sid ≠ 0 → c.sessionOf p.sid = some n →
    (c.sec.sessions[n.val]).entry p.seq = some e → e.st = .effect answer → e.tag = p.tag → c.gate p body = .echo answer)

/-! ### Threads: ALU (R174, R176 to R178) -/

/-- ADD, SUB, AND, OR and XOR write D and the flags of R174, keep LIM, take one cycle and change nothing but their own thread; SHL, SHR
and SAR shift by B[4:0], with C the last bit shifted out, 0 for a shift of 0, and V cleared (Table 8-2). -/
def Obligations.AluResultsAndFlags : Prop :=
  (∀ (t : ThreadId) (f : Enc) (s : State), SlotFits t 1 s → operandBIllegal f = false →
     let done := fun (r : Word → Word → Word) (c v : Word → Word → Bool) => Host.Outcome.next (ranThread t 1 (fun x =>
       let a := regOf x.w f.a
       let b := operandB x.w f
       { x with
         w := setReg x.w f.d (r a b), pc := x.pc + 1,
         flags := { z := decide (r a b = 0), n := (r a b).msb, c := c a b, v := v a b, lim := x.flags.lim } }) s)
     exec (.add t f) s = done (· + ·) (fun a b => decide (2 ^ 32 ≤ a.toNat + b.toNat))
       (fun a b => decide ((a + b).toInt ≠ a.toInt + b.toInt)) ∧
     exec (.sub t f) s = done (· - ·) (fun a b => decide (a.toNat < b.toNat)) (fun a b => decide ((a - b).toInt ≠ a.toInt - b.toInt)) ∧
     exec (.and t f) s = done (· &&& ·) (fun _ _ => false) (fun _ _ => false) ∧
     exec (.or t f) s = done (· ||| ·) (fun _ _ => false) (fun _ _ => false) ∧
     exec (.xor t f) s = done (· ^^^ ·) (fun _ _ => false) (fun _ _ => false)) ∧
  (∀ (t : ThreadId) (f : Enc) (s : State), SlotFits t 1 s → operandBIllegal f = false →
     let done := fun (r : Word → Nat → Word) (c : Word → Nat → Bool) => Host.Outcome.next (ranThread t 1 (fun x =>
       let a := regOf x.w f.a
       let n := (operandB x.w f).toNat % 32
       { x with
         w := setReg x.w f.d (r a n), pc := x.pc + 1,
         flags := { z := decide (r a n = 0), n := (r a n).msb, c := decide (n ≠ 0) && c a n, v := false, lim := x.flags.lim } }) s)
     exec (.shl t f) s = done (fun a n => a <<< n) (fun a n => a.getLsbD (32 - n)) ∧
     exec (.shr t f) s = done (fun a n => a >>> n) (fun a n => a.getLsbD (n - 1)) ∧
     exec (.sar t f) s = done (fun a n => a.sshiftRight n) (fun a n => a.getLsbD (n - 1)))

/-- MUL, MAC and SAT with their clamps and LIM (R177); SAT leaves ACC. C and V are cleared. That LIM of MAC counts the clamp of the product
too is the model's choice (log entry 36). -/
def Obligations.MultiplyResults : Prop :=
  ∀ (t : ThreadId) (f : Enc) (s : State), operandBIllegal f = false →
    let done := fun (cycles : Nat) (op : Int → Int → Word → Int × Int × Bool) => Host.Outcome.next (ranThread t cycles (fun x =>
      let r := op x.acc.toInt (regOf x.w f.a).toInt (operandB x.w f)
      let d := BitVec.ofInt 32 r.2.1
      { x with
        acc := BitVec.ofInt 40 r.1, w := setReg x.w f.d d, pc := x.pc + 1,
        flags := { z := decide (d = 0), n := d.msb, c := false, v := false, lim := r.2.2 } }) s)
    (SlotFits t 2 s → exec (.mul t f) s = done 2 (fun _ a b =>
      let p := a * b.toInt
      (max (-2 ^ 39) (min (2 ^ 39 - 1) p), max (-2 ^ 31) (min (2 ^ 31 - 1) p), decide (p < -2 ^ 31 ∨ 2 ^ 31 - 1 < p)))) ∧
    (SlotFits t 2 s → exec (.mac t f) s = done 2 (fun acc a b =>
      let p := max (-2 ^ 39) (min (2 ^ 39 - 1) (a * b.toInt))
      let n := max (-2 ^ 39) (min (2 ^ 39 - 1) (acc + p))
      (n, max (-2 ^ 31) (min (2 ^ 31 - 1) n), decide (p ≠ a * b.toInt ∨ n ≠ acc + p ∨ n < -2 ^ 31 ∨ 2 ^ 31 - 1 < n)))) ∧
    (SlotFits t 1 s → f.a = 0 → exec (.sat t f) s = done 1 (fun acc _ b =>
      let n := min 39 (b.toNat % 64)
      let q := Int.fdiv (acc + (if n = 0 then 0 else 2 ^ (n - 1))) (2 ^ n)
      (acc, max (-2 ^ 31) (min (2 ^ 31 - 1) q), decide (q < -2 ^ 31 ∨ 2 ^ 31 - 1 < q))))

/-- CMP sets the flags of A - B and writes no register (Table 8-3). LDI loads D by its M and leaves the flags, with M = 11b keeping
D[15:0]; M = 00b or an A field that is not 0 is ILLEGAL, and LDIH is LDI with M = 11b (R178). -/
def Obligations.CompareAndLoadImmediate : Prop :=
  ∀ (t : ThreadId) (f : Enc) (s : State), SlotFits t 1 s →
    (operandBIllegal f = false → f.d = 0 → exec (.cmp t f) s = .next (ranThread t 1 (fun x =>
      let a := regOf x.w f.a
      let b := operandB x.w f
      { x with
        pc := x.pc + 1,
        flags := { z := decide (a = b), n := (a - b).msb, c := decide (a.toNat < b.toNat),
                   v := decide ((a - b).toInt ≠ a.toInt - b.toInt), lim := x.flags.lim } }) s)) ∧
    (f.m = 0 ∨ f.a ≠ 0 → exec (.ldi t f) s = .next (ranThread t 1 (fun x =>
      { x with faultPc := x.pc, faultCode := 2, mustRestart := true, slotLeft := 0 }) s)) ∧
    (f.m ≠ 0 → f.a = 0 → exec (.ldi t f) s = .next (ranThread t 1 (fun x =>
      { x with
        pc := x.pc + 1,
        w := setReg x.w f.d
          (if f.m = 1 then f.imm.signExtend 32 else if f.m = 2 then f.imm.setWidth 32 else f.imm ++ (regOf x.w f.d).extractLsb' 0 16) })
      s)) ∧
    exec (.ldih t f) s = exec (.ldi t { f with m := 3 }) s

/-- A thread instruction whose encoding breaks R172 faults with ILLEGAL: no effect but the fault record, the slot ends, and a restart
is due (R156). One that does not fit its slot ends the slot and does nothing else (R152). A packet with an instruction word that the
host may not send, or with a reserved opcode, that R110 lets be evaluated is answered ILLEGAL after 8 cycles on the packet rung and
changes nothing else but the session's window (R57, R110, R117, R170, R172). -/
def Obligations.IllegalEncodingsAreAnswered : Prop :=
  ((∀ (t : ThreadId) (f : Enc) (s : State),
      let faults := fun (cycles : Nat) => Host.Outcome.next (ranThread t cycles (fun x =>
        { x with faultPc := x.pc, faultCode := 2, mustRestart := true, slotLeft := 0 }) s)
      (SlotFits t 1 s → operandBIllegal f = true →
        exec (.add t f) s = faults 1 ∧ exec (.sub t f) s = faults 1 ∧ exec (.and t f) s = faults 1 ∧ exec (.or t f) s = faults 1 ∧
        exec (.xor t f) s = faults 1 ∧ exec (.shl t f) s = faults 1 ∧ exec (.shr t f) s = faults 1 ∧ exec (.sar t f) s = faults 1 ∧
        exec (.sat t f) s = faults 1 ∧ exec (.cmp t f) s = faults 1) ∧
      (SlotFits t 2 s → operandBIllegal f = true → exec (.mul t f) s = faults 2 ∧ exec (.mac t f) s = faults 2) ∧
      (SlotFits t 2 s → f.d = 15 → exec (.br t f) s = faults 2 ∧ exec (.call t f) s = faults 2) ∧
      (SlotFits t 1 s → f.d = 15 → exec (.assert t f) s = faults 1) ∧
      (SlotFits t 2 s → f.imm.getLsbD 15 = true → exec (.wait t f) s = faults 2)) ∧
   (∀ (t : ThreadId) (f : Enc) (s : State), SlotFits t 0 s →
      let ended : Out := .next { s with chip := s.chip.modThread t fun x => { x with slotLeft := 0 } }
      ((s.chip.threads[t.val]).slotLeft.toNat < 2 →
        exec (.mul t f) s = ended ∧ exec (.ld (.thread t) f) s = ended ∧ exec (.st (.thread t) f) s = ended ∧
        exec (.br t f) s = ended ∧ exec (.wait t f) s = ended) ∧
      ((s.chip.threads[t.val]).slotLeft.toNat < 4 → exec (.get (.thread t) f) s = ended ∧ exec (.put (.thread t) f) s = ended))) ∧
  (∀ (p : Packet) (word : Word) (s : State),
     let c := s.chip
     let body := c.wireBody p word
     let op := (opOf word).toNat
     (op < 0x10 ∨ (0x12 ≤ op ∧ op < 0x1C) ∨ op = 0x1E ∨ op = 0x1F ∨ op = 0x2B ∨ op = 0x3F) →
     c.lnk.section_.head? = some (wirePacket p body) → c.may .host = true → c.dev.hostStopped = false → c.gate p body = .evaluate →
     c.dev.hostCycles.toNat + 8 ≤ 256 →
     exec (.illegalPacket p word) s = .next (refusedPacket p .illegal (begun (.host p) 8 s) s))

/-- In a thread the instructions that only the host may issue are illegal encodings: the thread faults with ILLEGAL (R146, Table 7-5). -/
def Obligations.HostOnlyInstructionsFaultInThreads : Prop :=
  ∀ (t : ThreadId) (f : Enc) (s : State),
    let i : Issuer := .thread t
    let faults := fun (cycles : Nat) (c : Instr) => exec c s = .next (ranThread t cycles (fun x =>
      { x with faultPc := x.pc, faultCode := 2, mustRestart := true, slotLeft := 0 }) s)
    (SlotFits t 4 s → faults 4 (.streamNone i f) ∧ faults 4 (.streamReplay i f) ∧ faults 4 (.streamTrace i f) ∧
      faults 4 (.streamJournal i f)) ∧
    (SlotFits t 6 s → faults 6 (.islandOn i f) ∧ faults 6 (.islandOff i f)) ∧
    (SlotFits t 8 s → faults 8 (.tbledit i f) ∧ faults 8 (.starch i f) ∧ faults 8 (.unstarch i f) ∧ faults 8 (.ploadBegin i f) ∧
      faults 8 (.ploadData i f) ∧ faults 8 (.ploadSeal i f)) ∧
    (SlotFits t 12 s → faults 12 (.chal i f) ∧ faults 12 (.tblpress i f) ∧ faults 12 (.darn i f)) ∧
    (SlotFits t 24 s → faults 24 (.keysetPart0 i f) ∧ faults 24 (.keysetPart1 i f)) ∧
    (SlotFits t 40 s → faults 40 (.sessionOpen i f) ∧ faults 40 (.sessionClose i f))

/-! ### Threads: flow (R153, R154, R175, R180) -/

/-- BR, CALL and RET: the target where the condition holds, else the next word; CALL pushes the next word, RET pops. CALL with 8 return
addresses and RET with none fault with STACK; ASSERT of a false condition faults with ASSERT, and with a true one goes on (R175,
R180, Table 8-4). -/
def Obligations.BranchesCallsAndAsserts : Prop :=
  (∀ (t : ThreadId) (f : Enc) (s : State), SlotFits t 2 s →
     let target := fun (x : Thread) => if f.m = 0 then f.imm else (regOf x.w f.a).extractLsb' 0 16
     (f.d ≠ 15 → (f.m = 0 ∨ (f.m = 1 ∧ f.imm = 0)) →
       exec (.br t f) s = .next (ranThread t 2 (fun x =>
         { x with pc := if condHolds x.flags f.d then target x else x.pc + 1 }) s) ∧
       ((s.chip.threads[t.val]).stack.length < 8 → exec (.call t f) s = .next (ranThread t 2 (fun x =>
         if condHolds x.flags f.d then { x with pc := target x, stack := (x.pc + 1) :: x.stack } else { x with pc := x.pc + 1 }) s))) ∧
     (∀ p rest, f = ⟨0, 0, 0, 0⟩ → (s.chip.threads[t.val]).stack = p :: rest →
       exec (.ret t f) s = .next (ranThread t 2 (fun x => { x with pc := p, stack := rest }) s))) ∧
  (∀ (t : ThreadId) (f : Enc) (s : State),
     let faults := fun (cycles : Nat) (code : Byte) => Host.Outcome.next (ranThread t cycles (fun x =>
       { x with faultPc := x.pc, faultCode := code, mustRestart := true, slotLeft := 0 }) s)
     let x := s.chip.threads[t.val]
     (SlotFits t 2 s → f.d ≠ 15 → (f.m = 0 ∨ (f.m = 1 ∧ f.imm = 0)) → condHolds x.flags f.d = true → 8 ≤ x.stack.length →
       exec (.call t f) s = faults 2 3) ∧
     (SlotFits t 2 s → f = ⟨0, 0, 0, 0⟩ → x.stack = [] → exec (.ret t f) s = faults 2 3) ∧
     (SlotFits t 1 s → f.d ≠ 15 → f.a = 0 → f.m = 0 → f.imm = 0 →
       (condHolds x.flags f.d = false → exec (.assert t f) s = faults 1 5) ∧
       (condHolds x.flags f.d = true → exec (.assert t f) s = .next (ranThread t 1 (fun x => { x with pc := x.pc + 1 }) s))))

/-- YIELD ends the slot. WAIT with a pending event of its mask clears the matched bits, writes them to W15 and goes on; without
one the thread becomes WAITING with its mask and deadline and its slot ends (R153, R154, R180). That THR_PC shows the next
instruction while WAITING is the model's reading (log entry 42). -/
def Obligations.YieldAndWait : Prop :=
  ∀ (t : ThreadId) (f : Enc) (s : State),
    let mask : BitVec 16 := f.imm &&& 0xFFFE
    let count := regOf (s.chip.threads[t.val]).w f.a
    let matched := (s.chip.threads[t.val]).pend &&& mask
    (SlotFits t 1 s → f = ⟨0, 0, 0, 0⟩ →
      exec (.yield t f) s = .next (ranThread t 1 (fun x => { x with pc := x.pc + 1, slotLeft := 0, progressed := true }) s)) ∧
    (SlotFits t 2 s → f.d = 0 → f.m = 0 → f.imm.getLsbD 14 = false → f.imm.getLsbD 15 = false → (mask ≠ 0 ∨ count ≠ 0) →
      (matched ≠ 0 → exec (.wait t f) s = .next (ranThread t 2 (fun x =>
        { x with
          pc := x.pc + 1, st := .ready, pend := x.pend &&& ~~~matched, w := setReg x.w 15 (matched.setWidth 32), deadline := none,
          progressed := true }) s)) ∧
      (matched = 0 → exec (.wait t f) s = .next (ranThread t 2 (fun x =>
        { x with
          pc := x.pc + 1, st := .waiting, mask := mask, slotLeft := 0, progressed := true,
          deadline := if count = 0 then none else some (s.chip.dev.tick + count.setWidth 48) }) s)))

/-! ### Data RAM (R147 to R149, R179) -/

/-- LD in a thread reads the data RAM word, little-endian, as it stood before the cycle of the LD, or the program store word, and
changes nothing but its thread. ST in a thread writes the four bytes of W(D), little-endian, at W(A) + IMM, where no write of a later
cycle or of a higher cluster in the same cycle stands there, leaves every other byte of the memories, and rings the doorbell where it
stores to one. A bad address faults with BOUNDS and stores nothing (R20, R147, R148, R179). LD and ST of the host reach the aligned
words of the doorbell and mailbox regions alone: with the THR read or write bit LD answers with the word and ST writes it and rings;
without it the answer is DENIED, and at any other address RANGE. A word that SECDED cannot correct trips ECC_DOUBLE in place of the
load (R149). That the host's LD is then answered STATE, and that W(A) + IMM wraps modulo 2^32, is the model's choice (log entries 34 and
100). -/
def Obligations.LoadsAndStores : Prop :=
  ((∀ (t : ThreadId) (f : Enc) (s : State), SlotFits t 2 s →
      let c := found (.thread t) 2 s
      let at_ := c.cycleOf t 2
      let a := (regOf (s.chip.threads[t.val]).w f.a + f.imm.setWidth 32).toNat
      let gets := fun (m : Fin 6) (word : Nat) (v : Word) => Host.Outcome.next (s.act fun _ =>
        (c.noteReads m fun n => decide (n = word)).modThread t fun x => { x with w := setReg x.w f.d v, pc := x.pc + 1 })
      let trips := fun (m : Fin 6) (n : Nat) => Host.Outcome.next (s.act fun _ => c.eccFail m n (BitVec.ofNat 14 at_))
      (f.m = 0 → a < 0x30000 → a % 4 = 0 →
        (∀ n, c.badWord 0 (fun w => decide (w = a / 4)) = some n → exec (.ld (.thread t) f) s = trips 0 n) ∧
        (c.badWord 0 (fun w => decide (w = a / 4)) = none →
          ((∀ x ∈ s.chip.ramLog, x.addr ≠ a) → exec (.ld (.thread t) f) s = gets 0 (a / 4)
            (s.mem.ram.read (a + 3) ++ s.mem.ram.read (a + 2) ++ s.mem.ram.read (a + 1) ++ s.mem.ram.read a)) ∧
          (∀ w ∈ s.chip.ramLog, w.addr = a → w.cycle < at_ →
            (∀ x ∈ s.chip.ramLog, x.addr = a → x.cycle < at_ → x = w ∨ x.cycle < w.cycle) →
            exec (.ld (.thread t) f) s = gets 0 (a / 4) w.word))) ∧
      (f.m = 1 → s.mem.inImage a = true →
        (∀ n, c.badWord 1 (fun w => decide (w = a)) = some n → exec (.ld (.thread t) f) s = trips 1 n) ∧
        (c.badWord 1 (fun w => decide (w = a)) = none → exec (.ld (.thread t) f) s = gets 1 a (s.mem.progWord a))) ∧
      (((f.m = 0 ∧ (0x30000 ≤ a ∨ a % 4 ≠ 0)) ∨ (f.m = 1 ∧ s.mem.inImage a = false)) →
        exec (.ld (.thread t) f) s = .next (ranThread t 2 (fun x => x.fault 4) s))) ∧
   (∀ (t : ThreadId) (f : Enc) (s : State), SlotFits t 2 s → s.mem.wf = true → f.m = 0 →
      let c := found (.thread t) 2 s
      let at_ := c.cycleOf t 2
      let a := (regOf (s.chip.threads[t.val]).w f.a + f.imm.setWidth 32).toNat
      let v := regOf (s.chip.threads[t.val]).w f.d
      let mine : RamWrite := ⟨a, at_, (clusterOf t).1 + 1, v⟩
      (a < 0x30000 → a % 4 = 0 → threadMayWrite t a = true →
        ∃ u, exec (.st (.thread t) f) s = .next u ∧ u.pending = s.pending ∧
          u.chip.threads = (((c.modThread t fun x => { x with pc := x.pc + 1 }).ring a)).threads ∧ u.chip.dev = s.chip.dev ∧
          u.chip.ramLog = (c.logRam s.mem mine).ramLog ∧ mine ∈ u.chip.ramLog ∧
          ((∀ x ∈ s.chip.ramLog, x.addr = a → x.cycle < at_ ∨ (x.cycle = at_ ∧ x.cluster ≤ mine.cluster)) →
            ∀ n < 4, u.mem.ram.read (a + n) = v.extractLsb' (8 * n) 8) ∧
          (∀ w ∈ s.chip.ramLog, w.addr = a → (at_ < w.cycle ∨ (w.cycle = at_ ∧ mine.cluster < w.cluster)) →
            (∀ x ∈ s.chip.ramLog, x.addr = a → x = w ∨ x.cycle < w.cycle ∨ (x.cycle = w.cycle ∧ x.cluster < w.cluster)) →
            ∀ n < 4, u.mem.ram.read (a + n) = w.word.extractLsb' (8 * n) 8) ∧
          (∀ b, b < a ∨ a + 4 ≤ b → u.mem.ram.read b = s.mem.ram.read b) ∧
          u.mem.prog = s.mem.prog ∧ u.mem.cam = s.mem.cam ∧ u.mem.journal = s.mem.journal) ∧
      (0x30000 ≤ a ∨ a % 4 ≠ 0 ∨ threadMayWrite t a = false →
        exec (.st (.thread t) f) s = .next (ranThread t 2 (fun x => x.fault 4) s)))) ∧
  (∀ (p : Packet) (f : Enc) (s : State),
     let i : Issuer := .host p
     let a := memAddress (operandsOf i s) f
     let seat := (whoOf i s).seat
     let refused := fun (x : Status) => Host.Outcome.next (refusedPacket p x (begun i 2 s) s)
     (f.m = 1 → Ready i 0x10 f 2 s → s.chip.classBit seat 6 0 = true → exec (.ld i f) s = refused .range) ∧
     (f.m = 0 →
      (Ready i 0x10 f 2 s →
        (s.chip.classBit seat 6 0 = false → exec (.ld i f) s = refused .denied) ∧
        (s.chip.classBit seat 6 0 = true → hostMayAccess a = false → exec (.ld i f) s = refused .range) ∧
        (s.chip.classBit seat 6 0 = true → hostMayAccess a = true →
          let here := fun n => decide (n = a / 4)
          (s.chip.badWord 0 here = none → exec (.ld i f) s = .next (answered i
            ⟨.done, [(f.d, s.mem.ram.readLE a)], [], (begun i 2 s).noteReads 0 here⟩ s)) ∧
          (∀ n, s.chip.badWord 0 here = some n → exec (.ld i f) s = .next (refusedPacket p .state
            ((begun i 2 s).eccFail 0 n (BitVec.ofNat 14 ((begun i 2 s).startedAt (whoOf i s) 2))) s)))) ∧
      (Ready i 0x11 f 2 s →
        (s.chip.classBit seat 6 1 = false → exec (.st i f) s = refused .denied) ∧
        (s.chip.classBit seat 6 1 = true → hostMayAccess a = false → exec (.st i f) s = refused .range) ∧
        (s.chip.classBit seat 6 1 = true → hostMayAccess a = true →
          exec (.st i f) s = .next (answered i ⟨.done, [], [.ram a (regOf (operandsOf i s) f.d)], (begun i 2 s).ring a⟩ s))))) ∧
  (∀ (w : Vector Word 16) (f : Enc), hostMayAccess (memAddress w f) = true ↔
    memAddress w f < 0x30000 ∧ memAddress w f % 4 = 0 ∧ 0xA000 ≤ memAddress w f % 0xC000)

/-! ### Register access (R181 to R183) -/

/-- GET writes W(D) with the register as the issuer may see it, and changes nothing else but the answer. -/
def Obligations.GetReadsRegister : Prop :=
  ∀ (i : Issuer) (f : Enc) (s : State) (r : RegRef), Ready i 0x1C f 4 s → Names i f r s →
    let c := found i 4 s
    let who := whoOf i s
    c.regDenied who r false = false → r.veiled (c.whoLevel who) (c.whoSecured who) = false → c.regDark r = false →
    exec (.get i f) s = .next (answered i ⟨.done, [(f.d, (begun i 4 s).readReg who (c.whoLevel who) r)], [], begun i 4 s⟩ s)

/-- A GET or PUT that names no register, and a motion instruction that names no axis, is answered with RANGE, and in a thread changes
only the status, Z and the PC (R10, R142, R181, R184). So is a GET or PUT that names a register with a field beside it that must be 0; but
where the thread may not read or write that register it is DENIED first (R11, R172). -/
def Obligations.UnnamedOperandIsRange : Prop :=
  (∀ (t : ThreadId) (f : Enc) (s : State), SlotFits t 4 s → f.d ≠ 15 → regIllegal f = false →
     regRef (.thread t) (s.chip.threads[t.val]).w f = none →
     let refused : Out := .next (ranThread t 4 (fun x =>
       { x with w := setReg x.w 15 0x40, flags := { x.flags with z := false }, pc := x.pc + 1 }) s)
     exec (.get (.thread t) f) s = refused ∧ exec (.put (.thread t) f) s = refused) ∧
  (∀ (t : ThreadId) (f : Enc) (s : State) (r : RegRef), SlotFits t 4 s → f.d ≠ 15 → regIllegal f = false →
     regRef (.thread t) (s.chip.threads[t.val]).w f = some r →
     (f.m.toNat < 2 ∧ immBits f.imm 0 6 ≠ 0) ∨ (f.m = 1 ∧ 128 ≤ (regOf (s.chip.threads[t.val]).w f.a).toNat) →
     let c := found (.thread t) 4 s
     let refused := fun (x : Status) => Host.Outcome.next (ranThread t 4 (fun y =>
       { y with w := setReg y.w 15 (x.code.setWidth 32), flags := { y.flags with z := false }, pc := y.pc + 1 }) s)
     exec (.get (.thread t) f) s = refused (if c.regDenied (.thread t) r false then .denied else .range) ∧
     exec (.put (.thread t) f) s = refused (if c.putDenied (.thread t) r then .denied else .range)) ∧
  (∀ (t : ThreadId) (f : Enc) (s : State), f.d = 0 → f.a = 0 → f.m = 0 → axisOperand (.thread t) f.imm = none →
     let refused := fun (cycles : Nat) => Host.Outcome.next (ranThread t cycles (fun x =>
       { x with w := setReg x.w 15 0x40, flags := { x.flags with z := false }, pc := x.pc + 1 }) s)
     (SlotFits t 6 s → exec (.move (.thread t) f) s = refused 6 ∧ exec (.home (.thread t) f) s = refused 6 ∧
       exec (.limit (.thread t) f) s = refused 6) ∧
     (SlotFits t 4 s → exec (.stop (.thread t) f) s = refused 4 ∧ exec (.resume (.thread t) f) s = refused 4 ∧
       exec (.flush (.thread t) f) s = refused 4) ∧
     (SlotFits t 8 s → exec (.stopat (.thread t) f) s = refused 8))

/-! ### Motion instructions (R184 to R186, R203 to R215) -/

/-- An accepted MOVE, MOVEQ or HOME enters the move queue of its axis and is answered QUEUED; a host's holds a packet credit
(R159, R161, R186, R205, R215, R282, R286). -/
def Obligations.MoveInstructionsEnqueue : Prop :=
  ∀ (i : Issuer) (f : Enc) (s : State) (a : AxisId), ActsOnAxis i f 6 0xFF80 a s →
    let c := found i 6 s
    let who := whoOf i s
    let target := regOf (operandsOf i s) f.d
    let capW := regOf (operandsOf i s) f.a
    let home : Homing := c.homingOf a
    let queued := fun (kind : MoveKind) (target : Word) (cap : Option Word) =>
      Host.Outcome.next (answered i (reply .queued ((withCredit i s (begun i 6 s)).modAxis a fun x =>
        { x with queue := x.queue ++ [⟨kind, target, cap, creditOf i (begun i 6 s)⟩] })) s)
    c.axisFault a = false → c.limitsZero a = false → c.doorUnready a = false → c.movesFull who a = false →
    ((f.m = 0 ∧ f.a = 0) ∨ f.m = 1 → c.inRange a target = true → (f.m = 1 → 0 ≤ capW.toInt) → c.serviceIn a [.inspect, .in_] = true →
      c.noRange a = false → (c.axes[a.val]).homed = true → c.doorBusy a = false →
      let cap := if f.m = 1 ∧ capW ≠ 0 then some capW else none
      (Ready i 0x20 f 6 s → exec (.move i f) s = queued .move target cap) ∧
      (Ready i 0x21 f 6 s → 12 ≤ a.val → (c.axes[a.val]).seam = true → exec (.moveq i f) s = queued .moveq target cap)) ∧
    (Ready i 0x28 f 6 s → f.d = 0 → f.a = 0 → f.m = 0 → c.homeUnsuited a = false → home.kind ≠ 0 →
      c.serviceIn a [.out, .inspect] = true → (a.val < 12 → c.testRunning (carOfAxis a) = false) →
      (∀ d, doorOfAxis a = some d → (c.axes[a.val]).projected.st = .idle ∧
        ((c.doors[d.val]).st = .closedLocked ∨ (c.doors[d.val]).st = .closed ∨ (c.doors[d.val]).st = .open_ ∨
          (c.doors[d.val]).st = .stopped)) →
      exec (.home i f) s = queued (.home home) 0 none)

/-- STOP, STOPAT, RESUME and the two forms of CAMSET are answered DONE and take their command to the next advance of the axis; FLUSH
empties the waiting queue of its axis and answers how many moves it dropped; LIMIT stores the limit it names (R185, R203, R204,
R206 to R209, R214, R258). -/
def Obligations.AxisCommandsAreAnswered : Prop :=
  (∀ (i : Issuer) (f : Enc) (s : State) (a : AxisId),
     let who := whoOf i s
     let w := regOf (operandsOf i s) f.d
     let k := carOfAxis a
     let sent := fun (cycles : Nat) (m : AxisCmd) =>
       Host.Outcome.next (answered i (reply .done ((begun i cycles s).modAxis a fun x => { x with cmds := x.cmds ++ [m] })) s)
     (Ready i 0x22 f 4 s → ActsOnAxis i f 4 0xFF80 a s → f.d = 0 → f.a = 0 → f.m = 0 → exec (.stop i f) s = sent 4 .stop) ∧
     (∀ l : Landing, Ready i 0x23 f 8 s → ActsOnAxis i f 8 0xFF80 a s → f.a = 0 → f.m = 0 →
       let c := found i 8 s
       let now := (c.axes[a.val]).projected
       a.val < 12 → (c.cars[k.val]).landing? w.toNat = some l → c.axisFault a = false →
       (c.secure w.toNat = true → c.whoSecured who = true) → (c.cars[k.val]).service = .in_ → now.st = .moving →
       (c.reachMask k).getLsbD w.toNat = true → 0 ≤ now.dir * (now.target.toInt - l.p.toInt) →
       exec (.stopat i f) s = sent 8 (.stopat (w.setWidth 7) l.p)) ∧
     (Ready i 0x24 f 4 s → ActsOnAxis i f 4 0xFF80 a s → f.d = 0 → f.a = 0 → f.m = 0 →
       let c := found i 4 s
       let now := (c.axes[a.val]).projected
       a.val < 12 → c.axisFault a = false → (c.cars[k.val]).service = .in_ → now.remain ≠ 0 → (now.st = .held ∨ now.st = .moving) →
       exec (.resume i f) s = sent 4 .resume) ∧
     (Ready i 0x27 (fix12 f false) 4 s → ActsOnAxis i (fix12 f false) 4 0xE080 a s → f.a = 0 → f.m = 0 → 12 ≤ a.val →
       exec (.camsetRelease i f) s = sent 4 .release) ∧
     (∀ d : DoorId, Ready i 0x27 (fix12 f true) 4 s → ActsOnAxis i (fix12 f true) 4 0xE080 a s → f.a = 0 → f.m = 0 →
       let c := found i 4 s
       let master := doorAxis (otherDoor d)
       let t := immBits f.imm 8 4
       let x := c.axes[a.val]
       let y := c.axes[master.val]
       a = doorAxis d → w = BitVec.ofNat 32 master.val → y.projected.engaged = none → s.mem.camShiftOk t = true →
       x.projected.st = .idle → x.projected.queue = [] → (y.st = .idle ∨ y.st = .held) → y.v = 0 → y.a = 0 →
       (x.projected.p.toInt - (s.mem.camOutput t y.p.toInt).1).natAbs < unit.natAbs →
       s.chip.badWord 2 (s.mem.camReads t y.p.toInt) = none →
       exec (.camsetEngage i f) s = .next (answered i (reply .done
         (((begun i 4 s).noteReads 2 (s.mem.camReads t y.p.toInt)).modAxis a fun x => { x with cmds := x.cmds ++ [.engage t master] })) s))) ∧
  (∀ (i : Issuer) (f : Enc) (s : State) (a : AxisId), f.a = 0 → f.m = 0 →
     (Ready i 0x25 f 4 s → ActsOnAxis i f 4 0xFF80 a s →
       exec (.flush i f) s = .next (answered i
         ⟨.done, [(f.d, BitVec.ofNat 32 ((begun i 4 s).axes[a.val]).queue.length)], [], (begun i 4 s).dropQueue a⟩ s)) ∧
     (Ready i 0x26 f 6 s → ActsOnAxis i f 6 0xFC80 a s →
       let lim := immBits f.imm 8 2
       let v := regOf (operandsOf i s) f.d
       v ≠ 0 → v.toNat ≤ (found i 6 s).axisBound a lim →
       exec (.limit i f) s = .next (answered i (reply .done ((begun i 6 s).modAxis a fun y => y.setLimit lim v)) s)))

/-! ### Islands and self-tests (R90 to R94, R190 to R194) -/

/-- ISLAND on queues the power-up of a car, ISLAND off asks for its switch-off or withdraws a waiting power-up (R90, R91, R190). The seven
self-tests: an accepted SELFTEST starts its test and is answered QUEUED; the enable pulse test also starts the steps of Table 14-3 on
the car's enables (R93, R194, R312). -/
def Obligations.IslandsAndSelftestsStart : Prop :=
  (∀ (p : Packet) (f : Enc) (s : State) (k : CarId),
     let i : Issuer := .host p
     let c := found i 6 s
     let x := c.cars[k.val]
     (immBits f.imm 0 4).toNat = k.val → f.imm &&& 0xFEF0 = 0 → f.d = 0 → f.a = 0 → f.m = 0 →
     c.lacks (whoOf i s) 10 = false → c.mayAct (whoOf i s) k = true → c.running = true →
     (Ready i 0x29 (fix8 f true) 6 s →
       (x.on = false → x.powerPending = false → x.rising = false → c.noCredit (whoOf i s) = false →
         exec (.islandOn i f) s = .next (answered i (reply .queued ((withCredit i s (begun i 6 s)).modCar k fun x =>
           { x with
             powerPending := true, powerFresh := true, powerCredit := creditOf i (begun i 6 s), islandReq := true })) s)) ∧
       (x.on = true → exec (.islandOn i f) s = .next (answered i (reply .done (begun i 6 s)) s))) ∧
     (Ready i 0x29 (fix8 f false) 6 s → x.rising = false → c.testRunning k = false →
       (x.powerPending = true →
         exec (.islandOff i f) s = .next (answered i (reply .done (((begun i 6 s).release x.powerCredit).modCar k fun x =>
           { x with powerPending := false, powerFresh := false, powerCredit := none, islandReq := false })) s)) ∧
       (x.powerPending = false → x.on = true → (x.service = .out ∨ x.service = .stoppedFault) →
         exec (.islandOff i f) s = .next (answered i (reply .done ((begun i 6 s).modCar k fun x =>
           { x with powerOff := true, islandReq := false })) s)))) ∧
  (∀ (i : Issuer) (f : Enc) (s : State) (k : CarId),
     let c := found i 6 s
     let who := whoOf i s
     let started := fun (code : Byte) => (withCredit i s (begun i 6 s)).modDev fun d =>
       { d with
         testCode := code, testCar := BitVec.ofNat 4 k.val,
         tests := d.tests ++ [⟨code, k, s.chip.dev.tick, creditOf i (begun i 6 s), []⟩] }
     let plain := fun (code : Byte) => Host.Outcome.next (answered i (reply .queued (started code)) s)
     f.d = 0 → f.a = 0 → f.m = 0 → immBits f.imm 12 4 = 0 → (immBits f.imm 8 4).toNat = k.val → c.noCredit who = false →
     (c.lacks who 11 = false → k.val = 0 →
       (Ready i 0x2A (fixLow f 8 0x01) 6 s → exec (.selftestRamScrub i f) s = plain 0x01) ∧
       (Ready i 0x2A (fixLow f 8 0x02) 6 s → exec (.selftestProgScrub i f) s = plain 0x02) ∧
       (Ready i 0x2A (fixLow f 8 0x03) 6 s → exec (.selftestReference i f) s = plain 0x03) ∧
       (Ready i 0x2A (fixLow f 8 0x04) 6 s → exec (.selftestEntropy i f) s = plain 0x04)) ∧
     (c.lacks who 12 = false → c.mayAct who k = true → (c.cars[k.val]).service = .out → c.testRunning k = false →
       (Ready i 0x2A (fixLow f 8 0x10) 6 s →
         exec (.selftestEnablePulse i f) s = .next (answered i (reply .queued ((started 0x10).modIlk k fun x =>
           { x with test := some ⟨1, 0, 0, 0, (s.chip.cars[k.val]).pos, none⟩ })) s)) ∧
       (Ready i 0x2A (fixLow f 8 0x11) 6 s → exec (.selftestGateDriver i f) s = plain 0x11) ∧
       (Ready i 0x2A (fixLow f 8 0x12) 6 s → (c.fes[(carFe k 0).val]).act.type = .bridge → (c.cals[k.val]).queue = [] →
         (c.cals[k.val]).running = none → exec (.selftestBridgeExcitation i f) s = plain 0x12)))

/-! ### Stops and interlock (R187 to R189) -/

/-- CALLSET and CALLCLR set and clear a call of the car's stop table and raise CALLS; a call already so is DONE with no effect. DEOREQ
replaces the three enable requests of a car (R187, R189, R193, R254). NEXTSTOP answers the next stop and its position, REACH the
reachable landings, both as the issuer may see them; neither changes the device (R188). -/
def Obligations.StopAndEnableInstructions : Prop :=
  ((∀ (i : Issuer) (f : Enc) (s : State) (k : CarId) (l : Landing), ActsOnCar i f 4 1 true k s →
      let c := found i 4 s
      let w := regOf (operandsOf i s) f.d
      let rear := f.imm.getLsbD 10
      let call : Call := ⟨w.setWidth 7, immBits f.imm 8 2, rear⟩
      let held := (c.cars[k.val]).calls.contains call
      f.a = 0 → f.m = 0 → f.imm &&& 0xF8B0 = 0 → call.kind ≠ 3 → (c.cars[k.val]).landing? w.toNat = some l →
      (if rear then l.rear else l.front) = true → (c.secure w.toNat = true → c.whoSecured (whoOf i s) = true) →
      (c.cars[k.val]).service = .in_ →
      (Ready i 0x2C f 4 s → exec (.callset i f) s = .next (answered i (reply .done
        (if held then begun i 4 s
          else ((begun i 4 s).modCar k fun x => { x with calls := call :: (c.cars[k.val]).calls }).raiseSee k 12)) s)) ∧
      (Ready i 0x2D f 4 s → exec (.callclr i f) s = .next (answered i (reply .done
        (if held then ((begun i 4 s).modCar k fun x => { x with calls := (c.cars[k.val]).calls.erase call }).raiseSee k 12
          else begun i 4 s)) s))) ∧
   (∀ (i : Issuer) (f : Enc) (s : State) (k : CarId), Ready i 0x30 f 3 s → ActsOnCar i f 3 2 true k s →
      f.d = 0 → f.a = 0 → f.m = 0 → f.imm &&& 0xF8B0 = 0 →
      exec (.deoreq i f) s = .next (answered i (reply .done ((begun i 3 s).modIlk k fun x => { x with req := immBits f.imm 8 3 })) s))) ∧
  (∀ (i : Issuer) (f : Enc) (s : State) (k : CarId), f.a = 0 → f.m = 0 → f.imm &&& 0xFFB0 = 0 →
     let who := whoOf i s
     (Ready i 0x2E f 8 s → ActsOnCar i f 8 1 false k s → f.d.toNat ≤ (if who.isHost then 2 else 13) →
       (found i 8 s).whoLevel who < 2 →
       let c := begun i 8 s
       exec (.nextstop i f) s = .next (answered i
         ⟨.done,
           (match c.nextStop k with
             | none => [(f.d, 0xFFFFFFFF), (f.d + 1, 0xFFFFFFFF)]
             | some j => [(f.d, BitVec.ofNat 32 (c.shownLanding who k j)),
                 (f.d + 1, BitVec.ofInt 32 ((c.cars[k.val]).landingPos (c.shownLanding who k j)))]), [], c⟩ s)) ∧
     (Ready i 0x2F f 12 s → ActsOnCar i f 12 1 false k s → f.d.toNat ≤ (if who.isHost then 0 else 11) →
       (found i 12 s).whoLevel who < 3 →
       let c := begun i 12 s
       let m := c.shownMask who (c.reachMask k)
       let shown : BitVec 128 := if 2 ≤ c.whoLevel who then BitVec.ofNat 128 (countBits m) else m
       exec (.reach i f) s = .next (answered i
         ⟨.done, (List.range 4).map fun n => (f.d + BitVec.ofNat 4 n, shown.extractLsb' (32 * n) 32), [], c⟩ s)))

/-! ### Engines (R159 to R162, R190, R195, R331, R337, R354, R365) -/

/-- CRCJOB, CAL, TRACE and LOG put their item at the end of their engine's queue and are answered QUEUED. -/
def Obligations.EngineInstructionsEnqueue : Prop :=
  ∀ (i : Issuer) (f : Enc) (s : State), f.m = 0 →
    let c := found i 6 s
    let who := whoOf i s
    let w := operandsOf i s
    let b := withCredit i s (begun i 6 s)
    let credit := creditOf i (begun i 6 s)
    let queued := fun (c : Chip) => Host.Outcome.next (answered i (reply .queued c) s)
    (Ready i 0x31 f 6 s →
      let ck : CkId := (immBits f.imm 0 3).toFin
      let space := immBits f.imm 4 2
      let a := (regOf w f.d).toNat
      let n := (regOf w f.a).toNat
      let q := (c.scan.cks[ck.val]).cfg
      let total := n + q.extraRead + q.appended
      space ≠ 3 → f.imm &&& 0xFFC8 = 0 → n ≠ 0 → a + total ≤ spaceSize space → (q.mode = 1 → space = 0) →
      (space = 0 → match who with
        | .host _ _ _ => hostScanRange a total = true
        | .thread t => ∀ j < q.appended, threadMayWrite t (a + n + j) = true) →
      c.lacks who 3 = false → c.queueFree .scan ≠ 0 → c.noCredit who = false →
      exec (.crcjob i f) s = queued { b with scan := { b.scan with
        queue := b.scan.queue ++ [⟨ck, q, space, BitVec.ofNat 18 a, BitVec.ofNat 19 n, who.producer, credit,
          (begun i 6 s).dev.tick, (begun i 6 s).startedAt who 6⟩],
        cks := upd b.scan.cks ck fun y => { y with space := space, start := BitVec.ofNat 18 a } } }) ∧
    (∀ ch : FeId, f.a = 0 → (immBits f.imm 0 6).toNat = ch.val → f.imm &&& 0xFCC0 = 0 →
      let k := carOfFe ch
      let ref := regOf w f.d
      let type := (c.fes[ch.val]).act.type
      let item := fun (span : Bool) => queued (b.modCal k fun g => { g with queue := g.queue ++ [⟨ch, span, ref, who.producer, credit⟩] })
      c.lacks who 4 = false → c.mayAct who k = true → (c.cars[k.val]).on = true → c.exciteTest k = false →
      c.queueFree (.cals k) ≠ 0 → c.noCredit who = false →
      (Ready i 0x32 (fixKind f 0) 6 s → ref = 0 → (type = .bridge ∨ type = .tc) → exec (.calZero i f) s = item false) ∧
      (Ready i 0x32 (fixKind f 1) 6 s → ref ≠ 0 → type = .bridge → exec (.calSpan i f) s = item true)) ∧
    (∀ src, Ready i 0x33 f 6 s → sourceOf (regOf w f.d) = some src → c.lacks who 5 = false →
      (∀ k, src.car = some k → c.maySee who k = true) → src.veiled (c.whoLevel who) (c.whoSecured who) = false →
      immBits f.imm 3 13 = 0 → slice (regOf w f.a) 16 4 = (0 : BitVec 4) →
      (trigMode (regOf w f.a) = 3 → src.car.isSome = true) → c.sourceDark src = false → c.queueFree .traces ≠ 0 →
      c.noCredit who = false →
      exec (.trace i f) s = queued { b with
        traceQueue := b.traceQueue ++ [⟨immBits f.imm 0 3, regOf w f.d, regOf w f.a, who.producer, BitVec.ofNat 2 (c.whoLevel who),
          c.whoSecured who, credit⟩] }) ∧
    (Ready i 0x34 f 6 s → f.a = 0 → f.d.toNat ≤ 12 → (who.isHost = true → f.d = 1) → c.lacks who 6 = false →
      f.imm.getLsbD 7 = false → immBits f.imm 8 8 = 0 → c.warning = false → c.journal.queue.length < 28 → c.noCredit who = false →
      c.journal.fault = false →
      exec (.log i f) s = queued (b.enqueueRecord (immBits f.imm 0 8)
        (match who with
          | .thread t => BitVec.ofNat 8 (0x80 + t.val)
          | .host sid seat _ => hostSource sid seat)
        (recordFlags false (f.imm.getLsbD 6) false false who.ownCar)
        (bytesBE (regOf w f.d) 4 ++ bytesBE (regOf w (f.d + 1)) 4 ++ bytesBE (regOf w (f.d + 2)) 4 ++
          bytesBE (match who with | .thread t => (c.threads[t.val]).pc | .host _ _ _ => (0 : BitVec 16)) 2) credit who.producer))

/-! ### Keys, sessions and seals (R96 to R135, R164, R165, R190, R195) -/

/-- CHAL in session 0 takes a challenge from the entropy buffer, holds it for the session and answers its sixteen bytes (R103). SESSION
with a proof that fits opens the session with the four keys derived from the seat's key, both nonces and the context, ends the
challenge, answers the device's nonce and proof, and journals the opening (R104, R105); with a proof that does not fit it ends the
challenge, counts against the seat and is answered MAC whatever else would refuse it (R11, R105, R112). SESSION closing asks for the
end of the session it came in at the end of the tick (R114). That the seat's key is read from the key store without an uncorrectable
word is a premise, log entry 34. -/
def Obligations.ChallengesAndSessions : Prop :=
  (∀ (p : Packet) (f : Enc) (s : State) (ch : Block) (rest : List Block),
     let i : Issuer := .host p
     let n : SessionId := (immBits f.imm 8 4).toFin
     Ready i 0x36 f 12 s → f.d = 0 → f.a = 0 → f.m = 0 → openingRange f.imm = false → (whoOf i s).sid = 0 →
     (s.chip.sec.sessions[n.val]).isOpen = false → s.chip.sec.entropyCause = 0 → s.chip.sec.entropyBuf = ch :: rest →
     exec (.chal i f) s = .next (answered i
       ⟨.done, [(0, ch.extractLsb' 96 32), (1, ch.extractLsb' 64 32), (2, ch.extractLsb' 32 32), (3, ch.extractLsb' 0 32)], [],
         (begun i 12 s).modSec fun x =>
           { x with
             entropyBuf := rest, challenges := upd (begun i 12 s).sec.challenges n fun _ => some ⟨ch, immBits f.imm 0 3, 0⟩ }⟩ s)) ∧
  (∀ (p : Packet) (f : Enc) (s : State), f.d = 0 → f.a = 0 → f.m = 0 →
     let i : Issuer := .host p
     let c := found i 40 s
     let b := begun i 40 s
     let who := whoOf i s
     let sid := immBits f.imm 8 4
     let n : SessionId := sid.toFin
     let seat := immBits f.imm 0 3
     let nh := p.a
     (∀ (j : Fin 7) (h : Challenge) (v : Block) (rest : List Block), Ready i 0x37 (fix15 f false) 40 s → seat.toNat = j.val →
       openingRange (fix15 f false).imm = false → who.sid = 0 → c.seatDenied j = false → c.challenge n = some h → h.seat = seat →
       c.sec.hasKey j = true → cmacTag (c.sec.keys[j.val]).key (proofInput c seat sid h.ch nh) = (p.b ++ p.c : Tag) →
       (c.sec.sessions[n.val]).isOpen = false → c.sec.entropyCause = 0 → c.sec.entropyBuf = v :: rest → c.seatSessions seat < 4 →
       c.journal.queue.length < c.journal.places → c.badWord 5 (sessionKeyWords seat) = none →
       let b := b.noteReads 5 (sessionKeyWords seat)
       let nn : BitVec 64 := v.extractLsb' 64 64
       let key := sessionKey b (c.sec.keys[j.val]).key seat sid h.ch nh nn
       let pd := deviceProof b (key 2) seat sid h.ch nh nn
       exec (.sessionOpen i f) s = .next (answered i
         ⟨.done, [(0, nn.extractLsb' 32 32), (1, nn.extractLsb' 0 32), (2, pd.extractLsb' 32 32), (3, pd.extractLsb' 0 32)], [],
           (b.modSec fun x =>
             { x with
               entropyBuf := rest, challenges := upd x.challenges n fun _ => none,
               sessions := upd x.sessions n fun _ =>
                 { Session.init with
                   isOpen := true, seat := seat, kMacDown := key 1, kMacUp := key 2, kEncDown := key 3, kEncUp := key 4,
                   nonce := nn.extractLsb' 32 32 } }).record 133 none [sid.setWidth 8, seat.setWidth 8, 0]⟩ s)) ∧
     (∀ (j : Fin 7) (h : Challenge), Ready i 0x37 (fix15 f false) 40 s → seat.toNat = j.val → c.challenge n = some h → h.seat = seat →
       c.sec.hasKey j = true → cmacTag (c.sec.keys[j.val]).key (proofInput c seat sid h.ch nh) ≠ (p.b ++ p.c : Tag) →
       c.badWord 5 (sessionKeyWords seat) = none →
       exec (.sessionOpen i f) s = .next (refusedPacket p .mac (b.modSec fun x =>
         { x with
           challenges := upd x.challenges n fun _ => none, macTotal := satInc x.macTotal,
           seatFails := upd x.seatFails j fun l => b.dev.tick :: l }) s)) ∧
     (Ready i 0x37 (fix15 f true) 40 s → immBits f.imm 0 15 = 0 → who.sid ≠ 0 →
       exec (.sessionClose i f) s = .next (answered i (reply .done (b.toClose who.sid.toFin 1)) s)))

/-- TBLEDIT changes one word of the staged access table, and TBLPRESS of a table equal to the present one drops the stage
(R126 to R128). That TBLPRESS ignores its immediate is the model's reading (log entry 37). -/
def Obligations.TableIsStaged : Prop :=
  ∀ (p : Packet) (f : Enc) (s : State), f.d = 0 → f.a = 0 → f.m = 0 →
    let i : Issuer := .host p
    let who := whoOf i s
    who.isSeat 0 = true →
    (∀ old new : Row, Ready i 0x38 f 8 s → f.imm.getLsbD 3 = false → immBits f.imm 7 9 = 0 → p.c = 0 →
      let c := found i 8 s
      let seat := immBits f.imm 0 3
      let word := immBits f.imm 4 3
      old = (c.sec.staged)[seat.toNat] → new = (old.set word.toNat ((old[word.toNat] &&& ~~~p.b) ||| (p.a &&& p.b))) →
      rowAllowed seat new = true → (∀ st, c.sec.stage = some st → st.pressed = false ∧ st.owner = who.sid) →
      exec (.tbledit i f) s = .next (answered i (reply .done ((begun i 8 s).modSec fun x =>
        { x with stage := some ⟨x.staged.set seat.toNat new, who.sid, false⟩ })) s)) ∧
    (∀ st : TableStage, Ready i 0x39 f 12 s →
      let c := found i 12 s
      c.sec.stage = some st → p.a = c.sec.tblGen → (p.b ++ p.c : BitVec 64) = head8 (tableDigest st.rows) → st.pressed = false →
      st.owner = who.sid →
      (st.rows = c.sec.table →
        exec (.tblpress i f) s = .next (answered i (reply .done ((begun i 12 s).modSec fun x => { x with stage := none })) s)) ∧
      (st.rows ≠ c.sec.table → Clear (c.auditRefusals who 1) →
        let b := begun i 12 s
        let pressed := b.modSec fun x => { x with stage := some { st with pressed := true } }
        exec (.tblpress i f) s = .next (answered i (reply .queued
          (pressed.audit who.sid who.seat .tblpress (b.wouldBreak && pressBreaks b.sec.table st.rows) none
            [(192, bytesBE (b.sec.tblGen + 1) 4 ++ bytesBE (head8 (tableDigest b.sec.table)) 8
              ++ bytesBE (head8 (tableDigest st.rows)) 8)])) s)))

/-- KEYSET part 0 stages eight key bytes in the session, and part 1 with a good check value queues the new key as an audited change; with
another check value it drops the stage and is answered REFUSED (R98 to R101). -/
def Obligations.KeyIsSetInTwoParts : Prop :=
  ∀ (p : Packet) (f : Enc) (s : State), f.d = 0 → f.a = 0 → f.m = 0 →
    let i : Issuer := .host p
    let who := whoOf i s
    let c := found i 24 s
    let b := begun i 24 s
    let seat := immBits f.imm 0 3
    who.isSeat 0 = true → immBits f.imm 3 12 = 0 → p.flags.getLsbD 0 = true → seat ≠ 7 →
    (Ready i 0x3A (fix15 f false) 24 s → p.c = 0 →
      exec (.keysetPart0 i f) s = .next (answered i (reply .done (b.modSession who.sid.toFin fun x =>
        { x with stage := some (seat, (p.a ++ p.b : BitVec 64)) })) s)) ∧
    (∀ (first : BitVec 64) (j : Fin 7), Ready i 0x3A (fix15 f true) 24 s → seat.toNat = j.val →
      (c.sec.sessions[who.sid.toNat]).stage = some (seat, first) →
      let key : Block := first ++ p.a ++ p.b
      let unstaged := b.modSession who.sid.toFin fun x => { x with stage := none }
      (c.keysGone = false → key ≠ 0 → (keyCheck key).extractLsb' 96 32 ≠ p.c →
        exec (.keysetPart1 i f) s = .next (refusedPacket p .refused unstaged s)) ∧
      (key ≠ 0 → (keyCheck key).extractLsb' 96 32 = p.c → Clear (c.auditRefusals who 1) → Clear (b.auditRefusals who 1) →
      exec (.keysetPart1 i f) s = .next (answered i (reply .queued
        (unstaged.audit who.sid who.seat (.keyset j key)
          (b.wouldBreak && (j.val = 1 || j.val = 2)) none [(193, seat.setWidth 8 :: bytesBE ((keyCheck key).extractLsb' 112 16) 2)])) s)))

/-- STARCH seals and UNSTARCH opens the safety parameter set as audited changes; the first UNSTARCH of two seats only records its
witness (R132, R133). That the record of STARCH holds the set as the changes still waiting will leave it is the model's reading (log entry
37). -/
def Obligations.SealIsClosedAndOpened : Prop :=
  ∀ (p : Packet) (f : Enc) (s : State), f = ⟨0, 0, 0, 0⟩ → p.a = 0 → p.b = 0 → p.c = 0 →
    let i : Issuer := .host p
    let who := whoOf i s
    let c := found i 8 s
    let b := begun i 8 s
    (Ready i 0x3B f 8 s → who.isSeat 1 = true → c.sec.sealSt ≠ .sealed_ → Clear (c.auditRefusals who 1) →
      exec (.starch i f) s = .next (answered i (reply .queued (b.audit who.sid who.seat .starch false none
        [(197, bytesBE (c.projected.sps.digest.extractLsb' 128 128) 16 ++ [c.projected.sec.breaks])])) s)) ∧
    (Ready i 0x3C f 8 s → (who.isSeat 1 = true ∨ who.isSeat 2 = true) → c.projected.sec.sealSt ≠ .open_ →
      (c.projected.sec.liveWitness c.sec.witnessTo = none →
        exec (.unstarch i f) s = .next (answered i (reply .done
          ((b.modSec fun x => { x with witness := some ⟨who.seat, 0⟩ }).record 134 none [who.seat.setWidth 8])) s)) ∧
      (∀ w : Witness, c.projected.sec.liveWitness c.sec.witnessTo = some w → w.seat ≠ who.seat → Clear (c.auditRefusals who 1) →
        exec (.unstarch i f) s = .next (answered i (reply .queued (b.audit who.sid who.seat (.unseal who.seat) false none
          [(198, w.seat.setWidth 8 :: bytesBE (w.age.setWidth 16) 2)])) s)))

/-- PLOAD BEGIN, DATA and SEAL execute normally for a session with the PLOAD right, in ADMIT from DEV_TICK 2,000 on, with no supply warning
(R77, R86, R165): BEGIN makes the session the load's owner and clears SEC_PROGSEAL, DATA writes its one or two words into the program
store, SEAL asks for the seal with the eight digest bytes that it carries. DARN executes normally for KEEPER in RUN, at a word of the
image that holds the expected value (R192): it is queued as an audited change with its two records. -/
def Obligations.ProgramIsLoadedAndPatched : Prop :=
  (∀ (p : Packet) (f : Enc) (s : State), f.d = 0 → f.a = 0 → f.m = 0 → immBits f.imm 0 14 = 0 →
    let i : Issuer := .host p
    let who := whoOf i s
    let c := found i 8 s
    let b := begun i 8 s
    c.lacks who 13 = false → s.chip.dev.state = .admitting → 2000 ≤ s.chip.dev.tick.toNat → s.chip.warning = false →
    (Ready i 0x3D (fixTop2 f 0) 8 s → 208 ≤ p.a.toNat → p.a.toNat ≤ 64512 → p.b = 0 → p.c = 0 →
      (∀ l, s.chip.sec.load = some l → l.owner = who.sid ∧ l.sealing = none) →
      exec (.ploadBegin i f) s = .next (answered i (reply .done (b.modSec fun x =>
        { x with load := some ⟨who.sid, p.a.setWidth 17, none⟩, progSeal := none })) s)) ∧
    (∀ l : Load, s.chip.sec.load = some l → l.owner = who.sid → l.sealing = none →
      (Ready i 0x3D (fixTop2 f 1) 8 s →
        (p.c.toNat + 1 < l.n.toNat → exec (.ploadData i f) s = .next (answered i
          ⟨.done, [], [.prog p.c.toNat p.a, .prog (p.c.toNat + 1) p.b], b⟩ s)) ∧
        (p.c.toNat + 1 = l.n.toNat → p.b = 0 → exec (.ploadData i f) s = .next (answered i ⟨.done, [], [.prog p.c.toNat p.a], b⟩ s))) ∧
      (Ready i 0x3D (fixTop2 f 2) 8 s → c.noCredit who = false → s.chip.journal.fault = false →
        exec (.ploadSeal i f) s = .next (answered i (reply .queued ((withCredit i s b).modSec fun x =>
          { x with load := some { l with sealing := some ((p.b ++ p.c : BitVec 64), creditOf i b) } })) s)))) ∧
  (∀ (p : Packet) (f : Enc) (s : State), f.d = 0 → f.a = 0 → f.m = 0 → f.imm = 0 →
    let i : Issuer := .host p
    let who := whoOf i s
    let n := s.mem.imageLength
    let inside := fun w => decide (w < n)
    Ready i 0x3E f 12 s → who.isSeat 0 = true → s.chip.running = true → 208 ≤ p.a.toNat → s.mem.inImage p.a.toNat = true →
    s.chip.badWord 1 inside = none → s.mem.progWord p.a.toNat = p.b → (found i 12 s).sec.darnPending = false →
    Clear ((found i 12 s).auditRefusals who 2) →
    let after := s.mem.write (.prog p.a.toNat p.c)
    exec (.darn i f) s = .next (answered i (reply .queued (((begun i 12 s).noteReads 1 inside).audit who.sid who.seat
      (.darn (BitVec.ofNat 16 p.a.toNat) p.c) false none
      [(200, bytesBE (BitVec.ofNat 16 p.a.toNat) 2 ++ bytesBE p.b 4 ++ bytesBE p.c 4),
        (201, bytesBE (head8 (s.mem.imageDigest n)) 8 ++ bytesBE (head8 (after.imageDigest n)) 8)])) s))

/-- The four forms of STREAM select what the stream area of the up slot carries from the next tick on (R62, R195). -/
def Obligations.StreamSelectionIsQueued : Prop :=
  ∀ (p : Packet) (f : Enc) (s : State), f.d = 0 → f.a = 0 → f.m = 0 →
    let i : Issuer := .host p
    let who := whoOf i s
    let c := found i 4 s
    let selects := fun (sel : StreamSel) =>
      Host.Outcome.next (answered i (reply .done ((begun i 4 s).modLnk fun l => { l with streamNext := some (who.sid, sel) })) s)
    (Ready i 0x35 (fixLow f 3 0) 4 s → immBits f.imm 3 13 = 0 →
      ((c.lnk.stream ≠ .none ∧ c.lnk.streamOwner = who.sid) ∨ (∃ sel, c.lnk.streamNext = some (who.sid, sel) ∧ sel ≠ .none)) →
      exec (.streamNone i f) s = selects .none) ∧
    (c.lnk.streamTaken who.sid = false →
      (Ready i 0x35 (fixLow f 3 1) 4 s → immBits f.imm 3 13 = 0 → c.lacks who 7 = false → c.whoLevel who = 0 →
        c.whoSecured who = true → exec (.streamReplay i f) s = selects .replay) ∧
      (Ready i 0x35 (fixLow f 3 2) 4 s → immBits f.imm 3 13 = 0 → c.lacks who 8 = false → exec (.streamTrace i f) s = selects .trace) ∧
      (Ready i 0x35 (fixLow f 3 3) 4 s → immBits f.imm 3 5 = 0 → immBits f.imm 9 7 = 0 → c.lacks who 9 = false →
        ((c.row who.seat)[4]).getLsbD (if f.imm.getLsbD 8 then 3 else 4) = true →
        exec (.streamJournal i f) s = selects (.journal (f.imm.getLsbD 8))))

/-- An accepted audited change puts its records at the end of the journal queue, reserves their slots, and waits behind the changes
accepted before it for all of them to be committed (R128, R347). -/
def Obligations.AuditedChangeWaitsForRecords : Prop :=
  ∀ (c : Chip) (sid : BitVec 4) (seat : BitVec 3) (ch : Change) (brk : Bool) (car : Option CarId) (records : List (Byte × List Byte)),
    let d := c.audit sid seat ch brk car records
    d.journal.queue.map (fun r => (r.id, r.type, r.body))
        = c.journal.queue.map (fun r => (r.id, r.type, r.body)) ++ records.zipIdx.map (fun r => (c.journal.nextId + r.2, r.1.1, r.1.2)) ∧
      d.journal.auditReserved = c.journal.auditReserved + BitVec.ofNat 13 records.length ∧
      d.sec.audits = c.sec.audits ++ [⟨ch, (List.range records.length).map (c.journal.nextId + ·), 0, false⟩] ∧
      d.sec.keys = c.sec.keys ∧ d.sec.table = c.sec.table ∧ d.sec.sealSt = c.sec.sealSt ∧ d.sps = c.sps

/-- AUDITED_CHANGE_EFFECT applies the oldest accepted change at cycle 0 of a tick at whose boundary it was due, and none before; with a
supply warning standing, none that ends in a nonvolatile write (R28, R86, R101, R128, R131). A TICK_START makes due, of the changes in
their order, those whose records were all committed before it, up to the first that is not or that a warning holds (R128, R129). A new key enters the key store and closes its seat's sessions and
challenges (R101), an erasure empties the keys of its seats with the same closings (R102), a press replaces the whole table (R127), and
STARCH seals (R132); a key of INSPECTOR or INSTALLER, or a press that touches their rows or the write rights of the set, breaks a seal
that stands (R134). That the changes of a boundary are commands of the next tick's cycle 0, before anything else in it, is the model's
reading (log entry 43); that an erased key counts in CHANGES (log entry 36) and that no key is set once KEEPER's is erased (log entry 93)
are the model's choices, which no rule states. -/
def Obligations.AuditedChangeTakesEffect : Prop :=
  (∀ (s : State) (x : TickInputs) (n : Nat) (a : Audit), s.chip.linkUp = true → s.chip.changeDue = false →
    s.chip.sec.audits[n]? = some a →
    ∃ t, exec (.tickStart x) s = .next t ∧ t.chip.sec.audits.length = s.chip.sec.audits.length ∧
      t.chip.sec.audits[n]? = some { a with
        due := (s.chip.sec.audits.take (n + 1)).all fun b => b.waits.isEmpty && !(s.chip.warning && b.change.nonvolatile) }) ∧
  (∀ (s : State) (a : Audit) (rest : List Audit), s.chip.sec.audits = a :: rest →
    (a.due = false ∨ s.chip.atZero = false → exec .auditedChangeEffect s = .next s) ∧
    (s.chip.warning = true → a.change.nonvolatile = true → exec .auditedChangeEffect s = .next s) ∧
    (a.due = true → s.chip.atZero = true → s.chip.warning = false ∨ a.change.nonvolatile = false →
      let c := s.chip.modSec fun x => { x with audits := rest }
      (∀ m v keeper, a.change = .sps m v keeper →
        exec .auditedChangeEffect s = .next { s with chip :=
          if keeper then ({ c with sps := c.sps.put m v } : Chip).breakSeal a.seq else { c with sps := c.sps.put m v } }) ∧
      (∀ r ch v, a.change = .secreg r ch v → exec .auditedChangeEffect s = .next { s with chip := c.secWrite r ch v }) ∧
      (∀ seat, a.change = .unseal seat → exec .auditedChangeEffect s = .next { s with chip := c.modSec fun x =>
        { x with sealSt := .open_, witness := none, sealSeat := seat, sealEvent := 1, sealAudit := a.seq.setWidth 16 } }) ∧
      (∀ x : TickInputs, a.change = .readmit → s.chip.inputs.latched = some x →
        exec .auditedChangeEffect s = .next { s with chip := c.enterHunt true x.dropsel }) ∧
      (∀ w v, a.change = .darn w v → ∃ t, exec .auditedChangeEffect s = .next t ∧ t.mem = s.mem.write (.prog w.toNat v) ∧
        t.chip.sec.progSeal = some (t.mem.imageDigest t.mem.imageLength)) ∧
      (a.change = .starch → exec .auditedChangeEffect s = .next { s with chip := c.modSec fun x =>
        { x with
          spsDigest := c.sps.digest, sealSt := .sealed_, breaks := 0, witness := none, sealSeat := 1, sealEvent := 0,
          sealAudit := a.seq.setWidth 16 } }) ∧
      (let old := s.chip.sec
       let becomes := fun (breaks : Bool) (P : Sec → Prop) => ∃ t, exec .auditedChangeEffect s = .next t ∧ t.mem = s.mem ∧
         t.pending = s.pending ∧ t.chip.cars = s.chip.cars ∧ t.chip.sps = s.chip.sps ∧ t.chip.sec.audits = rest ∧
         t.chip.sec.sealSt = (if breaks = true ∧ old.sealSt ≠ .open_ then .broken else old.sealSt) ∧
         t.chip.sec.breaks = (if breaks = true ∧ old.sealSt ≠ .open_ then satInc old.breaks else old.breaks) ∧ P t.chip.sec
       let leaves := fun (now : Sec) (seats : BitVec 7) =>
         now.table = old.table ∧
         (∀ n : SessionId, n.val ≠ 0 →
           (seats.getLsbD (old.sessions[n.val]).seat.toNat = true → (now.sessions[n.val]).isOpen = false) ∧
           (seats.getLsbD (old.sessions[n.val]).seat.toNat = false → now.sessions[n.val] = old.sessions[n.val])) ∧
         ∀ (n : SessionId) (h : Challenge), now.challenges[n.val] = some h ↔
           old.challenges[n.val] = some h ∧ seats.getLsbD h.seat.toNat = false
       (∀ (j : Fin 7) (key : Block), a.change = .keyset j key →
         (s.chip.keysGone = true → exec .auditedChangeEffect s = .next { s with chip := c }) ∧
         (s.chip.keysGone = false → becomes (j.val = 1 || j.val = 2) fun now =>
           now.keys[j.val] = ⟨key, .isSet, satInc (old.keys[j.val]).changes⟩ ∧
           (∀ i : Fin 7, i ≠ j → now.keys[i.val] = old.keys[i.val]) ∧ leaves now (BitVec.ofNat 7 (2 ^ j.val)))) ∧
       (∀ seats : BitVec 7, a.change = .zeroize seats → becomes (seats.getLsbD 1 || seats.getLsbD 2) fun now =>
         (∀ i : Fin 7, now.keys[i.val] = if seats.getLsbD i.val then
             ⟨0, if i = 0 then .zeroised else .empty, satInc (old.keys[i.val]).changes⟩
           else old.keys[i.val]) ∧ leaves now seats) ∧
       (∀ st : TableStage, a.change = .tblpress → old.stage = some st → becomes (pressBreaks old.table st.rows) fun now =>
         now.table = st.rows ∧ now.tblGen = old.tblGen + 1 ∧ now.stage = none ∧ now.keys = old.keys ∧
         now.sessions = old.sessions ∧ now.challenges = old.challenges))))

/-! ### PUT (R181 to R183, R386 to R388) -/

/-- The PUTs of the device and power blocks: GO in ADMIT, the switch-on and switch-off of a car's islands (R76, R90). THR_STATE.CMD takes
its command at the next tick boundary (R157, R158). -/
def Obligations.DeviceAndThreadPutsTakeEffect : Prop :=
  (∀ (i : Issuer) (f : Enc) (s : State),
     let c := found i 4 s
     let b := begun i 4 s
     let who := whoOf i s
     let v := putValue i f s
     let done := fun (c : Chip) => Host.Outcome.next (answered i (reply .done c) s)
     (Ready i 0x1D (regImm f 0 0x08) 4 s → MayPut i (regImm f 0 0x08) ⟨0, 0x08, 0⟩ s → slice v 16 16 = (0 : BitVec 16) →
       v.getLsbD 8 = true → (who.isSeat 0 = true ∨ who.isSeat 1 = true) → s.chip.dev.state = .admitting →
       exec (.devAdmitGo i f) s = done (b.modDev fun d => { d with go := true })) ∧
     (∀ k : CarId, Ready i 0x1D (regImm f 0xD 0x01) 4 s → MayPut i (regImm f 0xD 0x01) ⟨0xD, 0x01, k.val⟩ s → c.running = true →
       let x := c.cars[k.val]
       (v.getLsbD 0 = true → x.on = false → x.powerPending = false → x.rising = false → c.noCredit who = false →
         exec (.pwrIslandreqWrite i f) s = .next (answered i (reply .queued ((b.takeCredit who.sid who.seat).modCar k fun x =>
           { x with powerPending := true, powerFresh := true, powerCredit := some b.nextCredit, islandReq := true })) s)) ∧
       (v.getLsbD 0 = false → x.powerPending = false → x.rising = false → x.on = true → (x.service = .out ∨ x.service = .stoppedFault) →
         c.testRunning k = false →
         exec (.pwrIslandreqWrite i f) s = done (b.modCar k fun x => { x with powerOff := true, islandReq := false })))) ∧
  (∀ (i : Issuer) (f : Enc) (s : State) (t : ThreadId),
     let g := regImm f 3 0x00
     let c := found i 4 s
     let v := putValue i f s
     let stored := fun (m : ThreadCmd) =>
       Host.Outcome.next (answered i (reply .done ((begun i 4 s).modThread t fun x => { x with cmd := some m })) s)
     Ready i 0x1D g 4 s → MayPut i g ⟨3, 0x00, t.val⟩ s →
     ((slice v 28 4).toNat = 1 → c.restartWindow t < 3 → exec (.threadRestartCmd i f) s = stored .restart) ∧
     ((slice v 28 4).toNat = 2 → c.haltRefused t = false → exec (.threadHaltCmd i f) s = stored .halt))

/-- The audited PUTs: a re-admission, an erasure of keys, the KEEPER's registers of the secrecy block, SECUREMASK and TAPCTL, and a
member of the safety parameter set. Each is answered QUEUED with its records in the journal queue and its change waiting for them
(R84, R102, R112, R118, R128, R131, R134, R135, R140, R141). That the old and new values in the records count the changes still waiting, and
that SEC_SEATS with no bit set is QUEUED with its record too, are the model's readings (log entry 37). -/
def Obligations.AuditedPutsAreQueued : Prop :=
  ∀ (i : Issuer) (f : Enc) (s : State),
    let c := found i 4 s
    let b := begun i 4 s
    let who := whoOf i s
    let v := putValue i f s
    let queued := fun (ch : Change) (brk : Bool) (car : Option CarId) (records : List (Byte × List Byte)) =>
      Host.Outcome.next (answered i (reply .queued (b.audit who.sid who.seat ch brk car records)) s)
    let secreg := fun (r : RegRef) => queued (.secreg (BitVec.ofNat 6 r.i) (BitVec.ofNat 7 r.ch) v) false none
      [(195, regBytes r ++ bytesBE (c.projected.readSec r.i r.ch) 4
        ++ bytesBE ((c.projected.secWrite (BitVec.ofNat 6 r.i) (BitVec.ofNat 7 r.ch) v).readSec r.i r.ch) 4)]
    Clear (c.auditRefusals who 1) →
    (Ready i 0x1D (regImm f 0 0x08) 4 s → MayPut i (regImm f 0 0x08) ⟨0, 0x08, 0⟩ s → who.isSeat 0 = true →
      slice v 16 16 = (0xA5D1 : BitVec 16) →
      exec (.keeperReadmit i f) s = queued .readmit false none
        [(199, [(b.dev.state.code).setWidth 8, if b.dev.state = .tripped then b.dev.cause.setWidth 8 else 0])]) ∧
    (Ready i 0x1D (regImm f 2 0x17) 4 s → MayPut i (regImm f 2 0x17) ⟨2, 0x17, 0⟩ s → who.isSeat 0 = true →
      slice v 16 16 = (0x9E0C : BitVec 16) → (slice v 0 7 : BitVec 7) ≠ 0 →
      exec (.secZeroize i f) s = queued (.zeroize (slice v 0 7)) (b.wouldBreak && (v.getLsbD 1 || v.getLsbD 2)) none
        [(194, [(slice v 0 7 : BitVec 7).setWidth 8])]) ∧
    (Ready i 0x1D (regImm f 2 0x00) 4 s → MayPut i (regImm f 2 0x00) ⟨2, 0x00, 0⟩ s → who.isSeat 0 = true →
      exec (.seatUnlock i f) s = secreg ⟨2, 0x00, 0⟩) ∧
    (∀ r : RegRef, Ready i 0x1D f 4 s → MayPut i f r s → r.b = 2 → who.isSeat 0 = true →
      ((r.i = 0x0A ∧ outside 1 32 (slice v 8 6).toNat = false ∧ outside 1 8 (slice v 0 4).toNat = false) ∨
        (r.i = 0x0D ∧ outside 256 1000000 (slice v 0 20).toNat = false) ∨ r.i = 0x10 ∨
        (r.i = 0x13 ∧ outside 64 2047 (slice v 0 11).toNat = false)) →
      exec (.keeperSecWrite i f) s = secreg r) ∧
    (∀ n : Nat, Ready i 0x1D (regImm f 2 0x11) 4 s → MayPut i (regImm f 2 0x11) ⟨2, 0x11, n⟩ s →
      exec (.securemaskWrite i f) s = secreg ⟨2, 0x11, n⟩) ∧
    (Ready i 0x1D (regImm f 2 0x16) 4 s → MayPut i (regImm f 2 0x16) ⟨2, 0x16, 0⟩ s → c.running = false →
      exec (.tapctlWrite i f) s = secreg ⟨2, 0x16, 0⟩) ∧
    (∀ (r : RegRef) (m : SpsId), Ready i 0x1D f 4 s → MayPut i f r s → isSps r.b r.i = true → spsId r.b r.i r.ch = some m →
      let w := v &&& spsMask m
      let keeper := who.isSeat 0
      (c.projected.sec.sealSt ≠ .open_ → keeper = true) → c.spsRange c.projected m w = false →
      exec (.spsPut i f) s = queued (.sps m w keeper) (keeper && b.wouldBreak) (regCar r.b r.i r.ch)
        [(196, regBytes r ++ [if (c.projected.sps.get m).isNone then 1 else 0] ++ bytesBE ((c.projected.sps.get m).getD 0) 4
          ++ bytesBE w 4 ++ [((c.projected.applyChange 0 (.sps m w keeper)).sec.sealSt.code).setWidth 8])])

/-- CAR_SERVICE.REQ: an accepted request waits for the next boundary, and CLEAR also clears ILK_FAULT.RB; a refused IN leaves the unmet
conditions in WHY and changes nothing else of the car, and CLEAR starts the check of SAFE_PULSE_RB afresh (R249, R250, R253, R311).
CAR_LTBASE loads the landing table and CAR_MODE the traffic mode with its schedule table from data RAM (R255, R270). -/
def Obligations.CarPutsTakeEffect : Prop :=
  ((∀ (i : Issuer) (f : Enc) (s : State) (k : CarId),
      let g := regImm f 4 0x00
      let c := found i 4 s
      let x := c.cars[k.val]
      let a := c.axes[(carAxis k).val]
      let u := c.unmet k
      let req := (slice (putValue i f s) 28 4).toNat
      let to_ := fun (m : Service) => (begun i 4 s).modCar k fun x => { x with goto := some m }
      let done := fun (c : Chip) => Host.Outcome.next (answered i (reply .done c) s)
      Ready i 0x1D g 4 s → MayPut i g ⟨4, 0x00, k.val⟩ s →
      (req = 1 → (x.service = .in_ ∨ x.service = .inspect) → (a.st = .idle ∨ a.st = .held) → a.queue = [] →
        exec (.carReqOut i f) s = done (to_ .out)) ∧
      (x.service = .out → c.testRunning k = false →
        (req = 2 → u &&& 0x7FF = 0 → exec (.carReqIn i f) s = done (to_ .in_)) ∧
        (req = 3 → u &&& 0x7E7 = 0 → exec (.carReqInspect i f) s = done (to_ .inspect))) ∧
      (req = 4 → x.service = .stoppedFault → u &&& 0x600 = 0 →
        exec (.carReqClear i f) s = done ((to_ .out).modIlk k fun y => { y with rbFault := false, rbWhich := 0, pulseRun := 0 }))) ∧
   (∀ (t : ThreadId) (f : Enc) (s : State) (k : CarId),
      let g := regImm f 4 0x00
      let i : Issuer := .thread t
      let c := found i 4 s
      SlotFits t 4 s → f.d ≠ 15 → MayPut i g ⟨4, 0x00, k.val⟩ s → (slice (putValue i f s) 28 4).toNat = 2 →
      (c.cars[k.val]).service = .out → c.unmet k &&& 0x7FF ≠ 0 →
      ∃ u, exec (.carReqIn i f) s = .next u ∧ u.mem = s.mem ∧
        u.chip.cars[k.val] = { s.chip.cars[k.val] with why := c.unmet k &&& 0x7FF } ∧
        (∀ j : CarId, j ≠ k → u.chip.cars[j.val] = s.chip.cars[j.val])) ∧
   (∀ (p : Packet) (f : Enc) (s : State) (k : CarId),
      let g := regImm f 4 0x00
      let i : Issuer := .host p
      let c := found i 4 s
      Ready i 0x1D g 4 s → MayPut i g ⟨4, 0x00, k.val⟩ s → (slice (putValue i f s) 28 4).toNat = 2 →
      (c.cars[k.val]).service = .out → c.testRunning k = false → c.unmet k &&& 0x7FF ≠ 0 →
      exec (.carReqIn i f) s =
        .next (refusedPacket p .refused ((begun i 4 s).modCar k fun x => { x with why := c.unmet k &&& 0x7FF }) s))) ∧
  (∀ (i : Issuer) (f : Enc) (s : State) (k : CarId),
     let c := found i 4 s
     let v := putValue i f s
     let done := fun (c : Chip) => Host.Outcome.next (answered i (reply .done c) s)
     (∀ t : LandingTable, Ready i 0x1D (regImm f 4 0x07) 4 s → MayPut i (regImm f 4 0x07) ⟨4, 0x07, k.val⟩ s →
       let at_ := (slice v 0 18 : BitVec 18).toNat
       let words := wordsOf at_ (8 + 16 * (c.cars[k.val]).count.toNat)
       (c.cars[k.val]).service = .out → s.mem.landingTable at_ (c.cars[k.val]).count.toNat = some t → s.chip.badWord 0 words = none →
       exec (.landingTableLoad i f) s = done (((begun i 4 s).noteReads 0 words).modCar k fun x =>
         { x with ltbase := slice v 0 18, tableNext := some t })) ∧
     (Ready i 0x1D (regImm f 4 0x1B) 4 s → MayPut i (regImm f 4 0x1B) ⟨4, 0x1B, k.val⟩ s →
       let w : BitVec 16 := slice v 16 16
       let table := if w = 0 then none else s.mem.schedule w.toNat
       let count := (slice (s.mem.ram.readLE (4 * w.toNat)) 0 6 : BitVec 6).toNat
       let words := wordsOf (4 * w.toNat) (4 * (count + 1))
       let b := begun i 4 s
       (w ≠ 0 → table.isSome = true ∧ s.chip.badWord 0 words = none) →
       exec (.scheduleLoad i f) s = done ((if w = 0 then b else b.noteReads 0 words).modCar k fun x =>
         { x with
           schedW := w, schedule := table, schedSel := none, modeHold := v.getLsbD 6, mode := slice v 0 4, modeSrc := false })))

/-- DOOR_STATE.REQ: REOPEN of a closing door starts a reopening, NUDGE arms nudging, CLEAR asks for the end of a fault (R289, R291). A
reopening enters REVERSING, is counted, and sends the door to DOOR_WIDTH at its next advance (R211, R288, R289). That NUDGE is answered DONE and arms in every
state of the door is the model's reading (log entry 63). -/
def Obligations.DoorRequestsAreAnswered : Prop :=
  (∀ (i : Issuer) (f : Enc) (s : State) (d : DoorId),
     let g := regImm f 5 0x00
     let c := found i 4 s
     let b := begun i 4 s
     let x := c.doors[d.val]
     let req := (slice (putValue i f s) 28 4).toNat
     let done := fun (c : Chip) => Host.Outcome.next (answered i (reply .done c) s)
     Ready i 0x1D g 4 s → MayPut i g ⟨5, 0x00, d.val⟩ s → x.inUse = true →
     (req = 1 →
       (x.st = .closing → exec (.doorReqReopen i f) s = done (b.startReopen d)) ∧
       ((x.st = .reversing ∨ x.st = .opening) → exec (.doorReqReopen i f) s = done b)) ∧
     (req = 2 → exec (.doorReqNudge i f) s = done (b.modDoor d fun x =>
       { x with armed := true, st := if x.st = .closing then .nudging else x.st })) ∧
     (req = 3 → x.st = .fault → x.speed = 0 → x.tempBad = false →
       exec (.doorReqClear i f) s = done (b.modDoor d fun x => { x with clearing := true }))) ∧
  (∀ (c : Chip) (d : DoorId), (c.axes[(doorAxis d).val]).engaged = none →
     let u := c.startReopen d
     (u.doors[d.val]).st = .reversing ∧ (u.doors[d.val]).revTotal = satInc (c.doors[d.val]).revTotal ∧
       (u.doors[d.val]).revCycle = satInc (c.doors[d.val]).revCycle ∧
       (u.axes[(doorAxis d).val]).cmds = (c.axes[(doorAxis d).val]).cmds ++ [.reopen ((c.doors[d.val]).act.width.setWidth 32)])

/-- DOOR_SINTAB takes SEL and an entry of a sine table, DOOR_LEARN with GO starts a width learn toward MAXW (R281, R294).
That the axis reads MOVING from the PUT of GO on, and that the order of the entries counts those still waiting to act, are the model's readings
(log entries 62 and 66). -/
def Obligations.DoorTablesAndLearn : Prop :=
  ∀ (i : Issuer) (f : Enc) (s : State) (d : DoorId),
    let c := found i 4 s
    let v := putValue i f s
    let x := c.doors[d.val]
    let done := fun (c : Chip) => Host.Outcome.next (answered i (reply .done c) s)
    (Ready i 0x1D (regImm f 5 0x1B) 4 s → MayPut i (regImm f 5 0x1B) ⟨5, 0x1B, d.val⟩ s →
      (c.cars[(carOfDoor d).val]).service = .out →
      (v.getLsbD 31 = false → exec (.sintabWrite i f) s = done ((begun i 4 s).modDoor d fun y =>
        { y with cfg := { y.cfg with sel := slice v 24 2 } })) ∧
      (v.getLsbD 31 = true → c.sineHeld (slice v 28 2) = false →
        let table := c.sineStored (slice v 28 2)
        let e : Byte := slice v 16 8
        let entry : BitVec 16 := slice v 0 16
        (e ≠ 0 → (table.getD (e.toNat - 1) 0).toNat ≤ entry.toNat) → (e ≠ 255 → entry.toNat ≤ (table.getD (e.toNat + 1) 0).toNat) →
        let b := begun i 4 s
        exec (.sintabWrite i f) s = done { b.modDoor d (fun y => { y with cfg := { y.cfg with sel := slice v 24 2 } }) with
          sineNext := b.sineNext ++ [(slice v 28 2, e, entry)] })) ∧
    (Ready i 0x1D (regImm f 5 0x1F) 4 s → MayPut i (regImm f 5 0x1F) ⟨5, 0x1F, d.val⟩ s → v.getLsbD 31 = true →
      (c.cars[(carOfDoor d).val]).service = .out → (x.st = .closed ∨ x.st = .closedLocked) →
      (slice v 10 10 : BitVec 10) ≠ 0 → (slice v 10 10 : BitVec 10).toNat < (slice v 0 10 : BitVec 10).toNat →
      (slice v 20 8 : Byte) ≠ 0 → (c.axes[(doorAxis d).val]).homed = true → (c.axes[(doorAxis d).val]).st = .idle →
      (c.axes[(doorAxis d).val]).queue = [] → c.doorLow (carOfDoor d) = false →
      ∃ u, exec (.learnGo i f) s = .next u ∧ (u.chip.doors[d.val]).st = .learning ∧ (u.chip.doors[d.val]).learnResult = 1 ∧
        (u.chip.axes[(doorAxis d).val]).st = .moving ∧
        (u.chip.axes[(doorAxis d).val]).target = BitVec.ofNat 32 ((slice v 0 10 : BitVec 10).toNat * 4096) ∧
        (u.chip.axes[(doorAxis d).val]).cap = some ((slice v 20 8 : Byte).toNat * 1000))

/-- PRF_CAMSEL: HALF 0 stages the low half of a point, and HALF 1 for the same point writes the word of the cam table (R213). LOOP_MODE:
IRESET asks for an integrator reset, RUN 1 after a loop fault asks for its clearing where nothing holds the loop (R238, R241).
FBK_CMPBASE arms the comparator, FE_POLYBASE loads a coefficient block, CRC_VAL sets a check value, ILK_CLAMP clears sticky bits whose
taps are not live (R226, R298, R323, R341). -/
def Obligations.ChannelPutsTakeEffect : Prop :=
  ((∀ (i : Issuer) (f : Enc) (s : State) (a : AxisId),
      let g := regImm f 8 0x0C
      let v := putValue i f s
      let table : BitVec 4 := slice v 25 4
      let point : BitVec 9 := slice v 16 9
      let data : BitVec 16 := slice v 0 16
      Ready i 0x1D g 4 s → MayPut i g ⟨8, 0x0C, a.val⟩ s → (found i 4 s).tableEngaged table = false →
      (v.getLsbD 29 = false → exec (.camselHalf0 i f) s = .next (answered i (reply .done ((begun i 4 s).modAxis a fun x =>
        { x with camStage := some (table, point, data) })) s)) ∧
      (∀ low, v.getLsbD 29 = true → (s.chip.axes[a.val]).camStage = some (table, point, low) →
        let at_ := 2048 * table.toNat + 4 * point.toNat
        let logged : Chip := match i with
          | .thread t =>
            let cycle := (begun i 4 s).cycleOf t 4
            ((begun i 4 s).noteScanned 2 (at_ / 4) cycle).logCam s.mem at_ cycle ((clusterOf t).1 + 1) (data ++ low)
          | .host _ => begun i 4 s
        exec (.camselHalf1 i f) s = .next (answered i
          ⟨.done, [], [.cam at_ (data ++ low)], logged.modAxis a fun x => { x with camStage := none }⟩ s))) ∧
   (∀ (i : Issuer) (f : Enc) (s : State) (l : LoopId),
      let g := regImm f 7 0x00
      let v := putValue i f s
      let done := fun (h : Loop → Loop) => Host.Outcome.next (answered i (reply .done ((begun i 4 s).modLoop l h)) s)
      Ready i 0x1D g 4 s → MayPut i g ⟨7, 0x00, l.val⟩ s →
      (v.getLsbD 8 = true → v.getLsbD 0 = false →
        exec (.loopIreset i f) s = done fun y => { y with cfg := { y.cfg with run := false }, ireset := true }) ∧
      (v.getLsbD 8 = false → v.getLsbD 0 = true → s.chip.loopHeld l = false → (s.chip.loops[l.val]).fault ≠ 0 →
        exec (.loopFaultClear i f) s = done fun y => { y with cfg := { y.cfg with run := true }, clearFault := true }))) ∧
  (∀ (i : Issuer) (f : Enc) (s : State),
     let c := found i 4 s
     let b := begun i 4 s
     let v := putValue i f s
     let done := fun (c : Chip) => Host.Outcome.next (answered i (reply .done c) s)
     (∀ n : FbkId, Ready i 0x1D (regImm f 6 0x06) 4 s → MayPut i (regImm f 6 0x06) ⟨6, 0x06, n.val⟩ s →
       exec (.cmpbaseArm i f) s = done (b.modFbk n fun y => { y with cmpBase := v, cmpArm := true })) ∧
     (∀ (y : FeId) (block : BitVec 4 × List Coef), Ready i 0x1D (regImm f 9 0x09) 4 s → MayPut i (regImm f 9 0x09) ⟨9, 0x09, y.val⟩ s →
       let at_ := (slice v 0 18 : BitVec 18).toNat
       let words := wordsOf at_ (s.mem.coefBytes at_)
       s.mem.coefBlock at_ = some block → s.chip.badWord 0 words = none → (c.cars[(carOfFe y).val]).service = .out →
       c.calPending y = false →
       exec (.polybaseLoad i f) s = done ((b.noteReads 0 words).modFe y fun x =>
         { x with cfg := { x.cfg with polyBase := slice v 0 18 }, coefsNext := some block })) ∧
     (∀ k : CkId, Ready i 0x1D (regImm f 0xB 0x03) 4 s → MayPut i (regImm f 0xB 0x03) ⟨0xB, 0x03, k.val⟩ s →
       ckMask (c.scan.cks[k.val]).cfg.sel v = v → c.ckPending k = false →
       exec (.crcValWrite i f) s = done (b.modCk k fun x => { x with val := v })) ∧
     (∀ k : CarId, Ready i 0x1D (regImm f 0xA 0x0C) 4 s → MayPut i (regImm f 0xA 0x0C) ⟨0xA, 0x0C, k.val⟩ s →
       exec (.stickyClear i f) s = done (b.modIlk k fun x =>
         { x with clampSticky := x.clampSticky &&& ~~~(slice v 0 8 &&& ~~~x.clampLive) })))

/-- PUT and REGISTER_WRITE of LNK_DARKMAX, THR_STALLMAX, the landing count of a car, DOOR_MASS, FBK_SCALE, LOOP_KP, PRF_SEAMTOL,
FE_SPAN, CRC_INIT, JNL_RDPTR and PWR_SUPPLY, one setting of each block that has one: the stored setting takes the field of the value, and
nothing else of the device changes but the answer (R183, R386). A PUT of DEV_ID, which has no writable field, answers DONE. -/
def Obligations.TwelveSettingsAreStored : Prop :=
  ∀ (i : Issuer) (f : Enc) (s : State) (r : RegRef), Ready i 0x1D f 4 s → MayPut i f r s →
    let c := found i 4 s
    let b := begun i 4 s
    let v := putValue i f s
    let both := fun (c : Chip) =>
      exec (.put i f) s = .next (answered i (reply .done c) s) ∧ exec (.registerWrite i f) s = .next (answered i (reply .done c) s)
    (r.b = 1 → r.i = 0x05 → 1 ≤ v.toNat % 32 → v.toNat % 32 ≤ 16 →
      both (b.modLnk fun l => { l with cfg := { l.cfg with darkMax := slice v 0 5 } })) ∧
    (∀ t : ThreadId, r = ⟨3, 0x06, t.val⟩ → 4 ≤ v.toNat % 65536 → v.toNat % 65536 ≤ 4096 →
      both (b.modThread t fun x => { x with stallMax := slice v 0 16 })) ∧
    (∀ k : CarId, r = ⟨4, 0x06, k.val⟩ → (c.cars[k.val]).service = .out → 2 ≤ v.toNat % 256 → v.toNat % 256 ≤ 128 →
      both (b.modCar k fun x => { x with count := slice v 0 8 })) ∧
    (∀ d : DoorId, r = ⟨5, 0x0D, d.val⟩ → (c.cars[(carOfDoor d).val]).service = .out →
      both (b.modDoor d fun y => { y with cfg := { y.cfg with mass := slice v 0 16 } })) ∧
    (∀ n : FbkId, r = ⟨6, 0x11, n.val⟩ → (c.cars[(carOfFbk n).val]).service = .out →
      both (b.modFbk n fun y => { y with cfg := { y.cfg with scale := v } })) ∧
    (∀ l : LoopId, r = ⟨7, 0x02, l.val⟩ → gainBad (c.loops[l.val]).cfg.bfp v = false →
      both (b.modLoop l fun y => { y with cfg := { y.cfg with kp := v } })) ∧
    (∀ a : AxisId, r = ⟨8, 0x0B, a.val⟩ → v.toNat % 1048576 ≤ 1000000 →
      both (b.modAxis a fun y => { y with seamTol := slice v 0 20 })) ∧
    (∀ y : FeId, r = ⟨9, 0x0C, y.val⟩ → (c.cars[(carOfFe y).val]).service = .out → c.calPending y = false →
      both (b.modFe y fun x => { x with cfg := { x.cfg with span := v } })) ∧
    (∀ k : CkId, r = ⟨0xB, 0x01, k.val⟩ → both (b.modCk k fun x => { x with cfg := { x.cfg with init := v } })) ∧
    (r = ⟨0xC, 0x07, (whoOf i s).sid.toNat⟩ → both (b.modSession (whoOf i s).sid.toFin fun x => { x with readPtr := v, readTorn := 0 })) ∧
    (r = ⟨0xD, 0x05, 0⟩ → both (b.modPwr fun p => { p with sticky := p.sticky &&& ~~~(slice v 8 5) })) ∧
    (r = ⟨0, 0x00, 0⟩ → both b)

/-! ### Trips, supplies and reset (R72 to R89) -/

/-- Each trip event of ADMIT and RUN takes the device to TRIPPED with its cause and syndrome and all outputs harmless; a later
cause in TRIPPED sets its bit of OTHERS and changes nothing else (R81, R82, Table 4-6). -/
def Obligations.TripEventsTrip : Prop :=
  ∀ (s : State) (cycle : BitVec 14),
    let c := s.chip
    let trips := fun (i : Instr) (cause : BitVec 5) (syndrome : Word) => ∃ t, exec i s = .next t ∧ TrippedBy cause syndrome cycle s t
    c.lnk.sckRunning = true →
    ((c.dev.state = .admitting ∨ c.dev.state = .run) →
      (c.lnk.act.darkMax.toNat ≤ c.lnk.darkRun.toNat →
        trips (.linkDarkTrip cycle) 1 ((c.lnk.frameNo.extractLsb' 0 16).setWidth 32)) ∧
      (∀ gapNs : BitVec 32, 8000 ≤ gapNs.toNat →
        ∃ t, exec (.sckGapTrip cycle gapNs) s = .next t ∧ TrippedBy 2 (cycle.setWidth 32) cycle s t ∧ t.chip.lnk.sckRunning = false ∧
          ∀ n : Nat, t.chip.upLanes n = none) ∧
      (4 ≤ c.dev.hotRun.toNat → trips (.overtempTrip cycle) 11 (c.dev.temp.setWidth 32)) ∧
      (∀ (rail : Fin 5) (mv : BitVec 16) (cycles : BitVec 8), 16 ≤ cycles.toNat →
        (10 * mv.toNat < (tripLevels c rail).1 → 10 * mv.toNat ≤ (tripLevels c rail).2 →
          trips (.brownoutTrip rail mv cycles cycle) 10 (BitVec.ofNat 32 rail.val)) ∧
        ((tripLevels c rail).2 < 10 * mv.toNat → trips (.brownoutTrip rail mv cycles cycle) 10 (BitVec.ofNat 32 (8 + rail.val)))) ∧
      (∀ (cluster : BitVec 2) (thread : BitVec 6),
        trips (.lockstepTrip cluster thread cycle) 4 (cluster ++ thread ++ (0 : BitVec 10) ++ cycle)) ∧
      (∀ ppm : Vector (BitVec 20) 16, (∀ d ∈ ppm.toList, 1000 < d.toNat) → trips (.referenceTrip ⟨ppm, cycle⟩) 9 0x130)) ∧
    (∀ (cluster : BitVec 2) (thread : BitVec 6), c.dev.state = .tripped → c.dev.cause ≠ 4 → c.dev.tripAt ≠ some (c.dev.tick, cycle) →
      exec (.lockstepTrip cluster thread cycle) s = .next (s.act fun c => c.modDev fun d => { d with others := d.others ||| 8 }))

/-- RST_N and a lost supply lead to DARK with nothing volatile left but the retention cells where VCORE holds, and with VIO lost the
outputs are high impedance; LEAVE_DARK leads to HUNT; a warning stands in LIVE and STICKY until it clears; the adaptive voltage moves by
at most one step; a rising edge of TCK moves the TAP, and TRST_N low holds it in Test-Logic-Reset (R72 to R74, R80, R86, R88, R140,
R382). That VID outside VIDMIN to VIDMAX stands with EDGE set is the model's choice (log entry 91), that an absent VLNK reads 0 mV and
keeps the device in DARK is log entry 108. -/
def Obligations.SupplyAndResetEvents : Prop :=
  ∀ s : State,
    let c := s.chip
    (∀ lowNs : BitVec 32, 50 ≤ lowNs.toNat → c.dev.state ≠ .dark →
      ∃ t, exec (.rstNAssert lowNs) s = .next t ∧ WentDark s t ∧
        (c.dev.state ≠ .hunt → t.chip.dev.retained = some ⟨c.dev.tick, c.dev.wall, c.dev.cause, c.dev.others, c.dev.syndrome⟩)) ∧
    (∀ (rail : Fin 5) (mv : BitVec 16), belowPor rail mv = true →
      ∃ t, exec (.supplyPorLoss rail mv) s = .next t ∧ WentDark s t ∧ t.chip.pwr.railMv[rail.val] = mv ∧
        (rail = 0 → t.chip.dev.retained = none) ∧
        (rail = 1 → t.chip.devOk = none ∧ t.chip.avsVid = none ∧ ∀ (d : DoorId) (n : Nat), t.chip.gateOutputs d n = none)) ∧
    (∀ (rails : Vector (BitVec 16) 5) (edges : BitVec 8) (straps : BitVec 2), c.dev.state = .dark →
      ∃ t, exec (.leaveDark rails edges straps) s = .next t ∧ t.pending = s.pending ∧ t.mem = s.mem ∧
        t.chip.pwr.vioOn = !belowPor 1 rails[1] ∧
        ((∀ r : Fin 5, belowPor r rails[r.val] = false) → rails[2] ≠ 0 → 16 ≤ edges.toNat →
          t.chip.dev.state = .hunt ∧ t.chip.lnk.drop = straps ∧ t.chip.pwr.railMv = Vector.replicate 5 0 ∧
          t.chip.dev.retained = c.dev.retained ∧ t.chip.devOk = some false) ∧
        (rails[2] = 0 ∨ edges.toNat < 16 → t.chip.dev = c.dev)) ∧
    (∀ (rail : Fin 5) (mv : BitVec 16) (cycles : BitVec 8), c.lnk.sckRunning = true → c.dev.state ≠ .dark →
      let b := BitVec.ofNat 5 (2 ^ rail.val)
      (10 * mv.toNat < warnLevel c rail →
        exec (.supplyWarning rail mv) s = .next (s.act fun c => (c.note (.supply rail mv true)).modPwr fun p =>
          { p with live := p.live ||| b, sticky := p.sticky ||| b, railMv := upd p.railMv rail fun _ => mv })) ∧
      (warnLevel c rail ≤ 10 * mv.toNat → 16 ≤ cycles.toNat →
        exec (.supplyWarningClear rail mv cycles) s = .next (s.act fun c => (c.note (.supply rail mv false)).modPwr fun p =>
          { p with live := p.live &&& ~~~b, railMv := upd p.railMv rail fun _ => mv }))) ∧
    (c.lnk.sckRunning = true → c.running = true → c.pwr.due = true → c.pwr.act.slackLo.toNat ≤ c.pwr.act.slackHi.toNat →
      let p := c.pwr
      let low := decide (p.least.toNat < p.act.slackLo.toNat)
      let high := decide (p.act.slackHi.toNat < p.least.toNat)
      let up := low && decide (p.vid.toNat < p.act.vidMax.toNat)
      let down := high && decide (p.act.vidMin.toNat < p.vid.toNat)
      exec .avsDecision s = .next (s.act fun c => c.modPwr fun p =>
        { p with
          due := false, mon := p.leastMon, slack := p.least, least := 63, leastMon := 0,
          vid := if up then p.vid + 1 else if down then p.vid - 1 else p.vid,
          avsEdge := p.avsEdge || ((low || high) && !up && !down) })) ∧
    (∀ (control : TapControl) (tdi : Bool), c.running = false → c.dev.state ≠ .dark → c.sec.tapEn = true →
      (control.trst = true → ∀ rising : Bool,
        exec (.tapTck rising control tdi) s = .next (s.act fun c => c.modSec fun x => { x with tap := .testLogicReset })) ∧
      (control.trst = false →
        exec (.tapTck true control tdi) s = .next (s.act fun c => c.modSec fun x => { x with tap := x.tap.next control.tms }) ∧
        (c.sec.tap ≠ .shiftDr → c.sec.tap ≠ .shiftIr → exec (.tapTck false control tdi) s = .next s)))

/-! ### The link and time (R32 to R71) -/

/-- SCK's return, an equalisation trial, the end of HUNT with or without a trip pending from it, and a received frame, each with what it
changes (R53, R66, R68 to R70, R75). That a trial is two commands, and that the 256 ticks between trials count for either lane, is the
model's choice (log entry 44). -/
def Obligations.LinkEventsTakeEffect : Prop :=
  ∀ s : State,
    let c := s.chip
    let l := c.lnk
    exec .sckResume s = .next (s.act fun c => c.modLnk fun l => { l with sckRunning := true }) ∧
    (∀ (lane : EqLane) (up : Bool) (before after : BitVec 16), c.linkUp = true → l.adaptHold = false →
      let b := l.boost lane
      let does := fun (h : Lnk → Lnk) => exec (.eqTrial lane up before after) s = .next (s.act fun c => c.modLnk h)
      let atBound := if up then l.act.eqMax.toNat ≤ b.toNat else b.toNat ≤ l.act.eqMin.toNat
      (l.eqTrial = none → (∀ t, l.lastTrial = some t → 256 ≤ (c.dev.tick - t).toNat) →
        (atBound → does fun l => { l with lastTrial := some c.dev.tick, eqEdge := true }) ∧
        (¬ atBound → does fun l =>
          { l.setBoost lane (if up then b + 1 else b - 1) with
            lastTrial := some c.dev.tick, eqTrial := some ⟨lane, b, before, c.dev.tick⟩ })) ∧
      (∀ x : EqTrial, l.eqTrial = some x →
        ((c.dev.tick - x.start).toNat < 256 → exec (.eqTrial lane up before after) s = .next s) ∧
        (256 ≤ (c.dev.tick - x.start).toNat → x.eye.toNat ≤ after.toNat → does fun l => { l with eqTrial := none }) ∧
        (256 ≤ (c.dev.tick - x.start).toNat → after.toNat < x.eye.toNat →
          does fun l => { l.setBoost x.lane x.boost with eqTrial := none }))) ∧
    (∀ x : HuntLock, c.dev.state = .hunt → huntConsistent x = true → c.dev.pendingTrips = [] →
      (∀ v ∈ x.inputs.slack.toList, 4 < v.toNat) →
      ∃ t, exec (.huntSyncLock x) s = .next t ∧ t.pending = s.pending ∧ t.mem = s.mem ∧ t.chip.dev.state = .admitting ∧
        t.chip.dev.tick = 0 ∧ t.chip.dev.temp = x.inputs.temp ∧ t.chip.pwr.railMv = x.inputs.railMv ∧ t.chip.lnk.ticklen = x.spacing1 ∧ t.chip.lnk.frameNo = x.h2.frameNo ∧ t.chip.lnk.txOfs = 0 ∧
        t.chip.sec = c.sec ∧ t.chip.cars = c.cars ∧ t.chip.threads = c.threads) ∧
    (∀ (x : HuntLock) (p : BitVec 5 × Word) (later : List (BitVec 5 × Word)), c.dev.state = .hunt → huntConsistent x = true →
      c.dev.pendingTrips = p :: later →
      ∃ t, exec (.huntSyncLock x) s = .next t ∧ t.pending = s.pending ∧ t.mem = s.mem ∧ t.chip.dev.state = .tripped ∧
        t.chip.dev.cause = p.1 ∧ t.chip.dev.syndrome = p.2 ∧ t.chip.dev.tick = 0) ∧
    (∀ fr : DownFrame, c.linkUp = true → l.frameIn = false →
      let good := decide (popCount (fr.header.sync ^^^ downSync) ≤ 2) && headerGood fr.header
      ∃ t, exec (.downFrame fr) s = .next t ∧ SameMachine s t ∧ t.mem = s.mem ∧ t.chip.threads = c.threads ∧
        t.chip.lnk.frameIn = true ∧ t.chip.lnk.section_ = l.section_ ∧
        (good = true → t.chip.lnk.darkRun = 0 ∧ t.chip.lnk.darkIn = false ∧ t.chip.lnk.nextWall = some fr.header.wall ∧
          t.chip.lnk.received = (if sectionGood l fr then fr.packets else []) ∧ t.chip.lnk.sectBad = !sectionGood l fr) ∧
        (good = false → t.chip.lnk.darkIn = true ∧ t.chip.lnk.received = [] ∧ t.chip.lnk.nextWall = none ∧
          (l.darkRun ≠ 31 → t.chip.lnk.darkRun = l.darkRun + 1) ∧ t.chip.lnk.txOfs = l.txOfs ∧ t.chip.lnk.rx0 = l.rx0))

/-- UP_SLOT sends the tick's status and results where every sample of cycles 0 to 3 reads 0. Where one reads 1 it defers: nothing is
sent, the deferral is counted, and the tick's packets have the effects they had. A slot that is sent returns the count of consecutive
deferrals to 0, and at LNK_DARKMAX the device trips with SLOT_DEFER (R67). -/
def Obligations.SlotIsSentOrDeferred : Prop :=
  ∀ s : State,
    let c := s.chip
    let l := c.lnk
    (∀ listen : BitVec 16, c.linkUp = true → l.noFit = false → l.slot = none → l.deferred = false → c.badWord 3 (fun _ => true) = none →
      ∃ t, exec (.upSlot listen) s = .next t ∧ t.mem = s.mem ∧ t.pending = s.pending ∧ t.chip.dev = c.dev ∧ t.chip.cars = c.cars ∧
        t.chip.axes = c.axes ∧ t.chip.threads = c.threads ∧ t.chip.doors = c.doors ∧ t.chip.sps = c.sps ∧
        (listen = 0 → t.chip.lnk.slot.map (fun x => (x.status, x.results)) = some (l.status, l.results) ∧
          t.chip.lnk.defRun = 0 ∧ t.chip.lnk.deferred = false ∧ t.chip.lnk.defTotal = l.defTotal) ∧
        (listen ≠ 0 → t.chip.lnk.slot = none ∧ t.chip.lnk.deferred = true ∧ t.chip.lnk.defTotal = l.defTotal + 1 ∧
          t.chip.sec = c.sec ∧ t.chip.journal = c.journal ∧ (l.defRun ≠ 31 → t.chip.lnk.defRun = l.defRun + 1))) ∧
    (∀ cycle : BitVec 14, (c.dev.state = .admitting ∨ c.dev.state = .run) → l.sckRunning = true →
      (l.act.darkMax.toNat ≤ l.defRun.toNat →
        ∃ t, exec (.slotDeferTrip cycle) s = .next t ∧ TrippedBy 3 (l.defIndex.setWidth 32) cycle s t) ∧
      (l.defRun.toNat < l.act.darkMax.toNat → exec (.slotDeferTrip cycle) s = .next s))

/-- TICK_START with the link up advances DEV_TICK by one, puts the packets of the frame of the ended tick up for execution and
copies its wall time, and empties the results; a tick without a frame is dark: no packets, and the wall time stands (R32, R40, R42,
R59, R68). The stored settings become the ones acted on: link and power in every state, threads in RUN, and the channels of a car while
its islands are on (R386). An accepted request changes CAR_SERVICE unless a fault stands (R249), and an accepted switch-off leaves the car
ISLAND_OFF with its axes OFF, its move queues empty and none of its threads running (R90, R193). The temperature is taken with its warning
and its run above TRIP, and a slack at the floor trips with AVS_MARGIN (R87, R89). A car with its islands on takes its position, speed,
nearest landing and level (R256), its run-time count (R264) and its scheduled mode (R270); pads and readbacks are latched and checked
(R309), a door current above its bound is a fault (R275), a switch code is decoded with its slip check (R228, R262), and each tap is
converted, decided and tracked, with its clamp bits (R297 to R301). A change due at the boundary before goes first (log entry 43); at which
command of the tick each of these is taken is log entry 83. Where the scan engine has read an uncorrectable word in the ended tick, that
tick tripped (R338, R340). -/
def Obligations.TickStartAdvancesTime : Prop :=
  (∀ (s : State) (x : TickInputs), s.chip.linkUp = true → s.chip.changeDue = false → s.chip.running = true →
    s.chip.scanFails s.chip.lnk.ticklen.toNat = true →
    ∃ t, exec (.tickStart x) s = .next t ∧ t.pending = s.pending ∧ t.mem = s.mem ∧ t.chip.dev.tick = s.chip.dev.tick + 1 ∧
      t.chip.dev.state = .tripped ∧ t.chip.dev.cause = 5) ∧
  (∀ (s : State) (x : TickInputs), s.chip.linkUp = true → s.chip.changeDue = false →
    (∀ cycle, s.chip.scanStop = some cycle → s.chip.scanFails cycle = false) →
    ∃ t, exec (.tickStart x) s = .next t ∧ t.pending = s.pending ∧ t.mem = s.mem ∧ t.chip.dev.tick = s.chip.dev.tick + 1 ∧
      t.chip.lnk.results = [] ∧ t.chip.lnk.frameIn = false ∧ t.chip.lnk.slot = none ∧
      (s.chip.lnk.frameIn = true →
        t.chip.lnk.section_ = s.chip.lnk.received ∧ t.chip.dev.wall = s.chip.lnk.nextWall.getD s.chip.dev.wall) ∧
      (s.chip.lnk.frameIn = false → t.chip.lnk.section_ = [] ∧ t.chip.dev.wall = s.chip.dev.wall) ∧
      t.chip.lnk.act = s.chip.lnk.cfg ∧ t.chip.pwr.act = s.chip.pwr.cfg ∧
      t.chip.dev.temp = x.temp ∧ t.chip.dev.otWarn = decide (s.chip.pwr.cfg.tempWarn.toInt ≤ x.temp.toInt) ∧
      t.chip.dev.hotRun = (if s.chip.pwr.cfg.tempTrip.toInt ≤ x.temp.toInt then
        (if s.chip.dev.hotRun.toNat < 4 then s.chip.dev.hotRun + 1 else 4) else 0) ∧
      (∀ m : Fin 16, (∀ j : Fin 16, (x.slack[m.val]).toNat ≤ (x.slack[j.val]).toNat) →
        (∀ j : Fin 16, j < m → (x.slack[m.val]).toNat < (x.slack[j.val]).toNat) →
        t.chip.pwr.worst = x.slack[m.val] ∧
        (4 < (x.slack[m.val]).toNat → t.chip.dev.state = s.chip.dev.state) ∧
        ((x.slack[m.val]).toNat ≤ 4 → s.chip.dev.state = .admitting ∨ s.chip.dev.state = .run →
          t.chip.dev.state = .tripped ∧ t.chip.dev.cause = 12 ∧
          t.chip.dev.syndrome = field (if s.chip.running then s.chip.pwr.vid else s.chip.pwr.cfg.vboot) 4 ||| BitVec.ofNat 32 m.val)) ∧
      (s.chip.running = true → ∀ n : ThreadId,
        (t.chip.threads[n.val]).budgetAct = (s.chip.threads[n.val]).budget ∧
        (t.chip.threads[n.val]).stallMaxAct = (s.chip.threads[n.val]).stallMax ∧
        (t.chip.threads[n.val]).actMaskAct = (s.chip.threads[n.val]).actMask ∧
        (t.chip.threads[n.val]).seeMaskAct = (s.chip.threads[n.val]).seeMask) ∧
      ∀ k : CarId,
        ((s.chip.cars[k.val]).powerOff = false → (s.chip.cars[k.val]).on = true →
          (t.chip.loops[(carLoop k).val]).act = (s.chip.loops[(carLoop k).val]).cfg ∧
          (∀ i : FbkId, i = machine k ∨ i = hoistway k → (t.chip.fbks[i.val]).act = (s.chip.fbks[i.val]).cfg) ∧
          (∀ i : Fin 4, (t.chip.fes[(carFe k i).val]).act = (s.chip.fes[(carFe k i).val]).cfg) ∧
          ∀ d : DoorId, d = frontDoor k ∨ d = rearDoor k → (t.chip.doors[d.val]).act = (s.chip.doors[d.val]).cfg ∧
            ∀ i : Fin 3, (t.chip.loops[(doorLoop d i).val]).act = (s.chip.loops[(doorLoop d i).val]).cfg) ∧
        ((s.chip.cars[k.val]).powerOff = false → ∀ dest : Service, (s.chip.cars[k.val]).goto = some dest →
          (t.chip.cars[k.val]).goto = none ∧
          ((t.chip.cars[k.val]).faultActive = false → (t.chip.cars[k.val]).service = dest)) ∧
        ((s.chip.cars[k.val]).powerOff = true →
          (t.chip.cars[k.val]).on = false ∧ (t.chip.cars[k.val]).service = .islandOff ∧ (t.chip.cars[k.val]).ilk.req = 0 ∧
          (∀ a : AxisId, carOfAxis a = k → (t.chip.axes[a.val]).st = .off ∧ (t.chip.axes[a.val]).queue = []) ∧
          ∀ n : ThreadId, carOfThread n = some k →
            (t.chip.threads[n.val]).st ≠ .ready ∧ (t.chip.threads[n.val]).st ≠ .waiting) ∧
        ((s.chip.cars[k.val]).powerOff = false → (s.chip.cars[k.val]).on = true →
          let z := s.chip.cars[k.val]
          let y := t.chip.cars[k.val]
          let f := t.chip.fbks[(machine k).val]
          let a := t.chip.axes[(carAxis k).val]
          let win := s.chip.sps.get (.car 4 k)
          let calm := ∀ m : Fin 16, 4 < (x.slack[m.val]).toNat
          (y.pos = BitVec.ofInt 32 f.measured ∧ y.speed = f.speed ∧ y.landing = BitVec.ofNat 8 (y.nearestLanding y.pos) ∧
            (y.level = true ↔ ∃ l w, y.landing? y.landing.toNat = some l ∧ win = some w ∧ (y.pos.toInt - l.p.toInt).natAbs ≤ w.toNat)) ∧
          (let rests := (a.st = .idle ∨ a.st = .held) ∧ y.speed = 0 ∧
             ∃ w, win = some w ∧ (y.pos.toInt * unit - a.e.toInt).natAbs ≤ w.toNat * 2 ^ 48
           (z.run.running = false → y.run = z.run) ∧
           (z.run.running = true → rests → y.run = { z.run with running := false }) ∧
           (z.run.running = true → ¬ rests → y.run = { z.run with ticks := satInc z.run.ticks })) ∧
          ((z.schedule = none ∨ z.modeHold = true → y.mode = z.mode ∧ y.schedSel = z.schedSel) ∧
           ∀ tb e, z.schedule = some tb → z.modeHold = false → tb.select t.chip.dev.wall = some e →
             y.schedSel = some e ∧ (z.schedSel = some e → y.mode = z.mode ∧ y.modeSrc = z.modeSrc) ∧
             (z.schedSel ≠ some e → y.mode = e.2 ∧ y.modeSrc = true)) ∧
          (calm → y.ilk.pad = x.pads[k.val] ∧ y.ilk.out = x.pads[k.val] ∧ y.ilk.rb = x.readbacks[k.val] ∧
            ∀ e : Fin 3,
              let bad := z.ilk.skip[e.val] = 0 ∧ ((x.pads[k.val]).getLsbD e.val ≠ z.ilk.permit.getLsbD e.val ∨
                (x.readbacks[k.val]).getLsbD e.val ≠ z.ilk.permit.getLsbD e.val)
              (y.ilk.mismatch.getLsbD e.val = true ↔ bad) ∧
              (y.ilk.twice.getLsbD e.val = true ↔ bad ∧ z.ilk.missed.getLsbD e.val = true) ∧
              y.ilk.skip[e.val] = (if z.ilk.skip[e.val] = 0 then 0 else z.ilk.skip[e.val] - 1)) ∧
          (∀ d : DoorId, d = frontDoor k ∨ d = rearDoor k → (s.chip.doors[d.val]).cfg.type ≠ .none →
            (s.chip.doors[d.val]).st ≠ .fault → t.chip.running = true →
            let q := t.chip.doors[d.val]
            let above := fun (m : Word) (code zero : BitVec 12) => 3 * m.toNat < 2 * (inputCurrent q code zero).toInt.natAbs
            (∃ m, s.chip.sps.get (.door 0 d) = some m ∧ (above m (x.current[d.val]).1 q.zeroU ∨
              (q.act.type ≠ .bdc ∧ above m (x.current[d.val]).2 q.zeroV))) →
            q.st = .fault ∧ q.faultActive = true ∧ q.faultCause = 2) ∧
          (calm → (s.chip.fbks[(hoistway k).val]).cfg.mode = .switch →
            let tick := t.chip.dev.tick
            let q := (s.chip.fbks[(hoistway k).val]).configure.latch (t.chip.stamp 0) t.chip.lnk.ticklen.toNat tick
            let g := q.switchLatch tick (t.chip.stamp 0) x.switches[k.val] y.pos
            (g.zoneLine = q.zoneLine → t.chip.fbks[(hoistway k).val] = g ∧ y.slipChecks = z.slipChecks) ∧
            (g.zoneLine ≠ q.zoneLine → t.chip.fbks[(hoistway k).val] = { g with t0 := none } ∧
              ∀ edge, z.goto = none → z.service = .homing ∨ z.service = .inspect ∨ z.service = .in_ →
                y.nearestEdge (g.t0.getD y.pos).toInt = some edge →
                let e := (g.t0.getD y.pos).toInt - edge
                y.slipLast = clampInt 20 e ∧ y.slipChecks = z.slipChecks + 1 ∧
                ∀ w, s.chip.sps.get (.car 6 k) = some w → w.toNat < e.natAbs → y.service = .stoppedFault ∧ y.faultCause = 1)) ∧
          ∀ i : Fin 8,
            let mv := (x.tapMv[(carTap k i).val]).toNat
            let u := s.chip.taps[(carTap k i).val]
            let w := t.chip.taps[(carTap k i).val]
            let live := y.ilk.clampLive.getLsbD i.val
            (5000 < mv → w.code = 255) ∧
            (mv ≤ 5000 → ((w.code.toNat : Int) - (min 255 (mv * 256 / 5000) : Nat)).natAbs ≤ 2) ∧
            (5250 < mv → live = true) ∧ (mv ≤ 5150 → live = false) ∧
            y.ilk.clampSticky.getLsbD i.val = (z.ilk.clampSticky.getLsbD i.val || live) ∧
            (s.chip.tapUsed (carTap k i) = false ∨ s.chip.thWin k = none →
              w = { u with code := w.code, tracking := false, outWin := false, high := false }) ∧
            ∀ h, s.chip.tapUsed (carTap k i) = true → s.chip.thWin k = some h → w = u.latch h w.code)) ∧
  (∀ (u : Tap) (w : ThWin) (v : Byte),
    let y := u.latch w v
    let t : Nat := if u.tracking then u.t.toNat else (BitVec.ofNat 8 ((w.lo + w.hi) / 2)).toNat
    let h0 := if u.tracking then u.h else BitVec.ofNat 16 (w.hi * 256)
    let lo0 := if u.tracking then u.lo else BitVec.ofNat 16 (w.lo * 256)
    let fresh := u.tracking = false ∨ u.fresh = true
    let track := fun (e : BitVec 16) => BitVec.ofInt 16 ((e.toNat : Int) + ((v.toNat : Int) * 256 - e.toNat) / 2 ^ w.tc)
    let des := (y.h.toNat + y.lo.toNat) / 512
    y.code = v ∧ y.tracking = true ∧ y.fresh = false ∧
      (fresh → y.high = decide (t ≤ v.toNat)) ∧
      (¬ fresh → u.high = true → y.high = decide ((t : Int) - w.hys < v.toNat)) ∧
      (¬ fresh → u.high = false → y.high = decide (t + w.hys ≤ v.toNat)) ∧
      y.h = (if y.high then track h0 else h0) ∧ y.lo = (if y.high then lo0 else track lo0) ∧
      y.outWin = !decide (w.lo ≤ des ∧ des ≤ w.hi) ∧
      y.t = BitVec.ofNat 8 (if des < w.lo then w.lo else if w.hi < des then w.hi else des)) ∧
  (∀ (c : Chip) (temp : BitVec 16),
    let listed := fun (c : Chip) => c.journal.queue.map fun r => (r.type, r.body)
    (c.pwr.act.tempWarn.toInt ≤ temp.toInt → c.dev.otWarn = false → c.journal.queue.length < c.journal.places →
      listed (c.tempBoundary temp) = listed c ++ [(132, bytesBE temp 2)]) ∧
    (temp.toInt < c.pwr.act.tempWarn.toInt ∨ c.dev.otWarn = true → listed (c.tempBoundary temp) = listed c))

/-! ### Admission and islands (R75 to R78, R91, R92, R140, R143, R158, R164, R165) -/

/-- The five steps of admission, each with what it does when it passes and when it fails, the boundary that ends a step, the entry into
RUN, the power-up of a car and the end of a program load (R75 to R78, R91, R92, R130, R158, R164, R165, R355). That a step acts or trips
at its command anywhere in its window is log entry 28, and that data RAM and the cam tables are cleared at the command of step 2 is log
entry 30: both are the model's choice. What recovery reads as the latest record, and that a supply warning holds its rewrites up, is the
model's reading (log entry 80). A thread halted in ADMIT stays halted at the entry into RUN (R158; log entry 84). -/
def Obligations.AdmissionAndIslandEvents : Prop :=
  ∀ s : State,
    let c := s.chip
    (∀ (n : Fin 5) (bits : BitVec 4096), c.lnk.sckRunning = true → c.dev.state = .admitting → c.dev.phase.toNat = n.val + 1 →
      c.dev.stepRun = false → c.dev.stepHold = false →
      (n = 0 → c.badWord 5 (fun _ => true) = none → ((c.sec.startUp bits).2 = 0 → ∃ t, exec (.admissionStep n ⟨.passed, bits⟩) s = .next t ∧ t.pending = s.pending ∧
          t.mem = s.mem ∧ t.chip.sec = (c.sec.startUp bits).1 ∧ t.chip.dev = { c.dev with stepRun := true }) ∧
        ((c.sec.startUp bits).2 ≠ 0 → ∃ t, exec (.admissionStep n ⟨.passed, bits⟩) s = .next t ∧ TrippedBy 8 3 0 s t)) ∧
      (n = 0 → ∀ w, c.badWord 5 (fun _ => true) = some w → ∃ t, exec (.admissionStep n ⟨.passed, bits⟩) s = .next t ∧
        TrippedBy 5 (2#32 <<< 28 ||| (BitVec.ofNat 20 w).setWidth 32) 0 s t) ∧
      (n = 4 → exec (.admissionStep n ⟨.passed, bits⟩) s = .next (s.act fun c => c.modDev fun d => { d with stepRun := true })) ∧
      (n = 2 →
        let words := fun w => s.mem.lengthOk && decide (w < s.mem.imageLength)
        let digest := if s.mem.lengthOk then s.mem.imageDigest s.mem.imageLength else c.sec.progDigest
        let sps : BitVec 256 := c.sps.digest
        let differs := ∃ d, c.sec.progSeal = some d ∧ s.mem.lengthOk = true ∧ digest ≠ d
        let changed := c.sec.sealSt = .sealed_ ∧ sps ≠ c.sec.spsDigest
        (∀ w, c.badWord 1 words = some w → ∃ t, exec (.admissionStep n ⟨.passed, bits⟩) s = .next t ∧
          TrippedBy 5 (1#32 <<< 28 ||| (BitVec.ofNat 20 w).setWidth 32) 0 s t) ∧
        (c.badWord 1 words = none →
          ∃ t, exec (.admissionStep n ⟨.passed, bits⟩) s = .next t ∧ t.chip.sec.progDigest = digest ∧
            (differs → TrippedBy 7 (digest.extractLsb' 224 32) 0 s t ∧ t.chip.dev.digest = 3) ∧
            (¬ differs → changed → TrippedBy 7 (sps.extractLsb' 224 32) 0 s t) ∧
            (¬ differs → ¬ changed → t.pending = s.pending ∧ t.mem = s.mem ∧ t.chip.dev = { c.dev with stepRun := true } ∧
              t.chip.sec = { c.sec with progDigest := digest } ∧ t.chip.threads = c.threads))) ∧
      (n = 3 →
        let audit := s.mem.slots 0 4096
        let oper := s.mem.slots 0x10000 12288
        let opened := fun (v : SlotView) => decide (v.st = 0x4F)
        let rewrites := fun (base : Nat) (l : List SlotView) => (l.filter opened).map fun v =>
          MemWrite.journal (base + 16 * v.index) ((s.mem.journal.readBE (base + 16 * v.index) &&& 0x00FFFFFF) ||| 0x7A000000)
        let types := fun (c : Chip) => c.journal.queue.map fun r => r.type
        (∀ e, c.recoveryFault s.mem = some e → ∃ t, exec (.admissionStep n ⟨.passed, bits⟩) s = .next t ∧
          TrippedBy 6 (e.address.setWidth 32) 0 s t ∧ t.chip.journal.fault = true) ∧
        (c.recoveryFault s.mem = none → ∃ t, exec (.admissionStep n ⟨.passed, bits⟩) s = .next t ∧ t.pending = s.pending ∧
          t.chip.dev = { c.dev with stepRun := true } ∧ t.chip.sec = c.sec ∧ t.chip.cars = c.cars ∧ t.chip.journal.ready = true ∧
          types t.chip = 128 :: ((audit.filter opened).map (fun _ => 129) ++ (oper.filter opened).map (fun _ => 129) ++
            (if c.journal.volatile.isSome ∧ c.journal.lwState ≠ 0 then [130] else []) ++ types c) ∧
          t.chip.journal.queue.head?.map (fun r => r.body) = some (c.gapBody (c.journal.admission - 1)
            (latestOf (c.journal.admission - 1 + 1) (committed audit).getLast? (committed oper).getLast?)) ∧
          (c.warning = true → t.mem = s.mem ∧ t.chip.journal.tornWaits = true) ∧
          (c.warning = false → t.mem = s.mem.apply (rewrites 0 audit ++ rewrites 0x10000 oper) ∧
            t.chip.journal.tornWaits = false))) ∧
      (n = 1 → ∃ t, exec (.admissionStep n ⟨.passed, bits⟩) s = .next t ∧ t.mem.ram = [] ∧ t.mem.cam = [] ∧ t.mem.prog = s.mem.prog ∧
        t.mem.journal = s.mem.journal ∧ (∀ f ∈ t.chip.flaws, f.memory ≠ 0 ∧ f.memory ≠ 2) ∧ t.chip.sec = c.sec ∧
        t.chip.dev = { c.dev with stepRun := true }) ∧
      (∀ (domain : BitVec 6) (item : Byte), domain.toNat ∈ stepDomains n →
        ∃ t, exec (.admissionStep n ⟨.islandTest domain item, bits⟩) s = .next t ∧
          TrippedBy 9 ((0 : BitVec 16) ++ item ++ (0 : BitVec 2) ++ domain) 0 s t)) ∧
    (∀ x : TickInputs, c.linkUp = true → c.changeDue = false → c.dev.state = .admitting → c.dev.stepRun = true → c.dev.rerun = false →
      (∀ cycle, c.scanStop = some cycle → c.scanFails cycle = false) →
      let age := (c.dev.tick + 1 - c.dev.stepStart).toNat
      let gained := fun (i : Nat) => c.dev.steps ||| BitVec.ofNat 5 (2 ^ i)
      let ends := fun (n len : Nat) (next : BitVec 4) (more : State → Prop) => c.dev.phase.toNat = n →
        ∃ t, exec (.tickStart x) s = .next t ∧
          (age < len → t.chip.dev.phase = c.dev.phase ∧ t.chip.dev.steps = c.dev.steps ∧ t.chip.dev.stepRun = true) ∧
          (len ≤ age → t.chip.dev.phase = next ∧ t.chip.dev.stepRun = false ∧ t.chip.dev.stepStart = c.dev.tick + 1 ∧ more t)
      ends 1 64 2 (fun t => t.chip.dev.steps = gained 0) ∧
      ends 2 512 3 (fun t => t.chip.dev.steps = gained 1 ∧ t.chip.dev.digest = 0) ∧
      ends 3 512 (if c.dev.steps.getLsbD 4 then 6 else 4) (fun t =>
        (c.sec.progSeal = none → t.chip.dev.digest = 2 ∧ t.chip.dev.steps = c.dev.steps) ∧
        (c.sec.progSeal ≠ none → s.mem.imageOk = false → t.chip.dev.digest = 3 ∧ t.chip.dev.steps = c.dev.steps) ∧
        (c.sec.progSeal ≠ none → s.mem.imageOk = true → t.chip.dev.digest = 1 ∧ t.chip.dev.steps = gained 2 ∧
          ∀ n : ThreadId,
            let y := t.chip.threads[n.val]
            let vectors := s.mem.progWord (16 + 4 * n.val)
            let limits := s.mem.progWord (17 + 4 * n.val)
            let masks := s.mem.progWord (18 + 4 * n.val)
            y.entry = slice vectors 16 16 ∧ y.restart = slice vectors 0 16 ∧ y.budget = slice limits 16 14 ∧
              y.stallMax = (if slice limits 0 16 = (0 : BitVec 16) then 64 else slice limits 0 16) ∧
              (36 ≤ n.val → n.val < 44 → y.actMask = slice masks 16 12 ∧ y.seeMask = slice masks 0 12)) ∧
        (c.dev.steps.getLsbD 4 = false → t.chip.dev.stepHold = c.warning ∧
          (c.warning = false → t.chip.journal.admission = c.journal.nextAdmission + 1))) ∧
      ends 4 512 5 (fun t => t.chip.dev.steps = gained 3) ∧
      ends 5 400 6 (fun t => t.chip.dev.steps = gained 4)) ∧
    (c.lnk.sckRunning = true → c.mayRun = true → (∀ n : Fin 4, c.unfit n = []) →
      exec .enterRun s = .next (s.act fun c =>
        { ((c.modDev fun d => { d with state := .run, phase := 7, runTicks := 1 }).modSec fun x =>
            { x with tapEn := false, tap := .testLogicReset }) with
          threads := vmap (fun t x => if x.budgetAct = 0 ∨ x.st = .halted then x
            else if t.val < 36 then { x with st := .dark } else x.start x.entry) c.threads })) ∧
    (∀ k : CarId, c.lnk.sckRunning = true → c.running = true → c.pwr.islandHold = false → (∀ j : CarId, (c.cars[j.val]).rising = false) →
      (c.cars[k.val]).powerPending = true → (c.cars[k.val]).powerFresh = false →
      (∀ j : CarId, j < k → (c.cars[j.val]).powerPending = false ∨ (c.cars[j.val]).powerFresh = true) →
      exec .islandPowerupStart s = .next (s.act fun c => c.modCar k fun x => { x with powerPending := false, power := .up c.dev.tick })) ∧
    (∀ (k : CarId) (start : BitVec 48) (test : IslandTest), (c.cars[k.val]).power = .up start → c.lnk.sckRunning = true → c.running = true →
      (test.item ≠ 0 → 64 ≤ (c.dev.tick - start).toNat → test.domain.toNat / 3 = k.val → ∃ t, exec (.islandPowerupDone k test) s = .next t ∧ t.chip.dev.state = .tripped ∧ t.chip.dev.cause = 9 ∧
        t.chip.dev.syndrome = (0 : BitVec 16) ++ test.item ++ (0 : BitVec 2) ++ test.domain ∧
        (t.chip.cars[k.val]).islandItem = test.item ∧ t.mem = s.mem) ∧
      (test.item = 0 → (∀ z ∈ test.zero.toList, zeroBad z = false) → 192 ≤ (c.dev.tick - start).toNat → c.latching = true →
        (c.cars[k.val]).service = .islandOff → (c.cars[k.val]).threadFaultPending = false →
        ∃ t, exec (.islandPowerupDone k test) s = .next t ∧ t.pending = s.pending ∧ t.mem = s.mem ∧ t.chip.dev = c.dev ∧
          t.chip.sps = c.sps ∧ (t.chip.cars[k.val]).power = .on ∧ (t.chip.cars[k.val]).service = .out ∧
          (t.chip.cars[k.val]).islandResult = 1 ∧ (t.chip.cars[k.val]).ilk.permit = 0 ∧
          (t.chip.axes[(carAxis k).val]).st = .idle ∧ (t.chip.axes[(doorAxis (frontDoor k)).val]).st = .idle ∧
          (t.chip.axes[(doorAxis (rearDoor k)).val]).st = .idle ∧
          ∀ j : CarId, j ≠ k → t.chip.cars[j.val] = c.cars[j.val])) ∧
    (∀ (l : Load) (want : BitVec 64) (credit : Option Nat), c.sec.load = some l → l.sealing = some (want, credit) →
      c.lnk.sckRunning = true → c.dev.state = .admitting → c.warning = false → c.badWord 1 (fun w => decide (w < l.n.toNat)) = none →
      let digest := s.mem.imageDigest l.n.toNat
      ∃ t, exec .ploadSealDone s = .next t ∧ t.pending = s.pending ∧ t.mem = s.mem ∧ t.chip.sec.load = none ∧
        t.chip.sec.progDigest = digest ∧
        (head8 digest = want → t.chip.sec.progSeal = some digest ∧ t.chip.dev.rerun = true) ∧
        (head8 digest ≠ want → t.chip.sec.progSeal = c.sec.progSeal ∧ t.chip.dev = c.dev) ∧
        (c.journal.queue.length < c.journal.places → (t.chip.journal.queue.map fun r => (r.type, r.credit)) =
          (c.journal.queue.map fun r => (r.type, r.credit)) ++ [(135, credit)]))

/-- The outcome of a self-test stands in DEV_TESTRES, and the test is over: the entropy report, the reference check, the enable
pulse test as its steps decided, the gate driver and excitation tests by what they read, and a scrub pass. A reference check that fails
trips the device, a failing gate faults its door (R93, R295, R312, R329, R330, R344). The DETAIL of the reference and entropy tests, the
order in which gate and bridge readings are judged, and that LAST reads 2 after a failure are the model's choice (log entry 33). -/
def Obligations.SelftestsEnd : Prop :=
  ∀ (s : State) (a : ActiveTest), s.chip.lnk.sckRunning = true → s.chip.dev.tests = [a] →
    let c := s.chip
    let age := (c.dev.tick - a.start).toNat
    let ends := fun (i : Instr) (pass : Bool) (detail : Byte) (more : Chip → Chip) => exec i s = .next (s.act fun c =>
      more ((c.modDev fun d => { d with tests := [], testLast := if pass then 1 else 2, testDetail := detail }).release a.credit))
    (a.code = 0x04 → ∀ k,
      ends (.selftestComplete 0x04 k .none) (!c.entropyFailed) (c.sec.entropyCause.setWidth 8) id) ∧
    (a.code = 0x03 → ∀ (k : CarId) (run : BitVec 11) (vana : BitVec 16), 1024 * 16384 ≤ age * c.lnk.ticklen.toNat →
      let mon := (c.pwr.railMv[3]).toNat
      let near := 100 * ((vana.toNat : Int) - mon).natAbs ≤ 2 * mon
      let i := Instr.selftestComplete 0x03 k (.reference run vana)
      (run.toNat < 16 → near → ends i true 0 id) ∧
      (16 ≤ run.toNat → ends i false 1 fun c => c.trip 9 0x130 0) ∧
      (run.toNat < 16 → ¬ near → ends i false 2 fun c => c.trip 9 0x230 0)) ∧
    (a.code = 0x10 → ∀ (p : PulseTest) (r : Byte), (c.cars[a.car.val]).ilk.test = some p → p.result = some r →
      ends (.selftestComplete 0x10 a.car .none) (r = 0) r fun c =>
        let c1 := c.modIlk a.car fun i => { i with test := none }
        if r = 0 then c1.modCar a.car fun x => { x with pulseOk := true } else c1) ∧
    (a.code = 0x11 → 16 ≤ age → ∀ (alone : Vector (Vector (BitVec 6) 6) 2) (legs : Vector (Vector (BitVec 6) 3) 2),
      let i := Instr.selftestComplete 0x11 a.car (.gates alone legs)
      (c.gateFailure a.car alone legs = none → ends i true 0 id) ∧
      (∀ d detail, c.gateFailure a.car alone legs = some (d, detail) → ends i false detail fun c => c.doorFault d 10 (c.stamp 0)) ∧
      ((∀ (n : Fin 2) (g : Fin 6), (alone[n.val])[g.val] = 1#6 <<< g.val) → (∀ (n : Fin 2) (x : Fin 3), (legs[n.val])[x.val] = 0) →
        c.gateFailure a.car alone legs = none)) ∧
    (a.code = 0x12 → ∀ (sense : Vector (BitVec 16) 4) (low high : BitVec 32),
      let detail := bridgeDetail sense low high
      (512 ≤ age ∨ detail ≠ 0) → ends (.selftestComplete 0x12 a.car (.bridge sense low high)) (detail = 0) detail fun c =>
        c.modFe (carFe a.car 0) fun f => { f with samples := [] }) ∧
    (∀ n : BitVec 12, a.code = 0x01 → a.watching = [(0, n, true)] →
      ends (.scrubPassEnd false) true (BitVec.ofNat 8 (min 255 n.toNat)) id)

/-! ### Sessions and threads (R103, R112 to R114, R133, R143, R150 to R158) -/

/-- A session idle for SEC_SESSTO ticks or at its failure limit is to close, a seat at its limit is locked and its sessions are to close,
and a challenge or a first witness past its age is discarded; before that nothing happens. What is to close closes at the next tick
boundary, with its keys erased and its record (R103, R112 to R114, R133). That under a supply warning the LOCKED bit is written once the
warning has cleared is the model's reading (log entry 43); that the first reason stays but for IDLE, and that SEC_REPLAY and SEC_NONCE
return to 0 with a session that closes, is the model's choice (log entry 88). -/
def Obligations.SessionEventsClose : Prop :=
  ∀ s : State, s.chip.lnk.sckRunning = true →
    let c := s.chip
    let leaving := fun (reason : Byte) (x : Session) =>
      { x with closing := if x.closing = none ∨ x.closing = some 2 then some reason else x.closing }
    (∀ n : SessionId, n.val ≠ 0 → (c.sec.sessions[n.val]).isOpen = true →
      let fails := (recent 1024 c.dev.tick (c.sec.sessions[n.val]).macTicks).length
      (c.sec.sessTo.toNat ≤ (c.sec.sessions[n.val]).idle.toNat →
        exec (.sessionIdleTimeout n) s = .next (s.act fun c => c.modSession n (leaving 2))) ∧
      ((c.sec.sessions[n.val]).idle.toNat < c.sec.sessTo.toNat → exec (.sessionIdleTimeout n) s = .next s) ∧
      (c.sec.macMaxSession.toNat ≤ fails →
        exec (.sessionMaclimit n) s = .next (s.act fun c => c.modSession n (leaving 3))) ∧
      (fails < c.sec.macMaxSession.toNat → exec (.sessionMaclimit n) s = .next s) ∧
      (∀ reason : Byte, SessionEnded n reason s (s.act fun c => c.closeSession n reason)) ∧
      (∀ x : TickInputs, c.linkUp = true → c.changeDue = false → ∃ t, exec (.tickStart x) s = .next t ∧
        ((c.sec.sessions[n.val]).closing ≠ none → t.chip.sec.sessions[n.val] = Session.init) ∧
        ((c.sec.sessions[n.val]).closing = none → (t.chip.sec.sessions[n.val]).isOpen = true ∧
          (t.chip.sec.sessions[n.val]).seat = (c.sec.sessions[n.val]).seat ∧
          (t.chip.sec.sessions[n.val]).kMacDown = (c.sec.sessions[n.val]).kMacDown ∧
          (t.chip.sec.sessions[n.val]).idle = satInc (c.sec.sessions[n.val]).idle))) ∧
    (∀ i : Fin 7, c.seatCount i < c.sec.macMaxSeat.toNat ∨ c.sec.locked.getLsbD i.val = true ∨ c.sec.lockDue.getLsbD i.val = true →
      exec (.seatLockout i) s = .next s) ∧
    (∀ i : Fin 7, c.sec.macMaxSeat.toNat ≤ c.seatCount i → c.sec.locked.getLsbD i.val = false → c.sec.lockDue.getLsbD i.val = false →
      let mark := BitVec.ofNat 7 (2 ^ i.val)
      ∃ t, exec (.seatLockout i) s = .next t ∧ t.pending = s.pending ∧ t.mem = s.mem ∧
        t.chip.sec.locked = (if i = 0 ∨ c.warning = true then c.sec.locked else c.sec.locked ||| mark) ∧
        t.chip.sec.lockDue = (if i ≠ 0 ∧ c.warning = true then c.sec.lockDue ||| mark else c.sec.lockDue) ∧
        (∀ n : SessionId, t.chip.sec.sessions[n.val] =
          if n.val ≠ 0 ∧ (c.sec.sessions[n.val]).isOpen = true ∧ (c.sec.sessions[n.val]).seat.toNat = i.val
          then leaving 4 (c.sec.sessions[n.val]) else c.sec.sessions[n.val]) ∧
        (c.journal.queue.length < c.journal.places → (t.chip.journal.queue.map fun r => (r.type, r.body)) =
          (c.journal.queue.map fun r => (r.type, r.body)) ++ if i = 0 then [] else [(139, [BitVec.ofNat 8 i.val])]) ∧
        t.chip.sec.keys = c.sec.keys ∧ t.chip.cars = c.cars) ∧
    (∀ (n : SessionId) (h : Challenge), c.sec.challenges[n.val] = some h →
      (255 < h.age.toNat → exec (.challengeExpiry n) s = .next (s.act fun c => c.modSec fun x =>
        { x with challenges := upd x.challenges n fun _ => none })) ∧
      (h.age.toNat ≤ 255 → exec (.challengeExpiry n) s = .next s)) ∧
    (∀ w : Witness, c.sec.witness = some w →
      (c.sec.witnessTo.toNat < w.age.toNat → exec .witnessExpiry s = .next (s.act fun c => c.modSec fun x => { x with witness := none })) ∧
      (w.age.toNat ≤ c.sec.witnessTo.toNat → exec .witnessExpiry s = .next s))

/-- In the thread window of a lit thread whose slot is in turn: a slot opens with the thread's budget and runs the word at the PC; a WAITING
thread wakes with its matched events; a wedged one must restart; a restart starts at THR_RESTART with cleared registers; the third within
1,024 ticks halts it and stops its car (R15, R18, R20, R142, R150 to R158, R180). That a WAIT completed by a wake counts as executed for the
stall timer, that the halt comes in the next slot, and that work out of turn changes nothing are the model's choices (log entries 45, 46
and 5); so is that the device trips in place of the slot's work where the scan engine has read an uncorrectable word by its cycle (R338;
log entry 110). -/
def Obligations.ThreadEventsRun : Prop :=
  ∀ (t : ThreadId) (s : State), s.chip.running = true → s.chip.may .thread = true → s.chip.lit t = true →
    s.chip.inTurn t (s.chip.slotStart t) = true →
    let c := s.chip
    let x := c.threads[t.val]
    let sound := c.scanFails (c.slotStart t + 1) = false
    let becomes := fun (i : Instr) (f : Thread → Thread) => exec i s = .next (s.act fun c => (c.enter .thread).modThread t f)
    let starts := fun (i : Instr) (f : Thread → Thread) =>
      exec i s = .next (s.act fun c => ((c.enter .thread).takeTurn t (c.slotStart t)).modThread t f)
    let opened := s.act fun c => (c.enter .thread).modThread t fun x => { x with slotLeft := x.budgetAct, last := 0, ran := true }
    (x.st = .ready → x.ran = false → x.mustRestart = false → x.budgetAct ≠ 0 →
      let word := fun w => decide (w = x.pc.toNat)
      exec (.threadSlot t 0) s = .next opened ∧
      (sound → 208 ≤ x.pc.toNat → s.mem.inImage x.pc.toNat = true →
        (c.badWord 1 word = none → exec (.threadSlot t 1) s =
          .next (runWord (.thread t) (s.mem.progWord x.pc.toNat) (opened.act fun c => c.noteReads 1 word))) ∧
        (∀ n, c.badWord 1 word = some n → exec (.threadSlot t 1) s =
          .next (opened.act fun c => c.eccFail 1 n (BitVec.ofNat 14 (c.slotStart t))))) ∧
      (sound → x.pc.toNat < 208 ∨ s.mem.inImage x.pc.toNat = false →
        becomes (.threadSlot t 1) fun x =>
          { x with last := 0, ran := true, faultPc := x.pc, faultCode := 2, mustRestart := true, slotLeft := 0 })) ∧
    (x.st = .waiting → x.ran = false → x.mustRestart = false →
      becomes (.threadSlot t 0) fun x => { x with last := 0, progressed := true }) ∧
    (x.st = .waiting →
      let elapsed := x.deadline.any fun n => decide (n.toNat ≤ c.dev.tick.toNat)
      let matched := x.pend &&& x.mask
      (sound → matched ≠ 0 ∨ elapsed = true → starts (.threadWake t) fun x =>
        { x with
          st := .ready, pend := x.pend &&& ~~~matched, deadline := none, progressed := true,
          w := setReg x.w 15 ((matched ||| if elapsed then 1 else 0).setWidth 32) }) ∧
      (matched = 0 → elapsed = false → exec (.threadWake t) s = .next s)) ∧
    (sound → x.st = .ready → x.mustRestart = false → x.stallMaxAct ≠ 0 → x.stallMaxAct.toNat ≤ x.stallCnt.toNat →
      starts (.threadStall t) fun x => { x with faultPc := x.pc, faultCode := 1, mustRestart := true, slotLeft := 0 }) ∧
    (¬ sound → x.mustRestart = true → x.ran = false → c.restartWindow t < 2 →
      exec (.threadRestart t) s = .next (s.act fun c => c.scanTo s.mem (c.slotStart t + 1))) ∧
    (sound → x.mustRestart = true → x.ran = false → c.restartWindow t < 2 →
      ∃ u, exec (.threadRestart t) s = .next u ∧ SameMachine s u ∧ u.mem = s.mem ∧
        (∀ n : ThreadId, n ≠ t → u.chip.threads[n.val] = c.threads[n.val]) ∧
        let y := u.chip.threads[t.val]
        y.st = .ready ∧ y.pc = x.restart ∧ y.w = Vector.replicate 16 0 ∧ y.acc = 0 ∧ y.stack = [] ∧ y.pend = 0 ∧
          y.mustRestart = false ∧ y.restarts = c.dev.tick :: recent 1024 c.dev.tick x.restarts ∧ y.restartTotal = satInc x.restartTotal) ∧
    (sound → x.mustRestart = true → x.ran = false → 2 ≤ c.restartWindow t →
      ∃ u, exec (.threadHaltLimit t) s = .next u ∧ u.pending = s.pending ∧ u.mem = s.mem ∧
        (u.chip.threads[t.val]).st = .halted ∧ (u.chip.threads[t.val]).mustRestart = false ∧
        (∀ k, carOfThread t = some k → (c.cars[k.val]).service ≠ .islandOff →
          (u.chip.cars[k.val]).service = .stoppedFault ∧ u.chip.dev = c.dev) ∧
        (44 ≤ t.val → u.chip.dev.state = .tripped ∧ u.chip.dev.cause = 13))

/-! ### Faults of cars and doors (R231, R239 to R241, R252, R264, R268, R279, R284, R290 to R292, R310, R311) -/

/-- Each fault event of a car stops that car with its cause and touches no other; a later cause sets its bit of OTHERS (R26, R252,
Table 12-9). A cause detected earlier in the tick of the standing one, or in its cycle with a lower code, takes its place, and the one that
stood goes to OTHERS; at which cycle each code is detected is the model's reading (log entry 59). That READBACK is a fault in every state in
which the enables are checked, and not in RUN alone, is log entry 71. -/
def Obligations.CarFaultEventsStopTheCar : Prop :=
  (∀ (s : State) (k : CarId), s.chip.lnk.sckRunning = true →
    let x := s.chip.cars[k.val]
    (x.on = true → x.service ≠ .islandOff → x.service ≠ .stoppedFault → x.ilk.twice ≠ 0 →
      ∃ t, exec (.readbackFault k) s = .next t ∧ CarStopped k 8 s t ∧
        (t.chip.cars[k.val]).ilk.rbFault = true ∧ (t.chip.cars[k.val]).ilk.rbWhich = x.ilk.rbWhich ||| x.ilk.twice) ∧
    (x.ilk.twice = 0 → exec (.readbackFault k) s = .next s)) ∧
  ∀ (s : State) (k : CarId), s.chip.running = true → s.chip.lnk.sckRunning = true →
    let c := s.chip
    let x := c.cars[k.val]
    let l := carLoop k
    let y := c.loops[l.val]
    let stops := fun (i : Instr) (code : Nat) => ∃ t, exec i s = .next t ∧ CarStopped k code s t
    (x.service ≠ .islandOff → x.service ≠ .stoppedFault →
      (∀ lim, c.sps.get (.car 7 k) = some lim → x.run.running = true → lim.toNat ≤ x.run.ticks.toNat → stops (.runlimExpiry k) 7) ∧
      ((c.fbks[(machine k).val]).act.thresh.toNat < c.errorWindow (machine k) → stops (.feedbackFault (machine k)) 2) ∧
      ((c.fbks[(hoistway k).val]).act.thresh.toNat < c.errorWindow (hoistway k) → stops (.feedbackFault (hoistway k)) 3) ∧
      (x.dpcfg.missMax.toNat < x.miss.toNat → stops (.driveportFault k) 4) ∧
      (x.dpcfg.spdCnt.toNat ≤ x.spdRun.toNat → stops (.drivespeedFault k) 6) ∧
      (c.may (.loop 84) = true → y.ran = true → y.judged = true → y.fault = 0 → y.resRun = y.act.resMax →
        ∃ t, exec (.loopModelFault l) s = .next t ∧ CarStopped k 12 s t ∧ (t.chip.loops[l.val]).fault = 1) ∧
      (c.may (.loop 84) = true → y.ran = true → y.fault = 0 → y.act.satMax ≠ 0 → y.act.satMax.toNat ≤ y.satRun.toNat →
        ∃ t, exec (.loopSatFault l) s = .next t ∧ CarStopped k 12 s t ∧ (t.chip.loops[l.val]).fault = 2)) ∧
    (x.service = .stoppedFault → x.faultCause ≠ 4 → x.dpcfg.missMax.toNat < x.miss.toNat →
      ((∀ n, x.faultAt = some n → n < c.stamp 0 ∨ n < x.missAt) → x.faultAt ≠ some x.missAt →
        exec (.driveportFault k) s = .next (s.act fun c => c.modCar k fun x =>
          { x with goto := none, faultOthers := x.faultOthers ||| 8 })) ∧
      (∀ n, x.faultAt = some n → c.stamp 0 ≤ n → (x.missAt < n ∨ (x.missAt = n ∧ 4 < x.faultCause.toNat)) →
        ∃ t, exec (.driveportFault k) s = .next t ∧ t.mem = s.mem ∧ t.chip.cars[k.val] =
          { x with
            goto := none, faultCause := 4, faultAt := some x.missAt,
            faultOthers := x.faultOthers ||| faultBit x.faultCause.toNat })) ∧
    (∃ t, exec .safePulseReadbackFault s = .next t ∧
      (x.on = true → x.service ≠ .islandOff → c.pulseChecked k = true → 2 ≤ x.ilk.pulseRun.toNat →
        (t.chip.cars[k.val]).service = .stoppedFault ∧ (t.chip.cars[k.val]).ilk.rbFault = true ∧
          (t.chip.cars[k.val]).ilk.pulseFault = true ∧ (t.chip.cars[k.val]).ilk.rbWhich = x.ilk.rbWhich) ∧
      (c.pulseChecked k = false ∨ x.ilk.pulseRun.toNat < 2 → t.chip.cars[k.val] = x))

/-- Each fault event of a door puts that door into FAULT with its gates low and touches no car; a cam-coupled door follows with
COUPLED; a cause detected earlier in the tick of the standing one, or in its cycle with a lower code, takes its place (R26, R291, R292,
Table 13-3; log entry 59). -/
def Obligations.DoorFaultEventsStopTheDoor : Prop :=
  ∀ (s : State) (d : DoorId), s.chip.running = true → s.chip.lnk.sckRunning = true →
    let c := s.chip
    let x := c.doors[d.val]
    x.inUse = true → (c.cars[(carOfDoor d).val]).on = true →
    (∀ (n : Nat) (lim : Word), x.st = .fault → x.faultAt = some n → c.stamp 0 < n ∨ (c.stamp 0 = n ∧ 4 < x.faultCause.toNat) →
      x.faultCause ≠ 4 → c.sps.get (.door 3 d) = some lim → lim.toNat ≤ x.openTimer.toNat → x.openTimer ≠ 0 →
      ∃ t, exec (.opentExpiry d) s = .next t ∧ t.mem = s.mem ∧ t.chip.cars = c.cars ∧ t.chip.doors[d.val] =
        { x with
          faultCause := 4, faultAt := some (c.stamp 0), faultOthers := x.faultOthers ||| faultBit x.faultCause.toNat }) ∧
    (x.st ≠ .fault → c.coupled d = false →
      let faults := fun (i : Instr) (code : Nat) => ∃ t, exec i s = .next t ∧ DoorFaulted d code s t
      (∀ n, x.commAt = some n → faults (.commutationFault d) 1) ∧
      (4 ≤ x.keRun.toNat → faults (.doorKeFault d) 7) ∧
      (∀ lim, c.sps.get (.door 3 d) = some lim → lim.toNat ≤ x.openTimer.toNat → x.openTimer ≠ 0 → faults (.opentExpiry d) 4) ∧
      (∀ lim, c.sps.get (.door 4 d) = some lim → lim.toNat ≤ x.closeTimer.toNat → x.closeTimer ≠ 0 → faults (.closetExpiry d) 5) ∧
      (∀ n : Fin 3,
        let l := doorLoop d n
        let y := c.loops[l.val]
        (c.may (.loop 84) = true → y.ran = true → y.judged = true → y.fault = 0 → y.resRun = y.act.resMax →
          faults (.loopModelFault l) 3) ∧
        (c.may (.loop 84) = true → y.ran = true → y.fault = 0 → y.act.satMax ≠ 0 → y.act.satMax.toNat ≤ y.satRun.toNat → faults (.loopSatFault l) 3))) ∧
    (x.st ≠ .fault → c.coupled d = true → (c.doors[(otherDoor d).val]).inUse = true → (c.doors[(otherDoor d).val]).st ≠ .fault →
      x.commAt ≠ none →
      ∃ t, exec (.commutationFault d) s = .next t ∧ (t.chip.doors[d.val]).st = .fault ∧ (t.chip.doors[d.val]).faultCause = 1 ∧
        (t.chip.doors[(otherDoor d).val]).st = .fault ∧ (t.chip.doors[(otherDoor d).val]).faultCause = 9 ∧ t.chip.cars = c.cars)

/-! ### The drive port and the enables (R38, R266 to R268, R303 to R307) -/

/-- A command frame carries its number and CRC and awaits its reply; a good reply waits for its latch, a bad or missing one counts
in MISS, and one with FAULT set stops the car (R265 to R268, Tables 12-7 and 12-8). That a framing error and a late reply count as a missing
one (LASTERR 1), that CRC, header and sequence are judged in this order, that a reply counts at its end, and that DRIVE is raised there, is
the model's reading (log entry 58). -/
def Obligations.DrivePortExchange : Prop :=
  ∀ (s : State) (k : CarId), s.chip.portRuns k = true → s.chip.lnk.sckRunning = true →
    let c := s.chip
    let x := c.cars[k.val]
    let counts := fun (i : Instr) (err : BitVec 3) (at_ : Nat) (heard : Chip → Chip) =>
      exec i s = .next (s.act fun c => (heard c).modCar k fun x =>
        { x with dpAwait := none, dpGood := false, miss := satInc x.miss, missAt := at_, dpErr := err })
    (c.may .output = true → c.frameDue k = true → x.dpAwait = none → x.dpStart ≠ some c.dev.tick →
      exec (.driveCommand k) s = .next (s.act fun c => (c.enter .output).modCar k fun x =>
        { x with dpSeq := x.dpSeq + 1, dpAwait := some x.dpSeq, dpStart := some c.dev.tick, command := c.driveFrame k x.dpSeq })) ∧
    (let f := c.driveFrame k x.dpSeq
     f.length = 12 ∧ f.take 3 = [0xD5, (1 : BitVec 4) ++ BitVec.ofNat 4 k.val, x.dpSeq] ∧ f.drop 10 = bytesBE (crc16 (f.take 10)) 2) ∧
    (∀ (seq : Byte) (r : DriveReply), x.dpAwait = some seq →
      (frameBytes r.samples = none → counts (.driveReply k r) 1 (c.replyEnd k r) id) ∧
      (∀ b, frameBytes r.samples = some b →
        let status := b.getD 3 0
        (c.replyInTime k r = false → counts (.driveReply k r) 1 (c.replyEnd k r) fun c => c.note (.reply k b)) ∧
        (c.replyInTime k r = true → replyError k seq b ≠ 0 →
          counts (.driveReply k r) (replyError k seq b) (c.replyEnd k r) fun c => c.note (.reply k b)) ∧
        (c.replyInTime k r = true → replyError k seq b = 0 → status.getLsbD 3 = false →
          exec (.driveReply k r) s = .next (s.act fun c => (c.note (.reply k b)).modCar k fun x =>
            { x with dpAwait := none, dpLatched := some (status, b.getD 4 0 ++ b.getD 5 0 ++ b.getD 6 0 ++ b.getD 7 0) })) ∧
        (c.replyInTime k r = true → replyError k seq b = 0 → status.getLsbD 3 = true → x.service ≠ .islandOff →
          x.service ≠ .stoppedFault → ∃ t, exec (.driveReply k r) s = .next t ∧ CarStopped k 5 s t))) ∧
    (x.dpAwait.isSome = true → c.frameDue k = true → x.dpStart ≠ some c.dev.tick → counts (.driveReplyMissing k) 1 (c.stamp 0) id)

/-- MATRIX_EVAL pumps exactly the enables it permits. With a matrix, the zone word or the threshold window unset it permits none;
otherwise it permits an enable in RUN without a READBACK fault exactly where the car's service allows it, its request is presented, and its
conditions hold on its main path or, in IN with its bit of ZEN and without ZLOCK, on its zone path; DRV and BRK in HOMING, INSPECT and IN
alone, BRK with DRV and with DRVEN and its readback high. A running enable pulse test takes the place of service, request and zone path. A
zone path that ends outside the zone sets ZEXIT and ZLOCK, and ZLOCK stays until both drive paths hold at speed 0 (R303 to R305, R307, R312,
Tables 14-2 and 14-3); that a lock term holds for a door not in use is log entry 75. An enable falls only where it is not pumped: with SCK running a pumped one keeps its pad, and without SCK pumping stops with it (R38, R307). Where the scan
engine has read an uncorrectable word before the Close phase, the device trips in place of the first evaluation (R338; log entry 73). -/
def Obligations.MatricesAndEnables : Prop :=
  (∀ (s : State) (k : CarId), (s.chip.cars[k.val]).on = true → s.chip.may (.close k.val) = true → s.chip.running = true →
     s.chip.stage.place < 300 → s.chip.scanFails s.chip.closeCycle = true →
     exec (.matrixEval k) s = .next (s.act fun c => c.scanTo s.mem c.closeCycle)) ∧
  (∀ (s : State) (k : CarId), (s.chip.cars[k.val]).on = true → s.chip.may (.close k.val) = true →
     (s.chip.running = true → s.chip.stage.place < 300 → s.chip.scanFails s.chip.closeCycle = false) →
     let c := s.chip
     let x := c.cars[k.val]
     let cw := c.condition k
     ∃ t, exec (.matrixEval k) s = .next t ∧ t.pending = s.pending ∧ t.mem = s.mem ∧ t.chip.axes = c.axes ∧ t.chip.doors = c.doors ∧
       t.chip.dev = c.dev ∧ (∀ j : CarId, j ≠ k → t.chip.cars[j.val] = c.cars[j.val]) ∧
       let y := t.chip.cars[k.val]
       let permit := y.ilk.permit
       y.service = x.service ∧ y.ilk.pump = permit ∧ y.ilk.pad = x.ilk.pad ∧
       let exits := (x.ilk.zgrant.getLsbD 0 = true ∨ x.ilk.zgrant.getLsbD 1 = true) ∧ x.zone = false
       (y.ilk.zexit = true ↔ x.ilk.zexit = true ∨ exits) ∧
       (c.sps.get (.ilk 1 k) = none ∨ c.sps.get (.ilk 2 k) = none ∨ c.sps.get (.ilk 3 k) = none ∨ c.sps.get (.ilk 4 k) = none ∨
         c.sps.get (.ilk 6 k) = none → permit = 0 ∧ (y.ilk.zlock = true ↔ x.ilk.zlock = true ∨ exits)) ∧
       (∀ w1 drv brk door zen : Word, c.sps.get (.ilk 1 k) = some w1 → c.sps.get (.ilk 2 k) = some drv →
         c.sps.get (.ilk 3 k) = some brk → c.sps.get (.ilk 4 k) = some door → c.sps.get (.ilk 6 k) = some zen →
         let main := fun w => maskHolds cw (mainMask w) = true
         let path := fun (w : Word) (bit : Nat) =>
           main w ∨ (zen.getLsbD bit = true ∧ x.service = .in_ ∧ y.ilk.zlock = false ∧ maskHolds cw (zoneMask w) = true)
         let base := c.running = true ∧ x.ilk.rbFault = false
         let drives := x.service = .homing ∨ x.service = .inspect ∨ x.service = .in_
         let wants := fun (e : Nat) => (c.presented k).getLsbD e = true
         let fed := x.ilk.out.getLsbD 0 = true ∧ x.ilk.rb.getLsbD 0 = true
         (y.ilk.zlock = true ↔ (x.ilk.zlock = true ∧ ¬ (main drv ∧ main brk ∧ x.speed = 0)) ∨ exits) ∧
         (x.ilk.test = none ∨ (∃ t, x.ilk.test = some t ∧ t.result.isSome = true) →
           (permit.getLsbD 0 = true ↔ base ∧ drives ∧ wants 0 ∧ path drv 0) ∧
           (permit.getLsbD 1 = true ↔ permit.getLsbD 0 = true ∧ fed ∧ wants 1 ∧ path brk 0) ∧
           (permit.getLsbD 2 = true ↔ base ∧ x.service ≠ .islandOff ∧ wants 2 ∧ path door 1) ∧
           (y.ilk.zgrant.getLsbD 0 = true ↔ permit.getLsbD 0 = true ∧ ¬ main drv) ∧
           (y.ilk.zgrant.getLsbD 1 = true ↔ permit.getLsbD 1 = true ∧ ¬ main brk) ∧
           (y.ilk.zgrant.getLsbD 2 = true ↔ permit.getLsbD 2 = true ∧ ¬ main door) ∧ y.ilk.test = x.ilk.test) ∧
         (∀ t : PulseTest, x.ilk.test = some t → t.result = none →
           let raises := fun (e : Nat) => t.raises.getLsbD e = true
           let blocked := (raises 0 ∧ ¬ main drv) ∨ (raises 1 ∧ ¬ main brk) ∨ (raises 2 ∧ ¬ main door)
           (blocked → permit = 0 ∧ y.ilk.test = some { t with result := some 10 }) ∧
           (¬ blocked → y.ilk.test = some t ∧ (permit.getLsbD 0 = true ↔ base ∧ raises 0) ∧
             (permit.getLsbD 1 = true ↔ permit.getLsbD 0 = true ∧ fed ∧ raises 1 ∧ x.driveReady = true) ∧
             (permit.getLsbD 2 = true ↔ base ∧ raises 2))))) ∧
  (∀ (s : State) (k : CarId) (which : BitVec 3),
     (s.chip.lnk.sckRunning = true → exec (.enableDecay k which) s = .next (s.act fun c => c.modIlk k fun i =>
       { i with pad := i.pad &&& ~~~(which &&& ~~~i.pump) })) ∧
     (s.chip.lnk.sckRunning = false → exec (.enableDecay k which) s = .next (s.act fun c => c.modIlk k fun i =>
       { i with pump := i.pump &&& ~~~which, pad := i.pad &&& ~~~which })))

/-- No command pumps an enable that the latest evaluation does not permit: where every car's pumped enables are permitted, they are
after every step (R307). -/
def Obligations.StepKeepsPumpingPermitted : Prop :=
  ∀ s t : State, enablesPermitted s → step s = .next t → enablesPermitted t

/-! ### Motion (R201, R202, R205, R215, R257) -/

/-- One advance of R201: the acceleration changes by at most Jt and the speed by the new acceleration, or the axis comes to rest. -/
def Obligations.AdvanceKeepsJerkLimit : Prop :=
  ∀ (l : Limits) (vc x u w : Int),
    let r := advanceFrame l vc x u w
    (r.1 = u + r.2.1 ∧ w - l.jt ≤ r.2.1 ∧ r.2.1 ≤ w + l.jt) ∨ (r.1 = 0 ∧ r.2.1 = 0 ∧ 0 < u)

/-- PROFILE_ADVANCE moves a running axis by its new velocity or ends its move at E, and an axis at rest stays; the tests for obstructions
come first (R18, R288). A MOVEQ at the head of a door's queue is taken at a seam (R210); an engaged slave takes the cam output for its
master's position as the Profile phase before left it, or is released where a limit is broken (R214); a low enable re-seats the axis at the measured position
(R286, R308), and so does a door's fault, which like a car's empties the queue (R212). MOVE_TAKE starts the first move of an idle axis,
HOME_REFERENCE shifts the position by REF - q, and an arrival leaves the calls of other landings, and of its own
none but hall calls of a car that goes on (R201, R202, R205, R215, R257). That the advance leaves the queue of an idle axis to the row
MOVE_TAKE, the calls that an arrival answers, and that PRF_MASTER keeps its fields after a release are the model's readings (log entries
52, 22 and 101). -/
def Obligations.MotionEventsMoveTheAxis : Prop :=
  (∀ (s : State) (k : CarId),
    let c := s.chip
    let b := c.startProfile
    let a := carAxis k
    let x := b.axes[a.val]
    let l := b.limitsOf a
    let now := c.may (.profile a.val) = true
    let advances := fun (result : Axis → Prop) =>
      ∃ t, exec (.profileAdvance a) s = .next t ∧ t.pending = s.pending ∧ t.mem = s.mem ∧ t.chip.dev = c.dev ∧
        t.chip.doors = b.doors ∧ (∀ i : AxisId, i ≠ a → t.chip.axes[i.val] = b.axes[i.val]) ∧
        (∀ j : CarId, j ≠ k → t.chip.cars[j.val] = c.cars[j.val]) ∧ result (t.chip.axes[a.val])
    (now → c.axisRuns a = true →
      (x.cmds = [] → c.driveLow k = false → x.st = .moving ∨ x.st = .stopping → advances fun y =>
        AdvancedBy l (speedBoundOf c l x.cap) x y ∧ y.e = x.e ∧ y.queue = x.queue ∧ y.cap = x.cap) ∧
      (x.cmds = [] → c.driveLow k = false → x.st = .idle ∨ x.st = .held → advances fun y =>
        y.st = x.st ∧ y.p = x.p ∧ y.v = x.v ∧ y.a = x.a ∧ y.queue = x.queue) ∧
      (x.cmds = [] → c.driveLow k = true → x.st = .moving ∨ x.st = .stopping ∨ x.st = .homing → advances fun y =>
        y.st = .idle ∧ y.p = genPos (c.cars[k.val]).pos ∧ y.e = y.p ∧ y.v = 0 ∧ y.a = 0 ∧ y.remain = 0 ∧ y.queue = x.queue ∧
          (x.st = .homing → y.homing = none ∧ y.homed = false)) ∧
      (x.cmds = [.purge, .stop] → c.driveLow k = false → x.st = .moving → x.engaged = none → advances fun y =>
        y.queue = [] ∧ y.remain = 0 ∧ y.e = gen (x.restPoint l) ∧
          AdvancedBy l (speedBoundOf c l y.cap) { x with st := .stopping, e := y.e, remain := 0 } y)) ∧
    (∀ (mv : Move) (rest : List Move), now → c.axisRuns a = true → x.cmds = [] → x.st = .idle → x.queue = mv :: rest → mv.kind = .move →
      (c.cars[k.val]).relev = false → c.inRange a mv.target = true → b.startHeld k false = false →
      ∃ t, exec (.moveTake a) s = .next t ∧ t.pending = s.pending ∧ t.mem = s.mem ∧ t.chip.dev = c.dev ∧
        (t.chip.cars[k.val]).run = ⟨true, 0⟩ ∧ (t.chip.cars[k.val]).present = none ∧
        let y := t.chip.axes[a.val]
        y.st = .moving ∧ y.target = mv.target ∧ y.e = genPos mv.target ∧ y.remain = 0 ∧ y.queue = rest ∧
          y.cap = mv.cap.map BitVec.toNat ∧ y.limited = false ∧ y.p = x.p ∧ y.v = x.v) ∧
    (∀ (h : Homing) (q : Word), now → c.axisRuns a = true → x.cmds = [] → x.homing = some (h, .event q) →
      ∃ t, exec (.homeReference a) s = .next t ∧ t.pending = s.pending ∧ t.mem = s.mem ∧ t.chip.dev = c.dev ∧
        let y := t.chip.axes[a.val]
        y.p = x.p + gen ((h.ref.toInt - q.toInt) * unit) ∧ y.homing = some (h, .braking) ∧ y.v = x.v ∧ y.a = x.a ∧
          y.pPrev = x.pPrev ∧
          (t.chip.fbks[(machine k).val]).ofs =
            (c.fbks[(machine k).val]).ofs + BitVec.ofInt 64 ((h.ref.toInt - q.toInt) * 2 ^ 24)) ∧
    (∀ j : BitVec 7, c.running = true → c.lnk.sckRunning = true → (c.cars[k.val]).arriving = some j → (c.cars[k.val]).level = true →
      (c.cars[k.val]).landing.toNat = j.toNat →
      ∃ t, exec (.carArrival k) s = .next t ∧ t.mem = s.mem ∧ t.pending = s.pending ∧
        let before := (c.cars[k.val]).calls
        let y := t.chip.cars[k.val]
        y.present = some j ∧ y.arriving = none ∧ y.calls.filter (fun z => z.landing ≠ j) = before.filter (fun z => z.landing ≠ j) ∧
          (∀ z ∈ y.calls, z ∈ before ∧ (z.landing = j → z.kind = 1 ∨ z.kind = 2)) ∧
          (c.restStop k (before.filter fun z => z.landing ≠ j) = none → ∀ z ∈ y.calls, z.landing ≠ j))) ∧
  (∀ (s : State) (d : DoorId),
    let c := s.chip
    let b := c.startProfile
    let a := doorAxis d
    let x := b.axes[a.val]
    let l := b.limitsOf a
    let nudged := fun (y : Axis) => y.cap = x.cap ∨ (b.doors[d.val]).st = .nudging
    let low := b.doorLow (carOfDoor d)
    let atSeam := x.seam = true ∧ x.taken = false ∧ ((x.e.toInt - x.p.toInt).natAbs : Int) ≤ x.seamTol.toNat * unit
    let advances := fun (result : Axis → Prop) =>
      ∃ t, exec (.profileAdvance a) s = .next t ∧ t.pending = s.pending ∧ t.mem = s.mem ∧ t.chip.dev = c.dev ∧ t.chip.cars = c.cars ∧
        (∀ i : AxisId, i ≠ a → t.chip.axes[i.val] = b.axes[i.val]) ∧
        (∀ j : DoorId, j ≠ d → t.chip.doors[j.val] = b.doors[j.val]) ∧ result (t.chip.axes[a.val])
    c.may (.profile a.val) = true → c.axisRuns a = true →
    (x.cmds = [] → low = false → (b.doors[d.val]).learn = none →
      (x.st = .moving ∨ x.st = .stopping → x.queue = [] ∨ x.seam = false → advances fun y =>
        AdvancedBy l (speedBoundOf c l y.cap) x y ∧ y.e = x.e ∧ y.queue = x.queue ∧ nudged y) ∧
      (x.st = .idle ∨ x.st = .held → advances fun y => y.st = x.st ∧ y.p = x.p ∧ y.v = x.v ∧ y.a = x.a ∧ y.queue = x.queue) ∧
      (∀ (mv : Move) (rest : List Move), x.st = .moving → atSeam → x.queue = mv :: rest → mv.kind = .moveq →
        (b.inRange a mv.target = true → advances fun y =>
          y.queue = rest ∧ y.target = mv.target ∧ y.e = genPos mv.target ∧ y.remain = 0 ∧
            AdvancedBy l (speedBoundOf c l y.cap) { x with e := y.e, remain := 0, limited := false } y) ∧
        (b.inRange a mv.target = false → advances fun y => y.queue = rest ∧ y.discard = true ∧ y.e = x.e ∧ y.target = x.target))) ∧
    (∀ (n : BitVec 4) (master : AxisId), x.cmds = [] → low = false → x.st = .cam → x.engaged = some (n, master) → x.taken = false →
      let w := b.axes[master.val]
      w.st ≠ .off → c.badWord 2 (s.mem.camReads n w.pPrev.toInt) = none →
      let out := s.mem.camOutput n w.pPrev.toInt
      let v1 := out.1 - x.p.toInt
      let a1 := v1 - x.v.toInt
      let within := (v1.natAbs : Int) ≤ l.vt ∧ ((a1 - x.a.toInt).natAbs : Int) ≤ l.jt ∧
        (a1.natAbs : Int) ≤ (if 0 < a1 * v1 then l.at_ else l.dt : Nat)
      advances fun y =>
        y.camEdge = (x.camEdge || out.2) ∧ y.queue = x.queue ∧
        (within → y.st = .cam ∧ y.engaged = x.engaged ∧ y.p = gen out.1 ∧ y.e = y.p ∧ y.v = gen v1 ∧ y.a = gen a1 ∧
          y.camLim = x.camLim) ∧
        (¬ within → y.camLim = true ∧ y.st = .stopping ∧ y.engaged = none ∧ y.lastTable = n ∧ y.lastMaster.toNat = master.val ∧
          y.p = x.p ∧ y.v = x.v ∧ y.a = x.a ∧ y.e = gen (x.restPoint l) ∧ y.remain = 0)) ∧
    (x.cmds = [] → low = true → x.st = .moving ∨ x.st = .stopping ∨ x.st = .homing ∨ x.st = .cam → advances fun y =>
      y.st = .idle ∧ y.p = genPos (b.doors[d.val]).pos ∧ y.e = y.p ∧ y.v = 0 ∧ y.a = 0 ∧ y.remain = 0 ∧ y.engaged = none ∧
        y.target = (b.doors[d.val]).pos ∧ y.queue = x.queue ∧ (x.st = .homing → y.homing = none ∧ y.homed = false)) ∧
    (x.cmds = [.purge] → advances fun y =>
      y.queue = [] ∧ y.st = .idle ∧ y.p = genPos (b.doors[d.val]).pos ∧ y.e = y.p ∧ y.v = 0 ∧ y.a = 0 ∧ y.remain = 0 ∧ y.engaged = none ∧
        y.homing = none) ∧
    (∀ (mv : Move) (rest : List Move), x.cmds = [] → x.st = .idle → x.queue = mv :: rest → mv.kind = .move ∨ mv.kind = .moveq →
      b.doorHeld d = false → b.inRange a mv.target = true →
      ∃ t, exec (.moveTake a) s = .next t ∧ t.pending = s.pending ∧ t.mem = s.mem ∧ t.chip.dev = c.dev ∧ t.chip.cars = c.cars ∧
        let y := t.chip.axes[a.val]
        y.st = .moving ∧ y.target = mv.target ∧ y.e = genPos mv.target ∧ y.remain = 0 ∧ y.queue = rest ∧ y.limited = false ∧
          y.p = x.p ∧ y.v = x.v))

/-! ### Feedback (R219 to R230) and the encoders and stalls of doors (R276 to R279, R282, R293, R294) -/

/-- QUAD_EDGE counts one for a legal change and an input error 6 for an illegal one, which leaves the count; a counted edge joins the run
of its direction, from which FBK_SPEED is formed (R225), meets the comparator, whose hit advances CMPNEXT and raises COMPARE (R226), and
each decoded change feeds the pulse division, whose outputs hold in TRIPPED and show a step 2 cycles later (R227). A switch code is decoded
once it has stood for SWTICKS latches and is legal, and is an input error where it is not (R228). Z_INDEX captures the
count and gives a searching EDGE homing its event (R215, R219 to R222, R224, R231). SSI_READ_START starts a read with the position
of the tick and keeps the next one from starting before its pause has passed, or counts the input error 5 where the sensor is not ready;
SSI_READ_DONE, once the read's clock periods have passed, latches a valid word and forms the zone from it (R256), and counts the error of
an invalid one, which leaves the position and clears VALID. Without check bits, error bit and Gray code the word is the low bits read (R229 to R231).
That SSI_READ_DONE is the latch of the word and that a change of MODE aborts a read, which error is shown for a word that fails its check
and has its error bit set, and that a skipped read leaves VALID, are the model's readings (log entries 68, 103 and 104); so are the order of
division, hysteresis and comparator within one edge (log entry 67) and that an edge held as HYST.EN is written 0 stays held (log entry
120). -/
def Obligations.FeedbackEventsCount : Prop :=
  (∀ (s : State) (n : FbkId) (held : BitVec 8) (cycle : BitVec 14),
     let c := s.chip
     let f := c.fbks[n.val]
     c.lnk.sckRunning = true → (c.cars[(carOfFbk n).val]).on = true → f.act.mode = .quad → f.act.cycles.toNat ≤ held.toNat →
     (n.val % 2 = 0 → ∀ ab : BitVec 2, ∃ t, exec (.quadEdge (.fbk n) ab held cycle) s = .next t ∧ SameMachine s t ∧ t.mem = s.mem ∧
       (∀ m : FbkId, m ≠ n → t.chip.fbks[m.val] = c.fbks[m.val]) ∧
       let g := t.chip.fbks[n.val]
       (ab = f.ab → t = s) ∧
       (ab = ~~~f.ab → g.ab = ab ∧ g.count = f.count ∧ g.errs = satInc f.errs ∧ g.errLast = 6 ∧ g.held = none) ∧
       ((quadNext f.ab = ab ∨ quadNext ab = f.ab) → g.ab = ab ∧ g.errs = f.errs ∧
         let up := decide (quadNext f.ab = ab) != f.act.dirInv
         let one : Word := if up then 1 else -1
         let hits := fun (next : Word) (moved : Nat) =>
           let o := (next - f.count).toInt
           (up = true ∧ 0 < f.cmpStep.toInt ∧ 1 ≤ o ∧ o ≤ moved) ∨ (up = false ∧ f.cmpStep.toInt < 0 ∧ -(moved : Int) ≤ o ∧ o ≤ -1)
         let compares := fun (moved : Nat) =>
           (f.cmpOld = none ∨ cycle ≠ 0 →
             (hits f.cmpNext moved → g.cmpHits = f.cmpHits + 1 ∧ g.cmpNext = f.cmpNext + f.cmpStep ∧
               t.chip.threads = (c.raiseSee (carOfFbk n) 5).threads) ∧
             (¬ hits f.cmpNext moved → g.cmpHits = f.cmpHits ∧ g.cmpNext = f.cmpNext ∧ t.chip.threads = c.threads)) ∧
           (∀ old, f.cmpOld = some old → cycle = 0 → g.cmpNext = f.cmpNext ∧
             (hits old moved → g.cmpHits = f.cmpHits + 1) ∧ (¬ hits old moved → g.cmpHits = f.cmpHits))
         (f.held = none → (f.act.hyst = false ∨ f.dir ≠ some (!up)) → g.count = f.count + one ∧ g.dir = some up ∧
           g.edges = (c.stamp cycle, f.count + one) :: (if f.dir = some up then f.edges else []) ∧ compares 1) ∧
         (f.held = none → f.act.hyst = true → f.dir = some (!up) → g.count = f.count ∧ g.held = some (c.stamp cycle) ∧
           g.edges = f.edges ∧ g.cmpHits = f.cmpHits) ∧
         (∀ first, f.held = some first → g.held = none ∧
           (f.dir = some up → g.count = f.count ∧ g.edges = f.edges ∧ g.cmpHits = f.cmpHits) ∧
           (f.dir ≠ some up → g.count = f.count + one + one ∧ g.dir = some up ∧
             g.edges = [(c.stamp cycle, f.count + one + one), (first, f.count + one)] ∧ compares 2)) ∧
         let r := f.divAcc.toNat
         let num := f.act.divNum.toNat
         let den := f.act.divDen.toNat
         let divides := fun (acc : Nat) (step : BitVec 2) => g.divAcc = BitVec.ofNat 17 acc ∧
           (c.dev.state = .tripped ∨ step = 0 → g.rep = f.rep ∧ g.reps = f.reps) ∧
           (c.dev.state ≠ .tripped → step ≠ 0 → g.rep = f.rep + step ∧
             (f.reps = [] → g.repeatPhase (c.stamp cycle + 1) = f.rep ∧ g.repeatPhase (c.stamp cycle + 2) = g.rep))
         (up = true → den ≤ r + num → divides (r + num - den) 1) ∧ (up = true → r + num < den → divides (r + num) 0) ∧
         (up = false → r < num → divides (r + den - num) 3) ∧ (up = false → num ≤ r → divides (r - num) 0))) ∧
     (∃ t, exec (.zIndex (.fbk n) held cycle) s = .next t ∧ t.pending = s.pending ∧ t.mem = s.mem ∧ t.chip.cars = c.cars ∧
       t.chip.fbks[n.val] = { f with pos := f.count, zSeen := true } ∧
       let a := carAxis (carOfFbk n)
       (∀ h : Homing, (c.axes[a.val]).homing = some (h, .search) → h.kind = 2 → h.event = 0 →
         t.chip.axes[a.val] =
           { c.axes[a.val] with homing := some (h, .event (BitVec.ofInt 32 (f.measuredAt f.count.toInt))) }) ∧
       ((c.axes[a.val]).homing = none → t.chip.axes = c.axes))) ∧
  (∀ (f : Fbk) (tick : BitVec 48) (stamp : Nat) (raw : BitVec 3) (pos : Word),
     let g := f.switchLatch tick stamp raw pos
     let dz := f.act.dzLine.toNat
     let run := if raw = f.raw then satInc f.rawRun else 1
     let stands := raw ≠ f.code ∧ f.act.swTicks.toNat ≤ run.toNat
     let legal := f.act.codes.getLsbD raw.toNat = true
     let jumps := f.act.adj = true ∧ 2 ≤ ((List.range 3).filter fun j => raw.getLsbD j != f.code.getLsbD j).length
     let errs := fun (code : BitVec 4) => g.code = f.code ∧ g.errs = satInc f.errs ∧ g.errLast = code ∧ g.errAt = stamp
     g.raw = raw ∧ g.rawRun = run ∧ g.count = f.count ∧
     g.t0 = (if raw.getLsbD dz = f.code.getLsbD dz then none else some (f.t0.getD pos)) ∧
     (¬ stands → g.code = f.code ∧ g.errs = f.errs) ∧ (stands → ¬ legal → errs 1) ∧ (stands → legal → jumps → errs 2) ∧
     (stands → legal → ¬ jumps → g.code = raw ∧ g.errs = f.errs)) ∧
  (∀ (s : State) (n : FbkId), s.chip.latching = true →
     let c := s.chip
     let f := c.fbks[n.val]
     let x := c.cars[(carOfFbk n).val]
     let cfg := f.act.ssi
     (c.running = true → x.on = true → f.act.mode = .ssi → ssiDiv cfg ≠ 0 → c.dev.tick.toNat % ssiDiv cfg = 0 → f.ssiRead = none →
       f.ssiFree ≤ c.stamp 0 →
       exec (.ssiReadStart n true) s = .next (s.act fun c => c.modFbk n fun f =>
         { f with ssiRead := some ⟨c.dev.tick, cfg, x.pos⟩, ssiFree := c.stamp 0 + (ssiClocks cfg + ssiMono cfg) * ssiPeriod cfg }) ∧
       exec (.ssiReadStart n false) s = .next (s.act fun c => c.modFbk n fun f =>
         ({ f with ssiFree := c.stamp 0 + 1 }).inputError c.dev.tick (c.stamp 0) 5)) ∧
     (∀ (bits : BitVec 64) (r : SsiRead), f.ssiRead = some r →
       r.start.toNat * c.lnk.ticklen.toNat + ssiClocks r.ssi * ssiPeriod r.ssi ≤ c.stamp 0 →
       (∀ code, ssiCheck r.ssi bits = .error code →
         exec (.ssiReadDone n bits) s = .next (s.act fun c => ((c.note (.ssi n bits)).modFbk n fun f =>
           ({ f with ssiRead := none, valid := false }).inputError c.dev.tick (c.stamp 0) code).floorStep (carOfFbk n))) ∧
       (∀ w, ssiCheck r.ssi bits = .ok w → ∃ t, exec (.ssiReadDone n bits) s = .next t ∧ t.pending = s.pending ∧ t.mem = s.mem ∧
         t.chip.fbks[n.val] = { f with ssiRead := none, pos := w, valid := true, everValid := true } ∧
         (n = hoistway (carOfFbk n) → f.act.mode = .ssi → x.table = none →
           t.chip.cars[(carOfFbk n).val] = { x with zone := false, level := false, relev := false }) ∧
         (∀ l : Landing, n = hoistway (carOfFbk n) → f.act.mode = .ssi → x.landing? x.landing.toNat = some l →
           let hp := t.chip.hoistPos (carOfFbk n)
           (t.chip.cars[(carOfFbk n).val]).zone = decide (l.zl.toInt ≤ hp ∧ hp ≤ l.zh.toInt))) ∧
       (ssiErr r.ssi = false → ssiCrc r.ssi = 0 → r.ssi.getLsbD 15 = false →
         ∃ w, ssiCheck r.ssi bits = .ok w ∧ w.toNat = bits.toNat % 2 ^ ssiBits r.ssi)))

/-- Encoders, halls and stalls of doors: a legal edge counts, a second illegal transition and an illegal hall code are commutation
faults 4 and 1, an index that disagrees is commutation fault 5, and a stall is the event of a STALL homing or the candidate width
of a learn (R276, R278, R279, R293, R294). A hall edge waits for the latch of the next tick, at which the estimator takes the edges in
their order (R277); that a line level counts as legal by the code in force is the model's reading (log entry 64), and that the decoder holds
000b until the first legal code is log entry 65. A run of faulting edges that has reached 2 is kept for the COMM fault with its cycle, be it
that a later edge of the tick sets the run back (R279). -/
def Obligations.DoorEncoderEvents : Prop :=
  ∀ (s : State) (d : DoorId) (held : BitVec 8) (cycle : BitVec 14),
    let c := s.chip
    let x := c.doors[d.val]
    let a := doorAxis d
    let faults := fun (y : Door) (cause : BitVec 4) (at_ : Nat) =>
      y.hallRun = satInc x.hallRun ∧ y.hallErrs = satInc x.hallErrs ∧ y.hallLast = cause ∧
        y.commAt = if 2 ≤ y.hallRun.toNat ∧ x.commAt = none then some at_ else x.commAt
    c.lnk.sckRunning = true →
    ((c.cars[(carOfDoor d).val]).on = true → x.act.hallCycles.toNat ≤ held.toNat →
      (x.encoder = true →
        (∀ ab : BitVec 2, ∃ t, exec (.quadEdge (.door d) ab held cycle) s = .next t ∧
          t.pending = s.pending ∧ t.mem = s.mem ∧ t.chip.cars = c.cars ∧ t.chip.axes = c.axes ∧
          let y := t.chip.doors[d.val]
          (∀ up, quadMove x.act.hallInv x.ab ab = .step up →
            y.turns = x.turns + (if up then 1 else -1) ∧ y.ab = ab ∧ y.hallRun = 0 ∧ y.illegalRun = 0) ∧
          (quadMove x.act.hallInv x.ab ab = .illegal → y.turns = x.turns ∧ y.ab = ab ∧
            (x.illegalRun = 0 → y.illegalRun = 1 ∧ y.hallRun = x.hallRun) ∧ (x.illegalRun = 1 → faults y 4 (c.stamp cycle)))) ∧
        ((c.axes[a.val]).homed = true → ∃ t, exec (.zIndex (.door d) held cycle) s = .next t ∧
          t.pending = s.pending ∧ t.mem = s.mem ∧ t.chip.cars = c.cars ∧ t.chip.axes = c.axes ∧
          let y := t.chip.doors[d.val]
          (x.zCount = none → y = { x with zCount := some x.turns }) ∧
          (∀ z, x.zCount = some z → y.turns = x.turns ∧
            ((x.turns - z) % (x.act.cpr.toNat : Int) ≤ 2 → y = x) ∧
            (2 < (x.turns - z) % (x.act.cpr.toNat : Int) → (x.turns - z) % (x.act.cpr.toNat : Int) < x.act.cpr.toNat - 2 →
              faults y 5 (c.stamp cycle))))) ∧
      (∀ code : BitVec 3, x.act.type = .pmsm → code ≠ x.hallRaw →
        exec (.hallEdge d code held cycle) s = .next (s.act fun c => c.modDoor d fun x =>
          { x with hallRaw := code, arrived := x.arrived ++ [(c.stamp cycle, code)] }))) ∧
    (∀ l : Nat, x.act.type = .pmsm → (∀ e ∈ x.arrived, e.1 < l) →
      (x.arrived ≠ [] → x.settle l = x.arrived.foldl (fun y e => y.checkHall e.2 e.1) { x with arrived := [] }) ∧
      (x.arrived = [] → x.settle l = x.checkHall x.hallRaw l)) ∧
    (∀ (code : BitVec 3) (at_ : Nat), code ≠ x.hall →
      let y := x.checkHall code at_
      (x.act.hallCodes.getLsbD code.toNat = false → faults y 1 at_ ∧ y.hall = x.hall ∧ y.turns = x.turns) ∧
      (∀ i j, x.act.hallCodes.getLsbD code.toNat = true → hallPlace x.hall = some i → hallPlace code = some j →
        (j = (i + 1) % 6 ∨ i = (j + 1) % 6 → y.hall = code) ∧
        (j ≠ (i + 1) % 6 → i ≠ (j + 1) % 6 → faults y 2 at_ ∧ y.hall = x.hall)) ∧
      (∀ j, x.act.hallCodes.getLsbD code.toNat = true → hallPlace x.hall = none → hallPlace code = some j →
        y.hall = code ∧ y.turns = hallBound j ∧ y.hallRun = 0 ∧ y.commAt = x.commAt)) ∧
    (c.running = true → x.act.stallT.toNat ≤ x.stallRun.toNat → x.stallRun ≠ 0 →
      (∀ h : Homing, (c.axes[a.val]).homing = some (h, .search) → h.kind = 3 →
        exec (.doorStall d) s = .next (s.act fun c => c.modAxis a fun y => { y with homing := some (h, .event x.pos) })) ∧
      (∀ l : Learn, (c.axes[a.val]).homing = none → x.learn = some l → l.returning = false → l.candidate = none → x.learnResult = 1 →
        ∃ t, exec (.doorStall d) s = .next t ∧ t.pending = s.pending ∧ t.mem = s.mem ∧ t.chip.cars = c.cars ∧
          let w := x.pos + x.act.homeRef.signExtend 32
          ((t.chip.doors[d.val]).learn = some { l with candidate := some w }) ∧
          (t.chip.doors[d.val]).learnResult = (if w.toInt < x.act.minW.toNat * 4096 then 3 else 2)))

/-! ### Loops (R233 to R242) -/

/-- LOOP_RUN of a loop, in its slot or before it: a forced loop presents 0 and waits to start, a loop that is not due stays, and a due
one runs the law of R236 on what Table 11-1 wires to it. A run of a door's speed stage moves the bound L of its current (R283), and every
slot of a door's current stage forms the duties from its output (R280). The law is R236 with its formats; its integrator stays within its
clamp and its output within OMIN and OMAX and the fixed bound, and a first run takes the measurement as its past (R18, R233 to R239). The
currents' feedback is the torque current latched for the tick (R275). -/
def Obligations.LoopRunFollowsLaw : Prop :=
  (∀ (s : State) (l : LoopId), s.chip.may (.loop (loopSlot l)) = true →
    let c := s.chip
    let base := c.enter (.loop (loopSlot l + 1))
    let x := c.loops[l.val]
    let ran := if c.loopForced l then x.quiet else if c.loopDue l then x.run (c.wiring l) else x
    ∃ t, exec (.loopRun l) s = .next t ∧ t.pending = s.pending ∧ t.mem = s.mem ∧ t.chip.stage = base.stage ∧ t.chip.dev = c.dev ∧
      t.chip.axes = c.axes ∧ t.chip.cars = c.cars ∧ t.chip.loops[l.val] = ran ∧
      (∀ i : LoopId, i ≠ l → t.chip.loops[i.val] = c.loops[i.val]) ∧
      (72 ≤ l.val ∨ l.val % 3 = 2 → t.chip.doors = c.doors) ∧
      (∀ d : DoorId, l ≠ doorLoop d 0 → l ≠ doorLoop d 1 → t.chip.doors[d.val] = c.doors[d.val]) ∧
      (∀ d : DoorId, l = doorLoop d 1 →
        let q := c.doors[d.val]
        let z := t.chip.doors[d.val]
        let runs := c.loopForced l = false ∧ c.loopDue l = true
        (¬ runs → z = q) ∧
        (runs → z = { q with limit := z.limit, atCap := z.atCap }) ∧
        (runs → q.st = .homing ∨ q.st = .learning ∨ q.st = .reversing → z.limit = q.act.base) ∧
        (runs → q.act.kt ≠ 0 →
          let cap := min (c.sps0 (.door 0 d)) (c.sps0 (.door 1 d) * 10000 / q.act.kt.toNat)
          z.atCap = (ran.sat && decide (q.limit.toNat = cap)) ∧
          (q.st ≠ .homing → q.st ≠ .learning → q.st ≠ .reversing →
            (ran.sat = true → q.limit.toNat < cap → z.limit = BitVec.ofNat 16 (min (q.limit.toNat + q.act.iboost.toNat) cap)) ∧
            (ran.sat = true → cap ≤ q.limit.toNat → z.limit = q.limit) ∧
            (ran.sat = false → z.limit = BitVec.ofNat 16 (max (q.limit.toNat - q.act.iboost.toNat) q.act.base.toNat))))) ∧
      (∀ d : DoorId, l = doorLoop d 0 →
        let q := c.doors[d.val]
        let v : Int := if c.loopForced l then 0 else if c.loopDue l then ran.u.toInt else c.loopOut l
        let psi := q.angleAt (c.stamp 0 + c.effectCentre d) + 16384
        let sine := sineOf (c.sine[q.act.sel.toNat])
        let leg := fun n : Int => Leg.duty (max 0 (min (2 ^ 31) (2 ^ 30 + n)))
        ((c.running = false ∨ q.inUse = false ∨ q.st = .fault) → t.chip.doors[d.val] = q) ∧
        (c.running = true → q.inUse = true → q.st ≠ .fault → t.chip.doors[d.val] = { q with legsNext := (t.chip.doors[d.val]).legsNext } ∧
          let legs := (t.chip.doors[d.val]).legsNext
          (q.act.type = .pmsm → legs =
            #v[leg (v * sine (psi + 16384)), leg (v * sine (psi + 16384 - 21845)), leg (v * sine (psi + 16384 - 43691))]) ∧
          (q.act.type = .stepper → legs = #v[leg (v * sine (psi + 16384)), leg (v * sine psi), leg 0]) ∧
          (q.act.type = .bdc → legs = #v[leg (v * 32768), leg (-(v * 32768)), .low])))) ∧
  (∀ (c : Chip) (k : CarId) (d : DoorId),
    let a := doorAxis d
    let x := c.doors[d.val]
    c.wiring (carLoop k) = ⟨(c.setPos (carAxis k)).toInt, (c.cars[k.val]).pos.toInt, c.setVel (carAxis k),
      -(c.axisBound (carAxis k) 0 : Int), c.axisBound (carAxis k) 0⟩ ∧
    c.wiring (doorLoop d 2) = ⟨(c.setPos a).toInt, x.pos.toInt, c.setVel a, -2000000, 2000000⟩ ∧
    c.wiring (doorLoop d 1) = ⟨c.loopOut (doorLoop d 2), x.speed.toInt, c.setAccel a, -(x.limit.toNat : Int), x.limit.toNat⟩ ∧
    c.wiring (doorLoop d 0) = ⟨c.loopOut (doorLoop d 1), x.iq.toInt, x.speed.toInt, -32768, 32767⟩) ∧
  (∀ (x : Loop) (v : Wiring),
      let y := x.run v
      let q := x.act
      let input := fun n : Int => if q.bfp then satTo 32 n else satTo 16 (rnd n q.insh.toNat)
      let width := if q.bfp then 64 else 40
      let shift := if q.bfp then q.gexp.toNat else 15 - q.outsh.toNat
      let before : Int := if x.starting then 0 else x.i
      let ee := input (v.r - v.y)
      let acc := satTo width (before + q.ki.toInt * ee)
      let pd := satTo width (satTo width (q.kp.toInt * ee + acc) + q.kd.toInt * input (if x.starting then 0 else x.yp - v.y))
      let u0 := satTo 32 (rnd (satTo width (pd + q.kff.toInt * input v.f)) shift)
      let lo := q.imin.toInt * 2 ^ shift
      let hi := q.imax.toInt * 2 ^ shift
      y.act = x.act ∧ y.starting = false ∧ y.yp = v.y ∧ y.sat = decide (y.up ≠ u0) ∧
      (q.omin.toInt ≤ u0 → u0 ≤ q.omax.toInt → v.lo ≤ u0 → u0 ≤ v.hi → y.up = u0 ∧ y.u = BitVec.ofInt 32 u0) ∧
      (y.sat = false ∨ (q.ki.toInt * ee).sign ≠ (u0 - y.up).sign → lo ≤ acc → acc ≤ hi → y.i = acc) ∧
      (y.sat = true → (q.ki.toInt * ee).sign = (u0 - y.up).sign → lo ≤ before → before ≤ hi → y.i = before) ∧
      (v.lo ≤ v.hi → v.lo ≤ y.up ∧ y.up ≤ v.hi) ∧
      (q.omax.toInt < v.lo → v.lo ≤ v.hi → q.omin.toInt ≤ q.omax.toInt → y.up = v.lo) ∧
      (v.hi < q.omin.toInt → v.lo ≤ v.hi → y.up = v.hi) ∧
      (v.lo ≤ q.omin.toInt → q.omin.toInt ≤ q.omax.toInt → q.omax.toInt ≤ v.hi → q.omin.toInt ≤ y.up ∧ y.up ≤ q.omax.toInt) ∧
      (q.imin.toInt ≤ q.imax.toInt → lo ≤ y.i ∧ y.i ≤ hi) ∧
      (x.starting = true → v.r = v.y → q.kff = 0 → v.lo ≤ 0 → 0 ≤ v.hi → q.omin.toInt ≤ 0 → 0 ≤ q.omax.toInt → y.up = 0) ∧
      (x.starting = false → q.resBand ≠ 0 →
        let res := v.y - rnd (q.modelA.toInt * x.yp + q.modelB.toInt * x.up) 24
        y.resRun = if (q.resBand.toNat : Int) < res.natAbs then satInc x.resRun else 0) ∧
      ((x.starting = true ∨ q.resBand = 0) → y.resRun = x.resRun))

/-! ### Front ends (R316 to R328) -/

/-- CHOP_SAMPLE enters the filter with its clamps, once per chop period; OFFSET_TRIM moves the trim by at most one step within 127; FE_RESULT
with a full window, before the first packet of its tick, latches the filtered value and, of a clean window, its curve: NONE and POLY for a
bridge, the inverse of the platinum function for RTD, the temperature whose EMF is e + E(t_cj) for TC, and Steinhart-Hart for NTC, each
of curves 1 to 6 within two units of the exact function. A window with a clamp, a curve out of its range or a source that holds no valid value
leaves FE_VALUE and is invalid (R315 to R325, Table 15-3). The half-period sums in 1/256 of a unit, on which the clamps, the trim and the raw
value rest, which of the values within two units a curve gives, and the coefficients of IEC 60584-1 are the model's readings (log entries
76, 18 and 107). -/
def Obligations.FrontEndsConvert : Prop :=
  ∀ (s : State) (y : FeId), s.chip.lnk.sckRunning = true → s.chip.converts y = true →
    let c := s.chip
    let f := c.fes[y.val]
    let k := carOfFe y
    (∀ (p : ChopSample) (e : Nat), c.chopEnd = some e → f.chopAt ≠ e →
      let plus := f.halfSum p.plus (f.act.sense p).1
      let minus := f.halfSum p.minus (f.act.sense p).2
      let d := plus.1 - minus.1
      let clipped := plus.2 || minus.2
      ∃ t, exec (.chopSample y p) s = .next t ∧ SameMachine s t ∧ t.mem = s.mem ∧
        (∀ z : FeId, z ≠ y → t.chip.fes[z.val] = c.fes[z.val]) ∧
        let g := t.chip.fes[y.val]
        g.live.getLsbD 0 = (clipped || decide (98 * 2 * 256 * f.act.type.fullScale < 100 * (d.natAbs : Int))) ∧
          g.live.getLsbD 1 = f.act.openInput p.ixMv clipped ∧ g.live.getLsbD 2 = f.act.senseBad (f.act.sense p) ∧
          g.live.getLsbD 3 = f.act.outOfCommon p.pins c.pwr.railMv[3] ∧
          g.sticky = f.sticky ||| g.live ∧ g.samples = ((d, g.live, e) :: f.samples).take 3054 ∧ g.chopAt = e ∧
          g.raw = f.raw ∧ g.value = f.value ∧ g.valid = f.valid) ∧
    (∃ t, exec (.offsetTrim y) s = .next t ∧ SameMachine s t ∧ t.mem = s.mem ∧
      let g := t.chip.fes[y.val]
      g.raw = f.raw ∧ g.value = f.value ∧ g.samples = f.samples ∧
      (f.ofsCount.toNat < 1024 → t = s) ∧
      (1024 ≤ f.ofsCount.toNat → g.ofsCount = 0 ∧ g.ofsSum = 0 ∧
        ∀ n m, f.act.trimStep = some (n, m) →
          ((f.ofsSum.natAbs : Int) * m ≤ 256 * 2048 * n → g.otrim = f.otrim ∧ g.ofsEdge = f.ofsEdge) ∧
          (256 * 2048 * n < (f.ofsSum.natAbs : Int) * m →
            let next := f.otrim.toInt - f.ofsSum.sign
            (next.natAbs ≤ 127 → g.otrim = BitVec.ofInt 8 next ∧ g.ofsEdge = f.ofsEdge) ∧
            (127 < next.natAbs → g.otrim = f.otrim ∧ g.ofsEdge = true)))) ∧
    (c.latching = true → f.resultAt ≠ some c.dev.tick → f.act.period ≠ 0 → c.dev.tick.toNat % f.act.period = 0 →
      y.val % 4 ≠ 0 ∨ c.exciteTest k = false →
      let n := c.filterN y
      let window := (c.usable f).take (2 * n - 1)
      window.length = 2 * n - 1 →
      let raw := f.act.type.rawRange (filterOut n (window.map fun s => s.1))
      let r := raw.toInt
      let gives := fun (v : Option Int) => ∃ t, exec (.feResult y) s = .next t ∧ t.pending = s.pending ∧ t.mem = s.mem ∧
        (∀ z : FeId, z ≠ y → t.chip.fes[z.val] = c.fes[z.val]) ∧
        let g := t.chip.fes[y.val]
        g.raw = raw ∧ g.valid = v.isSome ∧ g.value = (v.map fun v => BitVec.ofInt 32 v).getD f.value ∧ g.resultAt = some c.dev.tick ∧
          g.samples = f.samples ∧ g.act = f.act
      let temperature := fun (v : Option Int) => gives (v.filter fun v => decide (-32768 ≤ v) && decide (v ≤ 32767))
      let inverts := fun (e : Int → Int) (r : Int) (v : Option Int) => (v = none ↔ r < e (-20000) ∨ e 32767 < r) ∧
        ∀ w, v = some w → ∃ t, e t ≤ r ∧ r < e (t + 1) ∧ (t - 1 ≤ w ∨ (e t = r ∧ t - 2 ≤ w)) ∧ w ≤ t + 2
      let source := fun i : Fin 4 => c.fes[(carFe k i).val]
      let suited := fun i : Fin 4 => f.act.src.toNat = i.val ∧ carFe k i ≠ y ∧ ((source i).act.type = .rtd ∨ (source i).act.type = .ntc) ∧
        (source i).prevValid = true
      let compensates := fun (cj : Int) => (f.act.src = 4 ∧ cj = c.dev.tempPrev.toInt) ∨
        ∃ i : Fin 4, suited i ∧ cj = (source i).prevValue.toInt
      let none_ := f.act.src ≠ 4 ∧ ∀ i : Fin 4, ¬ suited i
      let line := bridgeValue f.act r
      ((∃ z ∈ window, z.2.1 ≠ 0) → gives none) ∧
      (f.act.type = .bridge → (f.act.zset = false ∨ f.act.span = 0) → gives none) ∧
      ((∀ z ∈ window, z.2.1 = 0) →
        (f.act.type = .bridge → f.act.zset = true → f.act.span ≠ 0 →
          (f.act.curve = 0 → -(2 ^ 31) ≤ line → line < 2 ^ 31 → gives (some line)) ∧
          (f.act.curve = 7 → f.form ≠ 1 → gives none) ∧
          (f.act.curve = 7 → f.form = 1 →
            (f.act.src = 7 → gives (some (satTo 32 (polyValue f.coefs line 0)))) ∧
            (∀ cj, f.act.src ≠ 7 → compensates cj → gives (some (satTo 32 (polyValue f.coefs line cj)))) ∧
            (f.act.src ≠ 7 → none_ → gives none))) ∧
        (f.act.type = .rtd → (f.act.curve = 1 ∨ f.act.curve = 2) →
          let r0 : Int := if f.act.curve = 1 then 100 else 1000
          ∃ v, temperature v ∧ inverts (fun t => platinum t * (1024 * r0)) (r * 10 ^ 23) v) ∧
        (f.act.type = .tc → (f.act.curve = 3 ∨ f.act.curve = 4 ∨ f.act.curve = 5) →
          (none_ → gives none) ∧
          (∀ cj, f.act.src ≠ 7 → compensates cj →
            ((cj < -20000 ∨ 32767 < cj) → gives none) ∧
            (-20000 ≤ cj → cj ≤ 32767 → ∃ v, temperature v ∧
              inverts (thermoEmf f.act.curve) ((r - f.act.zero.toInt) * 2 ^ 32 + thermoEmf f.act.curve cj) v))) ∧
        (f.act.type = .ntc → f.act.curve = 6 →
          ((r < 32 ∨ f.form ≠ 2) → gives none) ∧
          (∀ p q u : Coef, 32 ≤ r → f.form = 2 → f.coefs = [p, q, u] →
            let l := lnExact r.toNat 5
            let sum := p.scaled * 2 ^ 768 + q.scaled * l * 2 ^ 512 + u.scaled * l ^ 3
            let exact_ := sum.sign * (100 * 2 ^ 864 - 27315 * sum)
            (sum ≠ 0 → ∃ w : Int, temperature (some w) ∧ exact_ - 2 * sum.natAbs ≤ w * sum.natAbs ∧ w * sum.natAbs ≤ exact_ + 2 * sum.natAbs) ∧
            (sum = 0 → gives none)))) ∧
      (y.val % 4 = 0 → f.act.type = .bridge → f.act.zset = true → f.act.span ≠ 0 → f.act.curve = 0 → (c.cars[k.val]).service = .out →
        ∃ t, exec (.feResult y) s = .next t ∧ t.chip.dev = c.dev ∧ t.chip.axes = c.axes ∧
          ((∀ z ∈ window, z.2.1 = 0) → -(2 ^ 31) ≤ line → line < 2 ^ 31 → (t.chip.cars[k.val]).loadValid = true ∧
            (t.chip.cars[k.val]).load = BitVec.ofInt 16 (max 0 (min 65535 line))) ∧
          ((∃ z ∈ window, z.2.1 ≠ 0) → (t.chip.cars[k.val]).loadValid = false)))

/-- CAL_START starts the calibration at the head of its group's queue, with its channel's outcome RUNNING, at the boundary after it has
reached that place; CAL_DECIDE ends one whose window is full with its decision, storing the new zero or span where it is accepted; and
CAL_TIMEOUT ends one after WIN + 8 result periods. A zero is the mean of the window (R326 to R328). That the new ZERO or SPAN is stored in
the setting at the decision is the model's reading (log entry 77). -/
def Obligations.CalibrationsRun : Prop :=
  ∀ (s : State) (g : CarId), s.chip.running = true → s.chip.lnk.sckRunning = true →
    let c := s.chip
    let q := c.cals[g.val]
    (∀ i rest, q.queue = i :: rest → q.ready = true → q.running = none → c.may .host = true → (c.cars[g.val]).on = true →
      ∃ t, exec (.calStart g) s = .next t ∧ SameMachine s t ∧ t.mem = s.mem ∧
        t.chip.cals[g.val] = ⟨rest, false, some ⟨i, c.dev.tick, []⟩⟩ ∧
        t.chip.fes[i.channel.val] = { c.fes[i.channel.val] with calRes := 1 }) ∧
    (∀ r : CalRun, q.running = some r →
      let f := c.fes[r.item.channel.val]
      let ends := fun (i : Instr) (code : BitVec 4) => ∃ t, exec i s = .next t ∧ t.pending = s.pending ∧ t.mem = s.mem ∧
        t.chip.cals[g.val] = { q with running := none } ∧ t.chip.fes[r.item.channel.val] = { f with calRes := code }
      (f.act.win.toNat ≤ r.results.length →
        (∀ code, calDecision f.act r.item r.results = .error code → ends (.calDecide g) code) ∧
        (∀ v, calDecision f.act r.item r.results = .ok v → ∃ t, exec (.calDecide g) s = .next t ∧ t.pending = s.pending ∧
          t.mem = s.mem ∧ t.chip.cals[g.val] = { q with running := none } ∧ t.chip.cars = c.cars ∧
          t.chip.fes[r.item.channel.val] =
            { f with
              calRes := 2,
              cfg := if r.item.span then { f.cfg with span := BitVec.ofInt 32 v }
                else { f.cfg with zero := BitVec.ofInt 24 v, zset := true } }) ∧
        (r.item.span = false → (∀ z ∈ r.results, z = none) → r.results ≠ [] → ends (.calDecide g) 3) ∧
        (∀ v : BitVec 24, r.item.span = false → f.act.zset = false → r.results ≠ [] → (∀ z ∈ r.results, z = some v) →
          calDecision f.act r.item r.results = .ok v.toInt)) ∧
      (r.results.length < f.act.win.toNat → exec (.calDecide g) s = .next s) ∧
      ((f.act.win.toNat + 8) * f.act.period ≤ (c.dev.tick - r.start).toNat → ends (.calTimeout g) 7) ∧
      ((c.dev.tick - r.start).toNat < (f.act.win.toNat + 8) * f.act.period → exec (.calTimeout g) s = .next s))

/-! ### Scan, scrub and trace engines (R245, R332 to R343) -/

/-- SCAN_JOB_START starts the job at the head of the queue where the engine is free. SCAN_JOB_DONE reads what the job still has to read,
each word as it stands in its cycle, and ends it with its check value and a verdict; an append stores the value after the job's bytes and
no other byte; an uncorrectable word trips the device instead. SCAN_JOB_TIMEOUT ends a job after the limit of R339. SCRUB_VISIT reads its
words once in a tick, counts the corrections and goes on, or trips on an uncorrectable word (R332 to R343). TRACE_CAPTURE_START starts
the first queued item of a free channel, TRACE_SAMPLE takes a sample when due and keeps what it needs before its trigger, and the capture
ends as a block with its samples by TRACE_COMPLETE or, without a trigger for 1,048,576 ticks, as one with FAULT and none by TRACE_TIMEOUT
(R244, R245). The START of a block without a trigger and the details of a capture are the model's choice (log entry 70), and so is the
bookkeeping of the engine's cycles (log entry 78). -/
def Obligations.ScanAndTraceEnginesRun : Prop :=
  (∀ s : State, s.mem.wf = true → s.chip.running = true → s.chip.lnk.sckRunning = true →
     let c := s.chip
     (∀ j rest, c.scan.queue = j :: rest → c.scan.running = none →
       let at_ := c.scanStartCycle j
       at_ < c.lnk.ticklen.toNat →
       ∃ t, exec .scanJobStart s = .next t ∧ SameMachine s t ∧ t.mem = s.mem ∧ t.chip.scan.queue = rest ∧ t.chip.scan.cycle = at_ ∧
         t.chip.scan.running = some ⟨j, c.dev.tick, j.cfg.start (c.scan.cks[j.ck.val]).val, 0, []⟩ ∧
         (t.chip.scan.cks[j.ck.val]).done = 0) ∧
     (∀ r : ScanRun, c.scan.running = some r →
       let j := r.job
       let q := j.cfg
       let len := j.len.toNat
       let seen := 4 * r.spent
       let byte := fun n : Nat => c.scanByte s.mem j.space (j.start.toNat + n) (c.scan.cycle + (n - seen) / 4)
       let text := (List.range (len - seen)).map fun i => byte (seen + i)
       let rest := (List.range (j.reads - max seen len)).map fun i => byte (max seen len + i)
       let v := q.finish (q.feed r.reg text)
       let past := j.start.toNat + len
       let words := fun w : Nat => decide ((j.start.toNat + seen) / 4 ≤ w) && decide (4 * w < j.start.toNat + j.reads)
       (c.scanEnd r < c.lnk.ticklen.toNat →
         (c.firstBad (spaceMemory j.space) words = none →
           ∃ t, exec .scanJobDone s = .next t ∧ t.pending = s.pending ∧ t.chip.dev = c.dev ∧ t.chip.scan.running = none ∧
             let y := t.chip.scan.cks[j.ck.val]
             y.val = v ∧ y.jobs = (c.scan.cks[j.ck.val]).jobs + 1 ∧ y.done = BitVec.ofNat 18 j.reads ∧
             (q.mode ≠ 1 → t.mem = s.mem) ∧ (q.mode ≠ 2 → y.outcome = 1) ∧
             (q.mode = 2 → y.outcome = if r.expected ++ rest = q.bytes v then 2 else 3) ∧
             (q.mode = 1 → c.ramLog = [] → past + q.appended ≤ 0x30000 →
               (∀ n (h : n < (q.bytes v).length), t.mem.ram.read (past + n) = (q.bytes v)[n]) ∧
               (∀ a, a < past ∨ past + (q.bytes v).length ≤ a → t.mem.ram.read a = s.mem.ram.read a) ∧
               t.mem.prog = s.mem.prog ∧ t.mem.cam = s.mem.cam ∧ t.mem.journal = s.mem.journal)) ∧
         ((c.firstBad (spaceMemory j.space) words).isSome = true →
           ∃ t, exec .scanJobDone s = .next t ∧ t.mem = s.mem ∧ t.chip.dev.state = .tripped ∧ t.chip.dev.cause = 5)) ∧
       (let need := (j.reads + 3) / 4 + 1
        let limit := (need + c.scanCycles - 1) / c.scanCycles + 1
        (limit ≤ (c.dev.tick - r.start).toNat → ∃ t, exec .scanJobTimeout s = .next t ∧ t.mem = s.mem ∧
           t.chip.scan.running = none ∧ (t.chip.scan.cks[j.ck.val]).outcome = 4 ∧
           (t.chip.scan.cks[j.ck.val]).val = (c.scan.cks[j.ck.val]).val) ∧
        ((c.dev.tick - r.start).toNat < limit → exec .scanJobTimeout s = .next s)))) ∧
  (∀ (s : State) (m : Fin 3) (e : ScrubErrors), s.chip.scrubRuns m = true → s.chip.may (.loop 84) = true →
     let c := s.chip
     let x := c.scan.scrub[m.val]
     let mem : Fin 6 := ⟨m.val, by omega⟩
     let words := (List.range x.rate.toNat).map fun i => (x.next.toNat + i) % scrubWords m
     let fixed := c.singles mem words e
     x.visited = false →
     (c.doubleIn mem words e = none → (m.val = 1 → e.verifyFail = none) →
       ∃ t, exec (.scrubVisit m e) s = .next t ∧ t.pending = s.pending ∧ t.mem = s.mem ∧ t.chip.dev.state = c.dev.state ∧
         t.chip.scan.scrub[m.val] = { x with
           visited := true, corr := BitVec.ofNat 12 (min 4095 (x.corr.toNat + fixed.length)),
           next := BitVec.ofNat 16 ((x.next.toNat + x.rate.toNat) % scrubWords m) } ∧
         ∀ f ∈ t.chip.flaws, f ∈ c.flaws ∧ (f.memory = mem → f.word ∈ words → f.double = true)) ∧
     (∀ a, c.doubleIn mem words e = some a → c.dev.state = .run ∨ c.dev.state = .admitting →
       ∃ t, exec (.scrubVisit m e) s = .next t ∧ t.mem = s.mem ∧ t.chip.dev.state = .tripped ∧ t.chip.dev.cause = 5)) ∧
  (∀ (s : State) (i : CkId), s.chip.running = true → s.chip.lnk.sckRunning = true →
     let c := s.chip
     let point := c.may (.loop 84) = true
     (∀ item, point → c.captures[i.val] = none → c.traceQueue.find? (fun t => t.channel.toNat = i.val) = some item →
       ∃ t, exec (.traceCaptureStart i) s = .next t ∧ SameMachine s t ∧ t.mem = s.mem ∧
         t.chip.traceQueue = c.traceQueue.erase item ∧
         t.chip.captures[i.val] = some ⟨item, c.dev.tick, [], 0, none, c.captureFault ⟨item, c.dev.tick, [], 0, none, false, false⟩, false⟩) ∧
     (∀ r : Capture, c.captures[i.val] = some r →
       let ended := fun (i' : Instr) (block : TraceBlock) => ∃ t, exec i' s = .next t ∧ t.pending = s.pending ∧ t.mem = s.mem ∧
         t.chip.captures[i.val] = none ∧ t.chip.blocks = c.blocks ++ [block] ∧ t.chip.cars = c.cars
       let samples := fun (f : Capture → Prop) => ∃ t u, exec (.traceSample i) s = .next t ∧ SameMachine s t ∧ t.mem = s.mem ∧
         t.chip.captures[i.val] = some u ∧ u.item = r.item ∧ u.start = r.start ∧ u.taken = r.taken + 1 ∧ f u
       (point → c.sampleDue r = true → r.complete = false →
         (r.trig = none → trigMode r.item.trigger = 0 → preSamples r.item.trigger = 0 →
           samples fun u => u.samples = [c.sourceValue r.item] ∧ u.trig = some r.taken) ∧
         (r.trig = none → r.taken < preSamples r.item.trigger →
           samples fun u => u.samples = c.sourceValue r.item :: r.samples.take (preSamples r.item.trigger) ∧ u.trig = none) ∧
         (r.trig.isSome = true → samples fun u => u.samples = c.sourceValue r.item :: r.samples ∧ u.trig = r.trig)) ∧
       (c.sampleDue r = false → exec (.traceSample i) s = .next s) ∧
       (r.complete = true → ∀ n, r.trig = some n → ended (.traceComplete i)
         ⟨r.item.channel, false, true, r.item.source,
           r.start + BitVec.ofNat 48 ((n - preSamples r.item.trigger) * samplePeriod r.item.trigger),
           BitVec.ofNat 16 (preSamples r.item.trigger), r.samples.reverse.take 4096⟩) ∧
       (r.complete = false → exec (.traceComplete i) s = .next s) ∧
       (r.trig = none → 1048576 ≤ (c.dev.tick - r.start).toNat →
         ended (.traceTimeout i) ⟨r.item.channel, true, false, r.item.source, r.start, 0, []⟩) ∧
       (r.trig = none → (c.dev.tick - r.start).toNat < 1048576 → exec (.traceTimeout i) s = .next s)))

/-! ### Journal and entropy (R104, R350 to R357) -/

/-- A record starts, once in a tick, with the next SEQ of its area, the chain of R350 and this tick's header; its commit writes the sixteen
words of its slot and no other, as one command, which is the model's reading (log entry 79); one that a stop of SCK cuts off waits at its
word (log entry 16); a write that fails its verify is JOURNAL_FAULT; the journal's scrub corrects its two words and goes on, or finds
JOURNAL_FAULT, and so does a correction that fails its verify. An interval of raw bits on its grid, in the cycle of the tick in which it
ends, gives the buffer one conditioned block while it has room, and once the source has failed it runs the tests alone (R93, R115, R350 to
R356); the order of the bits, that the phases and packets before that cycle are over by then (log entry 97), and which cause shows for a bit
that fails both tests (log entry 111) are the model's choices. -/
def Obligations.JournalAndEntropyRun : Prop :=
  ∀ s : State, s.mem.wf = true →
    let c := s.chip
    (∀ r rest, c.journalFree = true → c.journal.ready = true → c.journal.tornWaits = false → c.journal.tripDue = false →
      c.journal.queue = r :: rest → r.type ≠ 128 →
      let audit := r.flags.getLsbD 7
      let tail := c.chainTail audit
      let head := recordHead r.type r.source r.flags (tail.1 + 1) c.journal.admission c.dev.tick c.dev.wall r.body
      let chain := sha16 (bytesBE tail.2 16 ++ head)
      ∃ t, exec .journalRecordStart s = .next t ∧ SameMachine s t ∧ t.mem = s.mem ∧ t.chip.journal.queue = c.journal.queue ∧
        t.chip.journal.writing =
          some ⟨r, BitVec.ofNat 18 (c.nextSlot audit), tail.1 + 1, chain, recordWords 0xC3 head chain, true, none⟩) ∧
    (∀ w : JWriting, c.journal.writing = some w → c.lnk.sckRunning = true → c.brownedOut = false → c.journal.fault = false →
      (w.words.length = 16 → w.fromQueue = true →
        ∃ t, exec (.journalCommit .verified) s = .next t ∧ t.pending = s.pending ∧ t.chip.dev = c.dev ∧
          t.mem.ram = s.mem.ram ∧ t.mem.prog = s.mem.prog ∧ t.mem.cam = s.mem.cam ∧
          (∀ n (h : n < w.words.length), t.mem.journal.readBE (w.slot.toNat + n) = w.words[n]) ∧
          (∀ a, a < 4 * w.slot.toNat ∨ 4 * w.slot.toNat + 64 ≤ a → t.mem.journal.read a = s.mem.journal.read a) ∧
          t.chip.journal.writing = none ∧ t.chip.journal.queue = c.journal.queue.drop 1 ∧
          (w.item.flags.getLsbD 7 = true → t.chip.journal.auditCount = w.seq ∧ t.chip.journal.auditChain = w.chain ∧
            t.chip.journal.auditHead = c.journal.auditHead + 1 ∧ t.chip.journal.opHead = c.journal.opHead) ∧
          (w.item.flags.getLsbD 7 = false → t.chip.journal.opHead = w.seq ∧ t.chip.journal.opChain = w.chain ∧
            t.chip.journal.auditHead = c.journal.auditHead)) ∧
      (∀ (index : BitVec 5) (got : Word), (c.dev.state = .run ∨ c.dev.state = .admitting) →
        ∃ t, exec (.journalCommit (.verifyFail index got false)) s = .next t ∧ t.chip.journal.fault = true ∧
          t.chip.journal.writing = none ∧ t.chip.dev.state = .tripped ∧ t.chip.dev.cause = 6 ∧ t.chip.sec.sessions = c.sec.sessions ∧
          t.mem.ram = s.mem.ram ∧ t.mem.prog = s.mem.prog)) ∧
    (∀ (w : JWriting) (index : BitVec 5), c.journal.writing = some w → c.lnk.sckRunning = false → c.journal.fault = false →
      (w.cut = none → ∃ t, exec (.journalCommit (.interrupted index)) s = .next t ∧ t.pending = s.pending ∧ t.chip.dev = c.dev ∧
        t.mem.ram = s.mem.ram ∧ t.mem.prog = s.mem.prog ∧ t.mem.cam = s.mem.cam ∧ t.chip.journal.queue = c.journal.queue ∧
        t.chip.journal.writing = some { w with cut := some (min 16 index.toNat) }) ∧
      (w.cut.isSome = true → exec (.journalCommit (.interrupted index)) s = .next s)) ∧
    (∀ e : ScrubErrors, (c.dev.state = .admitting ∨ c.dev.state = .run ∨ c.dev.state = .tripped) → c.warning = false →
      c.journal.fault = false → c.journal.scrubbed = false → c.may (.loop 84) = true →
      let words := [c.journal.scrubNext.toNat, (c.journal.scrubNext + 1).toNat]
      (c.doubleIn 3 words e = none → e.verifyFail = none →
        ∃ t, exec (.journalScrub e) s = .next t ∧ SameMachine s t ∧ t.mem = s.mem ∧
          t.chip.journal = { c.journal with scrubNext := c.journal.scrubNext + 2, scrubbed := true } ∧
          ∀ f ∈ t.chip.flaws, f ∈ c.flaws ∧ (f.memory = 3 → f.word ∈ words → f.double = true)) ∧
      (∀ a, c.doubleIn 3 words e = some a → c.dev.state ≠ .tripped →
        ∃ t, exec (.journalScrub e) s = .next t ∧ t.chip.journal.fault = true ∧ t.chip.dev.state = .tripped ∧ t.chip.dev.cause = 6) ∧
      (∀ a, c.doubleIn 3 words e = none → e.verifyFail.map BitVec.toNat = some a → a ∈ c.singles 3 words e → c.dev.state ≠ .tripped →
        ∃ t, exec (.journalScrub e) s = .next t ∧ t.chip.journal.fault = true ∧ t.chip.dev.state = .tripped ∧ t.chip.dev.cause = 6)) ∧
    (∀ bits : BitVec 512, c.lnk.sckRunning = true → (c.dev.state = .admitting ∨ c.dev.state = .run ∨ c.dev.state = .tripped) →
      let begins := c.dev.tick.toNat * c.lnk.ticklen.toNat
      let finish := 32768 + 4096 * (c.sec.entropyTaken + 1)
      let waits := c.dev.state = .admitting ∧ c.dev.phase = 1 ∧ c.dev.stepRun = false
      let ahead := c.stage = .host ∧ begins + c.dev.hostCycles.toNat < finish ∧ c.lnk.section_ ≠ [] ∧ c.dev.hostStopped = false
      (begins + c.lnk.ticklen.toNat < finish ∨ c.changeDue = true ∨ ahead ∨ waits → exec (.entropyInterval bits) s = .next s) ∧
      (finish ≤ begins + c.lnk.ticklen.toNat → c.changeDue = false → ¬ ahead → ¬ waits →
      let r := c.sec.rawBits ((List.range 512).map fun i => bits.getLsbD (511 - i))
      (c.entropyFailed = true → exec (.entropyInterval bits) s = .next (s.act fun c =>
        { c.reach (finish - begins) with sec := { r.1 with entropyTaken := r.1.entropyTaken + 1 } })) ∧
      (c.entropyFailed = false → r.2 = 0 → ∃ t, exec (.entropyInterval bits) s = .next t ∧ SameMachine s t ∧ t.mem = s.mem ∧
        t.chip.stage = (c.reach (finish - begins)).stage ∧
        t.chip.sec.entropyTaken = c.sec.entropyTaken + 1 ∧
        t.chip.sec.entropyBuf = if c.sec.entropyBuf.length < 4 then c.sec.entropyBuf ++ [sha16 (bytesBE bits 64)]
          else c.sec.entropyBuf) ∧
      (c.entropyFailed = false → r.2 ≠ 0 → c.dev.state ≠ .tripped → ∃ t, exec (.entropyInterval bits) s = .next t ∧ t.chip.sec.entropyBuf = [] ∧
        t.chip.sec.entropyCause = r.2 ∧ t.chip.dev.state = .tripped ∧ t.chip.dev.cause = 8 ∧
        t.chip.dev.syndrome = r.2.setWidth 32)))
end

