-- ==== Sys2Proof/Laws/State.lean ====
section
/-! SUPPORT. What each update of the state leaves: one lemma per field per update, and the laws of channel updates. -/

namespace Sys2Proof.Machine

variable {α β : Type} {n : Nat}

@[simp] theorem upd_same (v : Vector α n) (i : Fin n) (f : α → α) : (upd v i f)[i.val] = f v[i.val] := by simp [upd]
@[simp] theorem upd_at (v : Vector α n) (i j : Fin n) (f : α → α) : (upd v i f)[j.val] = if j = i then f v[j.val] else v[j.val] := by
  unfold upd
  rw [Vector.getElem_set]
  by_cases h : i.val = j.val
  · have : j = i := Fin.ext h.symm
    subst this
    simp
  · have : j ≠ i := fun e => h (by rw [e])
    simp [h, this]
theorem upd_other (v : Vector α n) {i j : Fin n} (f : α → α) (h : j ≠ i) : (upd v i f)[j.val] = v[j.val] := by simp [h]
@[simp] theorem channels_at (f : Fin n → α) (i : Fin n) : (channels f)[i.val] = f i := by simp [channels]
@[simp] theorem vmap_at (f : Fin n → α → β) (v : Vector α n) (i : Fin n) : (vmap f v)[i.val] = f i v[i.val] := by simp [vmap]

/-! ### States -/

@[simp] theorem State.act_mem (s : State) (f : Chip → Chip) : (s.act f).mem = s.mem := rfl
@[simp] theorem State.act_pending (s : State) (f : Chip → Chip) : (s.act f).pending = s.pending := rfl
@[simp] theorem State.act_chip (s : State) (f : Chip → Chip) : (s.act f).chip = f s.chip := rfl
@[simp] theorem State.with_mem (s : State) (ws : List MemWrite) (c : Chip) : (s.with ws c).mem = s.mem.apply ws := rfl
@[simp] theorem State.with_pending (s : State) (ws : List MemWrite) (c : Chip) : (s.with ws c).pending = s.pending := rfl
@[simp] theorem State.with_chip (s : State) (ws : List MemWrite) (c : Chip) : (s.with ws c).chip = c.written ws := rfl
@[simp] theorem Mems.apply_nil (m : Mems) : m.apply [] = m := rfl
@[simp] theorem Chip.written_nil (c : Chip) : c.written [] = c := by simp [Chip.written]
theorem State.clock_of_running {s : State} (h : s.chip.lnk.sckRunning = true) (f : Chip → Chip) : s.clock f = s.act f := by
  simp [State.clock, h]
theorem State.clock_of_stopped {s : State} (h : s.chip.lnk.sckRunning = false) (f : Chip → Chip) : s.clock f = s := by
  simp [State.clock, h]
@[simp] theorem State.clock_mem (s : State) (f : Chip → Chip) : (s.clock f).mem = s.mem := by unfold State.clock; split <;> rfl
@[simp] theorem State.clock_pending (s : State) (f : Chip → Chip) : (s.clock f).pending = s.pending := by
  unfold State.clock; split <;> rfl

/-! ### The parts of the device -/

variable (c : Chip)

@[simp] theorem Chip.modThread_threads (t : ThreadId) (f : Thread → Thread) : (c.modThread t f).threads = upd c.threads t f := rfl
@[simp] theorem Chip.modThread_dev (t : ThreadId) (f : Thread → Thread) : (c.modThread t f).dev = c.dev := rfl
@[simp] theorem Chip.modThread_pwr (t : ThreadId) (f : Thread → Thread) : (c.modThread t f).pwr = c.pwr := rfl
@[simp] theorem Chip.modThread_lnk (t : ThreadId) (f : Thread → Thread) : (c.modThread t f).lnk = c.lnk := rfl
@[simp] theorem Chip.modThread_sec (t : ThreadId) (f : Thread → Thread) : (c.modThread t f).sec = c.sec := rfl
@[simp] theorem Chip.modThread_sps (t : ThreadId) (f : Thread → Thread) : (c.modThread t f).sps = c.sps := rfl
@[simp] theorem Chip.modThread_cars (t : ThreadId) (f : Thread → Thread) : (c.modThread t f).cars = c.cars := rfl
@[simp] theorem Chip.modThread_doors (t : ThreadId) (f : Thread → Thread) : (c.modThread t f).doors = c.doors := rfl
@[simp] theorem Chip.modThread_taps (t : ThreadId) (f : Thread → Thread) : (c.modThread t f).taps = c.taps := rfl
@[simp] theorem Chip.modThread_axes (t : ThreadId) (f : Thread → Thread) : (c.modThread t f).axes = c.axes := rfl
@[simp] theorem Chip.modThread_fbks (t : ThreadId) (f : Thread → Thread) : (c.modThread t f).fbks = c.fbks := rfl
@[simp] theorem Chip.modThread_loops (t : ThreadId) (f : Thread → Thread) : (c.modThread t f).loops = c.loops := rfl
@[simp] theorem Chip.modThread_fes (t : ThreadId) (f : Thread → Thread) : (c.modThread t f).fes = c.fes := rfl
@[simp] theorem Chip.modThread_cals (t : ThreadId) (f : Thread → Thread) : (c.modThread t f).cals = c.cals := rfl
@[simp] theorem Chip.modThread_scan (t : ThreadId) (f : Thread → Thread) : (c.modThread t f).scan = c.scan := rfl
@[simp] theorem Chip.modThread_traceQueue (t : ThreadId) (f : Thread → Thread) : (c.modThread t f).traceQueue = c.traceQueue := rfl
@[simp] theorem Chip.modThread_captures (t : ThreadId) (f : Thread → Thread) : (c.modThread t f).captures = c.captures := rfl
@[simp] theorem Chip.modThread_blocks (t : ThreadId) (f : Thread → Thread) : (c.modThread t f).blocks = c.blocks := rfl
@[simp] theorem Chip.modThread_sine (t : ThreadId) (f : Thread → Thread) : (c.modThread t f).sine = c.sine := rfl
@[simp] theorem Chip.modThread_sineNext (t : ThreadId) (f : Thread → Thread) : (c.modThread t f).sineNext = c.sineNext := rfl
@[simp] theorem Chip.modThread_journal (t : ThreadId) (f : Thread → Thread) : (c.modThread t f).journal = c.journal := rfl
@[simp] theorem Chip.modThread_free (t : ThreadId) (f : Thread → Thread) : (c.modThread t f).free = c.free := rfl
@[simp] theorem Chip.modThread_nextCredit (t : ThreadId) (f : Thread → Thread) : (c.modThread t f).nextCredit = c.nextCredit := rfl
@[simp] theorem Chip.modThread_stage (t : ThreadId) (f : Thread → Thread) : (c.modThread t f).stage = c.stage := rfl
@[simp] theorem Chip.modThread_flaws (t : ThreadId) (f : Thread → Thread) : (c.modThread t f).flaws = c.flaws := rfl
@[simp] theorem Chip.modThread_inputs (t : ThreadId) (f : Thread → Thread) : (c.modThread t f).inputs = c.inputs := rfl
@[simp] theorem Chip.modThread_ramLog (t : ThreadId) (f : Thread → Thread) : (c.modThread t f).ramLog = c.ramLog := rfl
@[simp] theorem Chip.modThread_turn (t : ThreadId) (f : Thread → Thread) : (c.modThread t f).turn = c.turn := rfl
@[simp] theorem Chip.modCar_cars (k : CarId) (f : Car → Car) : (c.modCar k f).cars = upd c.cars k f := rfl
@[simp] theorem Chip.modCar_dev (k : CarId) (f : Car → Car) : (c.modCar k f).dev = c.dev := rfl
@[simp] theorem Chip.modCar_pwr (k : CarId) (f : Car → Car) : (c.modCar k f).pwr = c.pwr := rfl
@[simp] theorem Chip.modCar_lnk (k : CarId) (f : Car → Car) : (c.modCar k f).lnk = c.lnk := rfl
@[simp] theorem Chip.modCar_sec (k : CarId) (f : Car → Car) : (c.modCar k f).sec = c.sec := rfl
@[simp] theorem Chip.modCar_sps (k : CarId) (f : Car → Car) : (c.modCar k f).sps = c.sps := rfl
@[simp] theorem Chip.modCar_threads (k : CarId) (f : Car → Car) : (c.modCar k f).threads = c.threads := rfl
@[simp] theorem Chip.modCar_doors (k : CarId) (f : Car → Car) : (c.modCar k f).doors = c.doors := rfl
@[simp] theorem Chip.modCar_taps (k : CarId) (f : Car → Car) : (c.modCar k f).taps = c.taps := rfl
@[simp] theorem Chip.modCar_axes (k : CarId) (f : Car → Car) : (c.modCar k f).axes = c.axes := rfl
@[simp] theorem Chip.modCar_fbks (k : CarId) (f : Car → Car) : (c.modCar k f).fbks = c.fbks := rfl
@[simp] theorem Chip.modCar_loops (k : CarId) (f : Car → Car) : (c.modCar k f).loops = c.loops := rfl
@[simp] theorem Chip.modCar_fes (k : CarId) (f : Car → Car) : (c.modCar k f).fes = c.fes := rfl
@[simp] theorem Chip.modCar_cals (k : CarId) (f : Car → Car) : (c.modCar k f).cals = c.cals := rfl
@[simp] theorem Chip.modCar_scan (k : CarId) (f : Car → Car) : (c.modCar k f).scan = c.scan := rfl
@[simp] theorem Chip.modCar_traceQueue (k : CarId) (f : Car → Car) : (c.modCar k f).traceQueue = c.traceQueue := rfl
@[simp] theorem Chip.modCar_captures (k : CarId) (f : Car → Car) : (c.modCar k f).captures = c.captures := rfl
@[simp] theorem Chip.modCar_blocks (k : CarId) (f : Car → Car) : (c.modCar k f).blocks = c.blocks := rfl
@[simp] theorem Chip.modCar_sine (k : CarId) (f : Car → Car) : (c.modCar k f).sine = c.sine := rfl
@[simp] theorem Chip.modCar_sineNext (k : CarId) (f : Car → Car) : (c.modCar k f).sineNext = c.sineNext := rfl
@[simp] theorem Chip.modCar_journal (k : CarId) (f : Car → Car) : (c.modCar k f).journal = c.journal := rfl
@[simp] theorem Chip.modCar_free (k : CarId) (f : Car → Car) : (c.modCar k f).free = c.free := rfl
@[simp] theorem Chip.modCar_nextCredit (k : CarId) (f : Car → Car) : (c.modCar k f).nextCredit = c.nextCredit := rfl
@[simp] theorem Chip.modCar_stage (k : CarId) (f : Car → Car) : (c.modCar k f).stage = c.stage := rfl
@[simp] theorem Chip.modCar_flaws (k : CarId) (f : Car → Car) : (c.modCar k f).flaws = c.flaws := rfl
@[simp] theorem Chip.modCar_inputs (k : CarId) (f : Car → Car) : (c.modCar k f).inputs = c.inputs := rfl
@[simp] theorem Chip.modCar_ramLog (k : CarId) (f : Car → Car) : (c.modCar k f).ramLog = c.ramLog := rfl
@[simp] theorem Chip.modCar_turn (k : CarId) (f : Car → Car) : (c.modCar k f).turn = c.turn := rfl
@[simp] theorem Chip.modIlk_cars (k : CarId) (f : Ilk → Ilk) : (c.modIlk k f).cars = upd c.cars k fun x => { x with ilk := f x.ilk } := rfl
@[simp] theorem Chip.modIlk_dev (k : CarId) (f : Ilk → Ilk) : (c.modIlk k f).dev = c.dev := rfl
@[simp] theorem Chip.modIlk_pwr (k : CarId) (f : Ilk → Ilk) : (c.modIlk k f).pwr = c.pwr := rfl
@[simp] theorem Chip.modIlk_lnk (k : CarId) (f : Ilk → Ilk) : (c.modIlk k f).lnk = c.lnk := rfl
@[simp] theorem Chip.modIlk_sec (k : CarId) (f : Ilk → Ilk) : (c.modIlk k f).sec = c.sec := rfl
@[simp] theorem Chip.modIlk_sps (k : CarId) (f : Ilk → Ilk) : (c.modIlk k f).sps = c.sps := rfl
@[simp] theorem Chip.modIlk_threads (k : CarId) (f : Ilk → Ilk) : (c.modIlk k f).threads = c.threads := rfl
@[simp] theorem Chip.modIlk_doors (k : CarId) (f : Ilk → Ilk) : (c.modIlk k f).doors = c.doors := rfl
@[simp] theorem Chip.modIlk_taps (k : CarId) (f : Ilk → Ilk) : (c.modIlk k f).taps = c.taps := rfl
@[simp] theorem Chip.modIlk_axes (k : CarId) (f : Ilk → Ilk) : (c.modIlk k f).axes = c.axes := rfl
@[simp] theorem Chip.modIlk_fbks (k : CarId) (f : Ilk → Ilk) : (c.modIlk k f).fbks = c.fbks := rfl
@[simp] theorem Chip.modIlk_loops (k : CarId) (f : Ilk → Ilk) : (c.modIlk k f).loops = c.loops := rfl
@[simp] theorem Chip.modIlk_fes (k : CarId) (f : Ilk → Ilk) : (c.modIlk k f).fes = c.fes := rfl
@[simp] theorem Chip.modIlk_cals (k : CarId) (f : Ilk → Ilk) : (c.modIlk k f).cals = c.cals := rfl
@[simp] theorem Chip.modIlk_scan (k : CarId) (f : Ilk → Ilk) : (c.modIlk k f).scan = c.scan := rfl
@[simp] theorem Chip.modIlk_traceQueue (k : CarId) (f : Ilk → Ilk) : (c.modIlk k f).traceQueue = c.traceQueue := rfl
@[simp] theorem Chip.modIlk_captures (k : CarId) (f : Ilk → Ilk) : (c.modIlk k f).captures = c.captures := rfl
@[simp] theorem Chip.modIlk_blocks (k : CarId) (f : Ilk → Ilk) : (c.modIlk k f).blocks = c.blocks := rfl
@[simp] theorem Chip.modIlk_sine (k : CarId) (f : Ilk → Ilk) : (c.modIlk k f).sine = c.sine := rfl
@[simp] theorem Chip.modIlk_sineNext (k : CarId) (f : Ilk → Ilk) : (c.modIlk k f).sineNext = c.sineNext := rfl
@[simp] theorem Chip.modIlk_journal (k : CarId) (f : Ilk → Ilk) : (c.modIlk k f).journal = c.journal := rfl
@[simp] theorem Chip.modIlk_free (k : CarId) (f : Ilk → Ilk) : (c.modIlk k f).free = c.free := rfl
@[simp] theorem Chip.modIlk_nextCredit (k : CarId) (f : Ilk → Ilk) : (c.modIlk k f).nextCredit = c.nextCredit := rfl
@[simp] theorem Chip.modIlk_stage (k : CarId) (f : Ilk → Ilk) : (c.modIlk k f).stage = c.stage := rfl
@[simp] theorem Chip.modIlk_flaws (k : CarId) (f : Ilk → Ilk) : (c.modIlk k f).flaws = c.flaws := rfl
@[simp] theorem Chip.modIlk_inputs (k : CarId) (f : Ilk → Ilk) : (c.modIlk k f).inputs = c.inputs := rfl
@[simp] theorem Chip.modIlk_ramLog (k : CarId) (f : Ilk → Ilk) : (c.modIlk k f).ramLog = c.ramLog := rfl
@[simp] theorem Chip.modIlk_turn (k : CarId) (f : Ilk → Ilk) : (c.modIlk k f).turn = c.turn := rfl
@[simp] theorem Chip.modDoor_doors (d : DoorId) (f : Door → Door) : (c.modDoor d f).doors = upd c.doors d f := rfl
@[simp] theorem Chip.modDoor_dev (d : DoorId) (f : Door → Door) : (c.modDoor d f).dev = c.dev := rfl
@[simp] theorem Chip.modDoor_pwr (d : DoorId) (f : Door → Door) : (c.modDoor d f).pwr = c.pwr := rfl
@[simp] theorem Chip.modDoor_lnk (d : DoorId) (f : Door → Door) : (c.modDoor d f).lnk = c.lnk := rfl
@[simp] theorem Chip.modDoor_sec (d : DoorId) (f : Door → Door) : (c.modDoor d f).sec = c.sec := rfl
@[simp] theorem Chip.modDoor_sps (d : DoorId) (f : Door → Door) : (c.modDoor d f).sps = c.sps := rfl
@[simp] theorem Chip.modDoor_threads (d : DoorId) (f : Door → Door) : (c.modDoor d f).threads = c.threads := rfl
@[simp] theorem Chip.modDoor_cars (d : DoorId) (f : Door → Door) : (c.modDoor d f).cars = c.cars := rfl
@[simp] theorem Chip.modDoor_taps (d : DoorId) (f : Door → Door) : (c.modDoor d f).taps = c.taps := rfl
@[simp] theorem Chip.modDoor_axes (d : DoorId) (f : Door → Door) : (c.modDoor d f).axes = c.axes := rfl
@[simp] theorem Chip.modDoor_fbks (d : DoorId) (f : Door → Door) : (c.modDoor d f).fbks = c.fbks := rfl
@[simp] theorem Chip.modDoor_loops (d : DoorId) (f : Door → Door) : (c.modDoor d f).loops = c.loops := rfl
@[simp] theorem Chip.modDoor_fes (d : DoorId) (f : Door → Door) : (c.modDoor d f).fes = c.fes := rfl
@[simp] theorem Chip.modDoor_cals (d : DoorId) (f : Door → Door) : (c.modDoor d f).cals = c.cals := rfl
@[simp] theorem Chip.modDoor_scan (d : DoorId) (f : Door → Door) : (c.modDoor d f).scan = c.scan := rfl
@[simp] theorem Chip.modDoor_traceQueue (d : DoorId) (f : Door → Door) : (c.modDoor d f).traceQueue = c.traceQueue := rfl
@[simp] theorem Chip.modDoor_captures (d : DoorId) (f : Door → Door) : (c.modDoor d f).captures = c.captures := rfl
@[simp] theorem Chip.modDoor_blocks (d : DoorId) (f : Door → Door) : (c.modDoor d f).blocks = c.blocks := rfl
@[simp] theorem Chip.modDoor_sine (d : DoorId) (f : Door → Door) : (c.modDoor d f).sine = c.sine := rfl
@[simp] theorem Chip.modDoor_sineNext (d : DoorId) (f : Door → Door) : (c.modDoor d f).sineNext = c.sineNext := rfl
@[simp] theorem Chip.modDoor_journal (d : DoorId) (f : Door → Door) : (c.modDoor d f).journal = c.journal := rfl
@[simp] theorem Chip.modDoor_free (d : DoorId) (f : Door → Door) : (c.modDoor d f).free = c.free := rfl
@[simp] theorem Chip.modDoor_nextCredit (d : DoorId) (f : Door → Door) : (c.modDoor d f).nextCredit = c.nextCredit := rfl
@[simp] theorem Chip.modDoor_stage (d : DoorId) (f : Door → Door) : (c.modDoor d f).stage = c.stage := rfl
@[simp] theorem Chip.modDoor_flaws (d : DoorId) (f : Door → Door) : (c.modDoor d f).flaws = c.flaws := rfl
@[simp] theorem Chip.modDoor_inputs (d : DoorId) (f : Door → Door) : (c.modDoor d f).inputs = c.inputs := rfl
@[simp] theorem Chip.modDoor_ramLog (d : DoorId) (f : Door → Door) : (c.modDoor d f).ramLog = c.ramLog := rfl
@[simp] theorem Chip.modDoor_turn (d : DoorId) (f : Door → Door) : (c.modDoor d f).turn = c.turn := rfl
@[simp] theorem Chip.modAxis_axes (a : AxisId) (f : Axis → Axis) : (c.modAxis a f).axes = upd c.axes a f := rfl
@[simp] theorem Chip.modAxis_dev (a : AxisId) (f : Axis → Axis) : (c.modAxis a f).dev = c.dev := rfl
@[simp] theorem Chip.modAxis_pwr (a : AxisId) (f : Axis → Axis) : (c.modAxis a f).pwr = c.pwr := rfl
@[simp] theorem Chip.modAxis_lnk (a : AxisId) (f : Axis → Axis) : (c.modAxis a f).lnk = c.lnk := rfl
@[simp] theorem Chip.modAxis_sec (a : AxisId) (f : Axis → Axis) : (c.modAxis a f).sec = c.sec := rfl
@[simp] theorem Chip.modAxis_sps (a : AxisId) (f : Axis → Axis) : (c.modAxis a f).sps = c.sps := rfl
@[simp] theorem Chip.modAxis_threads (a : AxisId) (f : Axis → Axis) : (c.modAxis a f).threads = c.threads := rfl
@[simp] theorem Chip.modAxis_cars (a : AxisId) (f : Axis → Axis) : (c.modAxis a f).cars = c.cars := rfl
@[simp] theorem Chip.modAxis_doors (a : AxisId) (f : Axis → Axis) : (c.modAxis a f).doors = c.doors := rfl
@[simp] theorem Chip.modAxis_taps (a : AxisId) (f : Axis → Axis) : (c.modAxis a f).taps = c.taps := rfl
@[simp] theorem Chip.modAxis_fbks (a : AxisId) (f : Axis → Axis) : (c.modAxis a f).fbks = c.fbks := rfl
@[simp] theorem Chip.modAxis_loops (a : AxisId) (f : Axis → Axis) : (c.modAxis a f).loops = c.loops := rfl
@[simp] theorem Chip.modAxis_fes (a : AxisId) (f : Axis → Axis) : (c.modAxis a f).fes = c.fes := rfl
@[simp] theorem Chip.modAxis_cals (a : AxisId) (f : Axis → Axis) : (c.modAxis a f).cals = c.cals := rfl
@[simp] theorem Chip.modAxis_scan (a : AxisId) (f : Axis → Axis) : (c.modAxis a f).scan = c.scan := rfl
@[simp] theorem Chip.modAxis_traceQueue (a : AxisId) (f : Axis → Axis) : (c.modAxis a f).traceQueue = c.traceQueue := rfl
@[simp] theorem Chip.modAxis_captures (a : AxisId) (f : Axis → Axis) : (c.modAxis a f).captures = c.captures := rfl
@[simp] theorem Chip.modAxis_blocks (a : AxisId) (f : Axis → Axis) : (c.modAxis a f).blocks = c.blocks := rfl
@[simp] theorem Chip.modAxis_sine (a : AxisId) (f : Axis → Axis) : (c.modAxis a f).sine = c.sine := rfl
@[simp] theorem Chip.modAxis_sineNext (a : AxisId) (f : Axis → Axis) : (c.modAxis a f).sineNext = c.sineNext := rfl
@[simp] theorem Chip.modAxis_journal (a : AxisId) (f : Axis → Axis) : (c.modAxis a f).journal = c.journal := rfl
@[simp] theorem Chip.modAxis_free (a : AxisId) (f : Axis → Axis) : (c.modAxis a f).free = c.free := rfl
@[simp] theorem Chip.modAxis_nextCredit (a : AxisId) (f : Axis → Axis) : (c.modAxis a f).nextCredit = c.nextCredit := rfl
@[simp] theorem Chip.modAxis_stage (a : AxisId) (f : Axis → Axis) : (c.modAxis a f).stage = c.stage := rfl
@[simp] theorem Chip.modAxis_flaws (a : AxisId) (f : Axis → Axis) : (c.modAxis a f).flaws = c.flaws := rfl
@[simp] theorem Chip.modAxis_inputs (a : AxisId) (f : Axis → Axis) : (c.modAxis a f).inputs = c.inputs := rfl
@[simp] theorem Chip.modAxis_ramLog (a : AxisId) (f : Axis → Axis) : (c.modAxis a f).ramLog = c.ramLog := rfl
@[simp] theorem Chip.modAxis_turn (a : AxisId) (f : Axis → Axis) : (c.modAxis a f).turn = c.turn := rfl
@[simp] theorem Chip.modFbk_fbks (i : FbkId) (f : Fbk → Fbk) : (c.modFbk i f).fbks = upd c.fbks i f := rfl
@[simp] theorem Chip.modFbk_dev (i : FbkId) (f : Fbk → Fbk) : (c.modFbk i f).dev = c.dev := rfl
@[simp] theorem Chip.modFbk_pwr (i : FbkId) (f : Fbk → Fbk) : (c.modFbk i f).pwr = c.pwr := rfl
@[simp] theorem Chip.modFbk_lnk (i : FbkId) (f : Fbk → Fbk) : (c.modFbk i f).lnk = c.lnk := rfl
@[simp] theorem Chip.modFbk_sec (i : FbkId) (f : Fbk → Fbk) : (c.modFbk i f).sec = c.sec := rfl
@[simp] theorem Chip.modFbk_sps (i : FbkId) (f : Fbk → Fbk) : (c.modFbk i f).sps = c.sps := rfl
@[simp] theorem Chip.modFbk_threads (i : FbkId) (f : Fbk → Fbk) : (c.modFbk i f).threads = c.threads := rfl
@[simp] theorem Chip.modFbk_cars (i : FbkId) (f : Fbk → Fbk) : (c.modFbk i f).cars = c.cars := rfl
@[simp] theorem Chip.modFbk_doors (i : FbkId) (f : Fbk → Fbk) : (c.modFbk i f).doors = c.doors := rfl
@[simp] theorem Chip.modFbk_taps (i : FbkId) (f : Fbk → Fbk) : (c.modFbk i f).taps = c.taps := rfl
@[simp] theorem Chip.modFbk_axes (i : FbkId) (f : Fbk → Fbk) : (c.modFbk i f).axes = c.axes := rfl
@[simp] theorem Chip.modFbk_loops (i : FbkId) (f : Fbk → Fbk) : (c.modFbk i f).loops = c.loops := rfl
@[simp] theorem Chip.modFbk_fes (i : FbkId) (f : Fbk → Fbk) : (c.modFbk i f).fes = c.fes := rfl
@[simp] theorem Chip.modFbk_cals (i : FbkId) (f : Fbk → Fbk) : (c.modFbk i f).cals = c.cals := rfl
@[simp] theorem Chip.modFbk_scan (i : FbkId) (f : Fbk → Fbk) : (c.modFbk i f).scan = c.scan := rfl
@[simp] theorem Chip.modFbk_traceQueue (i : FbkId) (f : Fbk → Fbk) : (c.modFbk i f).traceQueue = c.traceQueue := rfl
@[simp] theorem Chip.modFbk_captures (i : FbkId) (f : Fbk → Fbk) : (c.modFbk i f).captures = c.captures := rfl
@[simp] theorem Chip.modFbk_blocks (i : FbkId) (f : Fbk → Fbk) : (c.modFbk i f).blocks = c.blocks := rfl
@[simp] theorem Chip.modFbk_sine (i : FbkId) (f : Fbk → Fbk) : (c.modFbk i f).sine = c.sine := rfl
@[simp] theorem Chip.modFbk_sineNext (i : FbkId) (f : Fbk → Fbk) : (c.modFbk i f).sineNext = c.sineNext := rfl
@[simp] theorem Chip.modFbk_journal (i : FbkId) (f : Fbk → Fbk) : (c.modFbk i f).journal = c.journal := rfl
@[simp] theorem Chip.modFbk_free (i : FbkId) (f : Fbk → Fbk) : (c.modFbk i f).free = c.free := rfl
@[simp] theorem Chip.modFbk_nextCredit (i : FbkId) (f : Fbk → Fbk) : (c.modFbk i f).nextCredit = c.nextCredit := rfl
@[simp] theorem Chip.modFbk_stage (i : FbkId) (f : Fbk → Fbk) : (c.modFbk i f).stage = c.stage := rfl
@[simp] theorem Chip.modFbk_flaws (i : FbkId) (f : Fbk → Fbk) : (c.modFbk i f).flaws = c.flaws := rfl
@[simp] theorem Chip.modFbk_inputs (i : FbkId) (f : Fbk → Fbk) : (c.modFbk i f).inputs = c.inputs := rfl
@[simp] theorem Chip.modFbk_ramLog (i : FbkId) (f : Fbk → Fbk) : (c.modFbk i f).ramLog = c.ramLog := rfl
@[simp] theorem Chip.modFbk_turn (i : FbkId) (f : Fbk → Fbk) : (c.modFbk i f).turn = c.turn := rfl
@[simp] theorem Chip.modLoop_loops (l : LoopId) (f : Loop → Loop) : (c.modLoop l f).loops = upd c.loops l f := rfl
@[simp] theorem Chip.modLoop_dev (l : LoopId) (f : Loop → Loop) : (c.modLoop l f).dev = c.dev := rfl
@[simp] theorem Chip.modLoop_pwr (l : LoopId) (f : Loop → Loop) : (c.modLoop l f).pwr = c.pwr := rfl
@[simp] theorem Chip.modLoop_lnk (l : LoopId) (f : Loop → Loop) : (c.modLoop l f).lnk = c.lnk := rfl
@[simp] theorem Chip.modLoop_sec (l : LoopId) (f : Loop → Loop) : (c.modLoop l f).sec = c.sec := rfl
@[simp] theorem Chip.modLoop_sps (l : LoopId) (f : Loop → Loop) : (c.modLoop l f).sps = c.sps := rfl
@[simp] theorem Chip.modLoop_threads (l : LoopId) (f : Loop → Loop) : (c.modLoop l f).threads = c.threads := rfl
@[simp] theorem Chip.modLoop_cars (l : LoopId) (f : Loop → Loop) : (c.modLoop l f).cars = c.cars := rfl
@[simp] theorem Chip.modLoop_doors (l : LoopId) (f : Loop → Loop) : (c.modLoop l f).doors = c.doors := rfl
@[simp] theorem Chip.modLoop_taps (l : LoopId) (f : Loop → Loop) : (c.modLoop l f).taps = c.taps := rfl
@[simp] theorem Chip.modLoop_axes (l : LoopId) (f : Loop → Loop) : (c.modLoop l f).axes = c.axes := rfl
@[simp] theorem Chip.modLoop_fbks (l : LoopId) (f : Loop → Loop) : (c.modLoop l f).fbks = c.fbks := rfl
@[simp] theorem Chip.modLoop_fes (l : LoopId) (f : Loop → Loop) : (c.modLoop l f).fes = c.fes := rfl
@[simp] theorem Chip.modLoop_cals (l : LoopId) (f : Loop → Loop) : (c.modLoop l f).cals = c.cals := rfl
@[simp] theorem Chip.modLoop_scan (l : LoopId) (f : Loop → Loop) : (c.modLoop l f).scan = c.scan := rfl
@[simp] theorem Chip.modLoop_traceQueue (l : LoopId) (f : Loop → Loop) : (c.modLoop l f).traceQueue = c.traceQueue := rfl
@[simp] theorem Chip.modLoop_captures (l : LoopId) (f : Loop → Loop) : (c.modLoop l f).captures = c.captures := rfl
@[simp] theorem Chip.modLoop_blocks (l : LoopId) (f : Loop → Loop) : (c.modLoop l f).blocks = c.blocks := rfl
@[simp] theorem Chip.modLoop_sine (l : LoopId) (f : Loop → Loop) : (c.modLoop l f).sine = c.sine := rfl
@[simp] theorem Chip.modLoop_sineNext (l : LoopId) (f : Loop → Loop) : (c.modLoop l f).sineNext = c.sineNext := rfl
@[simp] theorem Chip.modLoop_journal (l : LoopId) (f : Loop → Loop) : (c.modLoop l f).journal = c.journal := rfl
@[simp] theorem Chip.modLoop_free (l : LoopId) (f : Loop → Loop) : (c.modLoop l f).free = c.free := rfl
@[simp] theorem Chip.modLoop_nextCredit (l : LoopId) (f : Loop → Loop) : (c.modLoop l f).nextCredit = c.nextCredit := rfl
@[simp] theorem Chip.modLoop_stage (l : LoopId) (f : Loop → Loop) : (c.modLoop l f).stage = c.stage := rfl
@[simp] theorem Chip.modLoop_flaws (l : LoopId) (f : Loop → Loop) : (c.modLoop l f).flaws = c.flaws := rfl
@[simp] theorem Chip.modLoop_inputs (l : LoopId) (f : Loop → Loop) : (c.modLoop l f).inputs = c.inputs := rfl
@[simp] theorem Chip.modLoop_ramLog (l : LoopId) (f : Loop → Loop) : (c.modLoop l f).ramLog = c.ramLog := rfl
@[simp] theorem Chip.modLoop_turn (l : LoopId) (f : Loop → Loop) : (c.modLoop l f).turn = c.turn := rfl
@[simp] theorem Chip.modFe_fes (x : FeId) (f : Fe → Fe) : (c.modFe x f).fes = upd c.fes x f := rfl
@[simp] theorem Chip.modFe_dev (x : FeId) (f : Fe → Fe) : (c.modFe x f).dev = c.dev := rfl
@[simp] theorem Chip.modFe_pwr (x : FeId) (f : Fe → Fe) : (c.modFe x f).pwr = c.pwr := rfl
@[simp] theorem Chip.modFe_lnk (x : FeId) (f : Fe → Fe) : (c.modFe x f).lnk = c.lnk := rfl
@[simp] theorem Chip.modFe_sec (x : FeId) (f : Fe → Fe) : (c.modFe x f).sec = c.sec := rfl
@[simp] theorem Chip.modFe_sps (x : FeId) (f : Fe → Fe) : (c.modFe x f).sps = c.sps := rfl
@[simp] theorem Chip.modFe_threads (x : FeId) (f : Fe → Fe) : (c.modFe x f).threads = c.threads := rfl
@[simp] theorem Chip.modFe_cars (x : FeId) (f : Fe → Fe) : (c.modFe x f).cars = c.cars := rfl
@[simp] theorem Chip.modFe_doors (x : FeId) (f : Fe → Fe) : (c.modFe x f).doors = c.doors := rfl
@[simp] theorem Chip.modFe_taps (x : FeId) (f : Fe → Fe) : (c.modFe x f).taps = c.taps := rfl
@[simp] theorem Chip.modFe_axes (x : FeId) (f : Fe → Fe) : (c.modFe x f).axes = c.axes := rfl
@[simp] theorem Chip.modFe_fbks (x : FeId) (f : Fe → Fe) : (c.modFe x f).fbks = c.fbks := rfl
@[simp] theorem Chip.modFe_loops (x : FeId) (f : Fe → Fe) : (c.modFe x f).loops = c.loops := rfl
@[simp] theorem Chip.modFe_cals (x : FeId) (f : Fe → Fe) : (c.modFe x f).cals = c.cals := rfl
@[simp] theorem Chip.modFe_scan (x : FeId) (f : Fe → Fe) : (c.modFe x f).scan = c.scan := rfl
@[simp] theorem Chip.modFe_traceQueue (x : FeId) (f : Fe → Fe) : (c.modFe x f).traceQueue = c.traceQueue := rfl
@[simp] theorem Chip.modFe_captures (x : FeId) (f : Fe → Fe) : (c.modFe x f).captures = c.captures := rfl
@[simp] theorem Chip.modFe_blocks (x : FeId) (f : Fe → Fe) : (c.modFe x f).blocks = c.blocks := rfl
@[simp] theorem Chip.modFe_sine (x : FeId) (f : Fe → Fe) : (c.modFe x f).sine = c.sine := rfl
@[simp] theorem Chip.modFe_sineNext (x : FeId) (f : Fe → Fe) : (c.modFe x f).sineNext = c.sineNext := rfl
@[simp] theorem Chip.modFe_journal (x : FeId) (f : Fe → Fe) : (c.modFe x f).journal = c.journal := rfl
@[simp] theorem Chip.modFe_free (x : FeId) (f : Fe → Fe) : (c.modFe x f).free = c.free := rfl
@[simp] theorem Chip.modFe_nextCredit (x : FeId) (f : Fe → Fe) : (c.modFe x f).nextCredit = c.nextCredit := rfl
@[simp] theorem Chip.modFe_stage (x : FeId) (f : Fe → Fe) : (c.modFe x f).stage = c.stage := rfl
@[simp] theorem Chip.modFe_flaws (x : FeId) (f : Fe → Fe) : (c.modFe x f).flaws = c.flaws := rfl
@[simp] theorem Chip.modFe_inputs (x : FeId) (f : Fe → Fe) : (c.modFe x f).inputs = c.inputs := rfl
@[simp] theorem Chip.modFe_ramLog (x : FeId) (f : Fe → Fe) : (c.modFe x f).ramLog = c.ramLog := rfl
@[simp] theorem Chip.modFe_turn (x : FeId) (f : Fe → Fe) : (c.modFe x f).turn = c.turn := rfl
@[simp] theorem Chip.modCal_cals (g : CarId) (f : CalGroup → CalGroup) : (c.modCal g f).cals = upd c.cals g f := rfl
@[simp] theorem Chip.modCal_dev (g : CarId) (f : CalGroup → CalGroup) : (c.modCal g f).dev = c.dev := rfl
@[simp] theorem Chip.modCal_pwr (g : CarId) (f : CalGroup → CalGroup) : (c.modCal g f).pwr = c.pwr := rfl
@[simp] theorem Chip.modCal_lnk (g : CarId) (f : CalGroup → CalGroup) : (c.modCal g f).lnk = c.lnk := rfl
@[simp] theorem Chip.modCal_sec (g : CarId) (f : CalGroup → CalGroup) : (c.modCal g f).sec = c.sec := rfl
@[simp] theorem Chip.modCal_sps (g : CarId) (f : CalGroup → CalGroup) : (c.modCal g f).sps = c.sps := rfl
@[simp] theorem Chip.modCal_threads (g : CarId) (f : CalGroup → CalGroup) : (c.modCal g f).threads = c.threads := rfl
@[simp] theorem Chip.modCal_cars (g : CarId) (f : CalGroup → CalGroup) : (c.modCal g f).cars = c.cars := rfl
@[simp] theorem Chip.modCal_doors (g : CarId) (f : CalGroup → CalGroup) : (c.modCal g f).doors = c.doors := rfl
@[simp] theorem Chip.modCal_taps (g : CarId) (f : CalGroup → CalGroup) : (c.modCal g f).taps = c.taps := rfl
@[simp] theorem Chip.modCal_axes (g : CarId) (f : CalGroup → CalGroup) : (c.modCal g f).axes = c.axes := rfl
@[simp] theorem Chip.modCal_fbks (g : CarId) (f : CalGroup → CalGroup) : (c.modCal g f).fbks = c.fbks := rfl
@[simp] theorem Chip.modCal_loops (g : CarId) (f : CalGroup → CalGroup) : (c.modCal g f).loops = c.loops := rfl
@[simp] theorem Chip.modCal_fes (g : CarId) (f : CalGroup → CalGroup) : (c.modCal g f).fes = c.fes := rfl
@[simp] theorem Chip.modCal_scan (g : CarId) (f : CalGroup → CalGroup) : (c.modCal g f).scan = c.scan := rfl
@[simp] theorem Chip.modCal_traceQueue (g : CarId) (f : CalGroup → CalGroup) : (c.modCal g f).traceQueue = c.traceQueue := rfl
@[simp] theorem Chip.modCal_captures (g : CarId) (f : CalGroup → CalGroup) : (c.modCal g f).captures = c.captures := rfl
@[simp] theorem Chip.modCal_blocks (g : CarId) (f : CalGroup → CalGroup) : (c.modCal g f).blocks = c.blocks := rfl
@[simp] theorem Chip.modCal_sine (g : CarId) (f : CalGroup → CalGroup) : (c.modCal g f).sine = c.sine := rfl
@[simp] theorem Chip.modCal_sineNext (g : CarId) (f : CalGroup → CalGroup) : (c.modCal g f).sineNext = c.sineNext := rfl
@[simp] theorem Chip.modCal_journal (g : CarId) (f : CalGroup → CalGroup) : (c.modCal g f).journal = c.journal := rfl
@[simp] theorem Chip.modCal_free (g : CarId) (f : CalGroup → CalGroup) : (c.modCal g f).free = c.free := rfl
@[simp] theorem Chip.modCal_nextCredit (g : CarId) (f : CalGroup → CalGroup) : (c.modCal g f).nextCredit = c.nextCredit := rfl
@[simp] theorem Chip.modCal_stage (g : CarId) (f : CalGroup → CalGroup) : (c.modCal g f).stage = c.stage := rfl
@[simp] theorem Chip.modCal_flaws (g : CarId) (f : CalGroup → CalGroup) : (c.modCal g f).flaws = c.flaws := rfl
@[simp] theorem Chip.modCal_inputs (g : CarId) (f : CalGroup → CalGroup) : (c.modCal g f).inputs = c.inputs := rfl
@[simp] theorem Chip.modCal_ramLog (g : CarId) (f : CalGroup → CalGroup) : (c.modCal g f).ramLog = c.ramLog := rfl
@[simp] theorem Chip.modCal_turn (g : CarId) (f : CalGroup → CalGroup) : (c.modCal g f).turn = c.turn := rfl
@[simp] theorem Chip.modDev_dev (f : Dev → Dev) : (c.modDev f).dev = f c.dev := rfl
@[simp] theorem Chip.modDev_pwr (f : Dev → Dev) : (c.modDev f).pwr = c.pwr := rfl
@[simp] theorem Chip.modDev_lnk (f : Dev → Dev) : (c.modDev f).lnk = c.lnk := rfl
@[simp] theorem Chip.modDev_sec (f : Dev → Dev) : (c.modDev f).sec = c.sec := rfl
@[simp] theorem Chip.modDev_sps (f : Dev → Dev) : (c.modDev f).sps = c.sps := rfl
@[simp] theorem Chip.modDev_threads (f : Dev → Dev) : (c.modDev f).threads = c.threads := rfl
@[simp] theorem Chip.modDev_cars (f : Dev → Dev) : (c.modDev f).cars = c.cars := rfl
@[simp] theorem Chip.modDev_doors (f : Dev → Dev) : (c.modDev f).doors = c.doors := rfl
@[simp] theorem Chip.modDev_taps (f : Dev → Dev) : (c.modDev f).taps = c.taps := rfl
@[simp] theorem Chip.modDev_axes (f : Dev → Dev) : (c.modDev f).axes = c.axes := rfl
@[simp] theorem Chip.modDev_fbks (f : Dev → Dev) : (c.modDev f).fbks = c.fbks := rfl
@[simp] theorem Chip.modDev_loops (f : Dev → Dev) : (c.modDev f).loops = c.loops := rfl
@[simp] theorem Chip.modDev_fes (f : Dev → Dev) : (c.modDev f).fes = c.fes := rfl
@[simp] theorem Chip.modDev_cals (f : Dev → Dev) : (c.modDev f).cals = c.cals := rfl
@[simp] theorem Chip.modDev_scan (f : Dev → Dev) : (c.modDev f).scan = c.scan := rfl
@[simp] theorem Chip.modDev_traceQueue (f : Dev → Dev) : (c.modDev f).traceQueue = c.traceQueue := rfl
@[simp] theorem Chip.modDev_captures (f : Dev → Dev) : (c.modDev f).captures = c.captures := rfl
@[simp] theorem Chip.modDev_blocks (f : Dev → Dev) : (c.modDev f).blocks = c.blocks := rfl
@[simp] theorem Chip.modDev_sine (f : Dev → Dev) : (c.modDev f).sine = c.sine := rfl
@[simp] theorem Chip.modDev_sineNext (f : Dev → Dev) : (c.modDev f).sineNext = c.sineNext := rfl
@[simp] theorem Chip.modDev_journal (f : Dev → Dev) : (c.modDev f).journal = c.journal := rfl
@[simp] theorem Chip.modDev_free (f : Dev → Dev) : (c.modDev f).free = c.free := rfl
@[simp] theorem Chip.modDev_nextCredit (f : Dev → Dev) : (c.modDev f).nextCredit = c.nextCredit := rfl
@[simp] theorem Chip.modDev_stage (f : Dev → Dev) : (c.modDev f).stage = c.stage := rfl
@[simp] theorem Chip.modDev_flaws (f : Dev → Dev) : (c.modDev f).flaws = c.flaws := rfl
@[simp] theorem Chip.modDev_inputs (f : Dev → Dev) : (c.modDev f).inputs = c.inputs := rfl
@[simp] theorem Chip.modDev_ramLog (f : Dev → Dev) : (c.modDev f).ramLog = c.ramLog := rfl
@[simp] theorem Chip.modDev_turn (f : Dev → Dev) : (c.modDev f).turn = c.turn := rfl
@[simp] theorem Chip.modLnk_lnk (f : Lnk → Lnk) : (c.modLnk f).lnk = f c.lnk := rfl
@[simp] theorem Chip.modLnk_dev (f : Lnk → Lnk) : (c.modLnk f).dev = c.dev := rfl
@[simp] theorem Chip.modLnk_pwr (f : Lnk → Lnk) : (c.modLnk f).pwr = c.pwr := rfl
@[simp] theorem Chip.modLnk_sec (f : Lnk → Lnk) : (c.modLnk f).sec = c.sec := rfl
@[simp] theorem Chip.modLnk_sps (f : Lnk → Lnk) : (c.modLnk f).sps = c.sps := rfl
@[simp] theorem Chip.modLnk_threads (f : Lnk → Lnk) : (c.modLnk f).threads = c.threads := rfl
@[simp] theorem Chip.modLnk_cars (f : Lnk → Lnk) : (c.modLnk f).cars = c.cars := rfl
@[simp] theorem Chip.modLnk_doors (f : Lnk → Lnk) : (c.modLnk f).doors = c.doors := rfl
@[simp] theorem Chip.modLnk_taps (f : Lnk → Lnk) : (c.modLnk f).taps = c.taps := rfl
@[simp] theorem Chip.modLnk_axes (f : Lnk → Lnk) : (c.modLnk f).axes = c.axes := rfl
@[simp] theorem Chip.modLnk_fbks (f : Lnk → Lnk) : (c.modLnk f).fbks = c.fbks := rfl
@[simp] theorem Chip.modLnk_loops (f : Lnk → Lnk) : (c.modLnk f).loops = c.loops := rfl
@[simp] theorem Chip.modLnk_fes (f : Lnk → Lnk) : (c.modLnk f).fes = c.fes := rfl
@[simp] theorem Chip.modLnk_cals (f : Lnk → Lnk) : (c.modLnk f).cals = c.cals := rfl
@[simp] theorem Chip.modLnk_scan (f : Lnk → Lnk) : (c.modLnk f).scan = c.scan := rfl
@[simp] theorem Chip.modLnk_traceQueue (f : Lnk → Lnk) : (c.modLnk f).traceQueue = c.traceQueue := rfl
@[simp] theorem Chip.modLnk_captures (f : Lnk → Lnk) : (c.modLnk f).captures = c.captures := rfl
@[simp] theorem Chip.modLnk_blocks (f : Lnk → Lnk) : (c.modLnk f).blocks = c.blocks := rfl
@[simp] theorem Chip.modLnk_sine (f : Lnk → Lnk) : (c.modLnk f).sine = c.sine := rfl
@[simp] theorem Chip.modLnk_sineNext (f : Lnk → Lnk) : (c.modLnk f).sineNext = c.sineNext := rfl
@[simp] theorem Chip.modLnk_journal (f : Lnk → Lnk) : (c.modLnk f).journal = c.journal := rfl
@[simp] theorem Chip.modLnk_free (f : Lnk → Lnk) : (c.modLnk f).free = c.free := rfl
@[simp] theorem Chip.modLnk_nextCredit (f : Lnk → Lnk) : (c.modLnk f).nextCredit = c.nextCredit := rfl
@[simp] theorem Chip.modLnk_stage (f : Lnk → Lnk) : (c.modLnk f).stage = c.stage := rfl
@[simp] theorem Chip.modLnk_flaws (f : Lnk → Lnk) : (c.modLnk f).flaws = c.flaws := rfl
@[simp] theorem Chip.modLnk_inputs (f : Lnk → Lnk) : (c.modLnk f).inputs = c.inputs := rfl
@[simp] theorem Chip.modLnk_ramLog (f : Lnk → Lnk) : (c.modLnk f).ramLog = c.ramLog := rfl
@[simp] theorem Chip.modLnk_turn (f : Lnk → Lnk) : (c.modLnk f).turn = c.turn := rfl
@[simp] theorem Chip.modSec_sec (f : Sec → Sec) : (c.modSec f).sec = f c.sec := rfl
@[simp] theorem Chip.modSec_dev (f : Sec → Sec) : (c.modSec f).dev = c.dev := rfl
@[simp] theorem Chip.modSec_pwr (f : Sec → Sec) : (c.modSec f).pwr = c.pwr := rfl
@[simp] theorem Chip.modSec_lnk (f : Sec → Sec) : (c.modSec f).lnk = c.lnk := rfl
@[simp] theorem Chip.modSec_sps (f : Sec → Sec) : (c.modSec f).sps = c.sps := rfl
@[simp] theorem Chip.modSec_threads (f : Sec → Sec) : (c.modSec f).threads = c.threads := rfl
@[simp] theorem Chip.modSec_cars (f : Sec → Sec) : (c.modSec f).cars = c.cars := rfl
@[simp] theorem Chip.modSec_doors (f : Sec → Sec) : (c.modSec f).doors = c.doors := rfl
@[simp] theorem Chip.modSec_taps (f : Sec → Sec) : (c.modSec f).taps = c.taps := rfl
@[simp] theorem Chip.modSec_axes (f : Sec → Sec) : (c.modSec f).axes = c.axes := rfl
@[simp] theorem Chip.modSec_fbks (f : Sec → Sec) : (c.modSec f).fbks = c.fbks := rfl
@[simp] theorem Chip.modSec_loops (f : Sec → Sec) : (c.modSec f).loops = c.loops := rfl
@[simp] theorem Chip.modSec_fes (f : Sec → Sec) : (c.modSec f).fes = c.fes := rfl
@[simp] theorem Chip.modSec_cals (f : Sec → Sec) : (c.modSec f).cals = c.cals := rfl
@[simp] theorem Chip.modSec_scan (f : Sec → Sec) : (c.modSec f).scan = c.scan := rfl
@[simp] theorem Chip.modSec_traceQueue (f : Sec → Sec) : (c.modSec f).traceQueue = c.traceQueue := rfl
@[simp] theorem Chip.modSec_captures (f : Sec → Sec) : (c.modSec f).captures = c.captures := rfl
@[simp] theorem Chip.modSec_blocks (f : Sec → Sec) : (c.modSec f).blocks = c.blocks := rfl
@[simp] theorem Chip.modSec_sine (f : Sec → Sec) : (c.modSec f).sine = c.sine := rfl
@[simp] theorem Chip.modSec_sineNext (f : Sec → Sec) : (c.modSec f).sineNext = c.sineNext := rfl
@[simp] theorem Chip.modSec_journal (f : Sec → Sec) : (c.modSec f).journal = c.journal := rfl
@[simp] theorem Chip.modSec_free (f : Sec → Sec) : (c.modSec f).free = c.free := rfl
@[simp] theorem Chip.modSec_nextCredit (f : Sec → Sec) : (c.modSec f).nextCredit = c.nextCredit := rfl
@[simp] theorem Chip.modSec_stage (f : Sec → Sec) : (c.modSec f).stage = c.stage := rfl
@[simp] theorem Chip.modSec_flaws (f : Sec → Sec) : (c.modSec f).flaws = c.flaws := rfl
@[simp] theorem Chip.modSec_inputs (f : Sec → Sec) : (c.modSec f).inputs = c.inputs := rfl
@[simp] theorem Chip.modSec_ramLog (f : Sec → Sec) : (c.modSec f).ramLog = c.ramLog := rfl
@[simp] theorem Chip.modSec_turn (f : Sec → Sec) : (c.modSec f).turn = c.turn := rfl
@[simp] theorem Chip.modPwr_pwr (f : Pwr → Pwr) : (c.modPwr f).pwr = f c.pwr := rfl
@[simp] theorem Chip.modPwr_dev (f : Pwr → Pwr) : (c.modPwr f).dev = c.dev := rfl
@[simp] theorem Chip.modPwr_lnk (f : Pwr → Pwr) : (c.modPwr f).lnk = c.lnk := rfl
@[simp] theorem Chip.modPwr_sec (f : Pwr → Pwr) : (c.modPwr f).sec = c.sec := rfl
@[simp] theorem Chip.modPwr_sps (f : Pwr → Pwr) : (c.modPwr f).sps = c.sps := rfl
@[simp] theorem Chip.modPwr_threads (f : Pwr → Pwr) : (c.modPwr f).threads = c.threads := rfl
@[simp] theorem Chip.modPwr_cars (f : Pwr → Pwr) : (c.modPwr f).cars = c.cars := rfl
@[simp] theorem Chip.modPwr_doors (f : Pwr → Pwr) : (c.modPwr f).doors = c.doors := rfl
@[simp] theorem Chip.modPwr_taps (f : Pwr → Pwr) : (c.modPwr f).taps = c.taps := rfl
@[simp] theorem Chip.modPwr_axes (f : Pwr → Pwr) : (c.modPwr f).axes = c.axes := rfl
@[simp] theorem Chip.modPwr_fbks (f : Pwr → Pwr) : (c.modPwr f).fbks = c.fbks := rfl
@[simp] theorem Chip.modPwr_loops (f : Pwr → Pwr) : (c.modPwr f).loops = c.loops := rfl
@[simp] theorem Chip.modPwr_fes (f : Pwr → Pwr) : (c.modPwr f).fes = c.fes := rfl
@[simp] theorem Chip.modPwr_cals (f : Pwr → Pwr) : (c.modPwr f).cals = c.cals := rfl
@[simp] theorem Chip.modPwr_scan (f : Pwr → Pwr) : (c.modPwr f).scan = c.scan := rfl
@[simp] theorem Chip.modPwr_traceQueue (f : Pwr → Pwr) : (c.modPwr f).traceQueue = c.traceQueue := rfl
@[simp] theorem Chip.modPwr_captures (f : Pwr → Pwr) : (c.modPwr f).captures = c.captures := rfl
@[simp] theorem Chip.modPwr_blocks (f : Pwr → Pwr) : (c.modPwr f).blocks = c.blocks := rfl
@[simp] theorem Chip.modPwr_sine (f : Pwr → Pwr) : (c.modPwr f).sine = c.sine := rfl
@[simp] theorem Chip.modPwr_sineNext (f : Pwr → Pwr) : (c.modPwr f).sineNext = c.sineNext := rfl
@[simp] theorem Chip.modPwr_journal (f : Pwr → Pwr) : (c.modPwr f).journal = c.journal := rfl
@[simp] theorem Chip.modPwr_free (f : Pwr → Pwr) : (c.modPwr f).free = c.free := rfl
@[simp] theorem Chip.modPwr_nextCredit (f : Pwr → Pwr) : (c.modPwr f).nextCredit = c.nextCredit := rfl
@[simp] theorem Chip.modPwr_stage (f : Pwr → Pwr) : (c.modPwr f).stage = c.stage := rfl
@[simp] theorem Chip.modPwr_flaws (f : Pwr → Pwr) : (c.modPwr f).flaws = c.flaws := rfl
@[simp] theorem Chip.modPwr_inputs (f : Pwr → Pwr) : (c.modPwr f).inputs = c.inputs := rfl
@[simp] theorem Chip.modPwr_ramLog (f : Pwr → Pwr) : (c.modPwr f).ramLog = c.ramLog := rfl
@[simp] theorem Chip.modPwr_turn (f : Pwr → Pwr) : (c.modPwr f).turn = c.turn := rfl
@[simp] theorem Chip.modSession_sec (n : SessionId) (f : Session → Session) : (c.modSession n f).sec = { c.sec with sessions := upd c.sec.sessions n f } := rfl
@[simp] theorem Chip.modSession_dev (n : SessionId) (f : Session → Session) : (c.modSession n f).dev = c.dev := rfl
@[simp] theorem Chip.modSession_pwr (n : SessionId) (f : Session → Session) : (c.modSession n f).pwr = c.pwr := rfl
@[simp] theorem Chip.modSession_lnk (n : SessionId) (f : Session → Session) : (c.modSession n f).lnk = c.lnk := rfl
@[simp] theorem Chip.modSession_sps (n : SessionId) (f : Session → Session) : (c.modSession n f).sps = c.sps := rfl
@[simp] theorem Chip.modSession_threads (n : SessionId) (f : Session → Session) : (c.modSession n f).threads = c.threads := rfl
@[simp] theorem Chip.modSession_cars (n : SessionId) (f : Session → Session) : (c.modSession n f).cars = c.cars := rfl
@[simp] theorem Chip.modSession_doors (n : SessionId) (f : Session → Session) : (c.modSession n f).doors = c.doors := rfl
@[simp] theorem Chip.modSession_taps (n : SessionId) (f : Session → Session) : (c.modSession n f).taps = c.taps := rfl
@[simp] theorem Chip.modSession_axes (n : SessionId) (f : Session → Session) : (c.modSession n f).axes = c.axes := rfl
@[simp] theorem Chip.modSession_fbks (n : SessionId) (f : Session → Session) : (c.modSession n f).fbks = c.fbks := rfl
@[simp] theorem Chip.modSession_loops (n : SessionId) (f : Session → Session) : (c.modSession n f).loops = c.loops := rfl
@[simp] theorem Chip.modSession_fes (n : SessionId) (f : Session → Session) : (c.modSession n f).fes = c.fes := rfl
@[simp] theorem Chip.modSession_cals (n : SessionId) (f : Session → Session) : (c.modSession n f).cals = c.cals := rfl
@[simp] theorem Chip.modSession_scan (n : SessionId) (f : Session → Session) : (c.modSession n f).scan = c.scan := rfl
@[simp] theorem Chip.modSession_traceQueue (n : SessionId) (f : Session → Session) : (c.modSession n f).traceQueue = c.traceQueue := rfl
@[simp] theorem Chip.modSession_captures (n : SessionId) (f : Session → Session) : (c.modSession n f).captures = c.captures := rfl
@[simp] theorem Chip.modSession_blocks (n : SessionId) (f : Session → Session) : (c.modSession n f).blocks = c.blocks := rfl
@[simp] theorem Chip.modSession_sine (n : SessionId) (f : Session → Session) : (c.modSession n f).sine = c.sine := rfl
@[simp] theorem Chip.modSession_sineNext (n : SessionId) (f : Session → Session) : (c.modSession n f).sineNext = c.sineNext := rfl
@[simp] theorem Chip.modSession_journal (n : SessionId) (f : Session → Session) : (c.modSession n f).journal = c.journal := rfl
@[simp] theorem Chip.modSession_free (n : SessionId) (f : Session → Session) : (c.modSession n f).free = c.free := rfl
@[simp] theorem Chip.modSession_nextCredit (n : SessionId) (f : Session → Session) : (c.modSession n f).nextCredit = c.nextCredit := rfl
@[simp] theorem Chip.modSession_stage (n : SessionId) (f : Session → Session) : (c.modSession n f).stage = c.stage := rfl
@[simp] theorem Chip.modSession_flaws (n : SessionId) (f : Session → Session) : (c.modSession n f).flaws = c.flaws := rfl
@[simp] theorem Chip.modSession_inputs (n : SessionId) (f : Session → Session) : (c.modSession n f).inputs = c.inputs := rfl
@[simp] theorem Chip.modSession_ramLog (n : SessionId) (f : Session → Session) : (c.modSession n f).ramLog = c.ramLog := rfl
@[simp] theorem Chip.modSession_turn (n : SessionId) (f : Session → Session) : (c.modSession n f).turn = c.turn := rfl
@[simp] theorem Chip.modJournal_journal (f : Journal → Journal) : (c.modJournal f).journal = f c.journal := rfl
@[simp] theorem Chip.modJournal_dev (f : Journal → Journal) : (c.modJournal f).dev = c.dev := rfl
@[simp] theorem Chip.modJournal_pwr (f : Journal → Journal) : (c.modJournal f).pwr = c.pwr := rfl
@[simp] theorem Chip.modJournal_lnk (f : Journal → Journal) : (c.modJournal f).lnk = c.lnk := rfl
@[simp] theorem Chip.modJournal_sec (f : Journal → Journal) : (c.modJournal f).sec = c.sec := rfl
@[simp] theorem Chip.modJournal_sps (f : Journal → Journal) : (c.modJournal f).sps = c.sps := rfl
@[simp] theorem Chip.modJournal_threads (f : Journal → Journal) : (c.modJournal f).threads = c.threads := rfl
@[simp] theorem Chip.modJournal_cars (f : Journal → Journal) : (c.modJournal f).cars = c.cars := rfl
@[simp] theorem Chip.modJournal_doors (f : Journal → Journal) : (c.modJournal f).doors = c.doors := rfl
@[simp] theorem Chip.modJournal_taps (f : Journal → Journal) : (c.modJournal f).taps = c.taps := rfl
@[simp] theorem Chip.modJournal_axes (f : Journal → Journal) : (c.modJournal f).axes = c.axes := rfl
@[simp] theorem Chip.modJournal_fbks (f : Journal → Journal) : (c.modJournal f).fbks = c.fbks := rfl
@[simp] theorem Chip.modJournal_loops (f : Journal → Journal) : (c.modJournal f).loops = c.loops := rfl
@[simp] theorem Chip.modJournal_fes (f : Journal → Journal) : (c.modJournal f).fes = c.fes := rfl
@[simp] theorem Chip.modJournal_cals (f : Journal → Journal) : (c.modJournal f).cals = c.cals := rfl
@[simp] theorem Chip.modJournal_scan (f : Journal → Journal) : (c.modJournal f).scan = c.scan := rfl
@[simp] theorem Chip.modJournal_traceQueue (f : Journal → Journal) : (c.modJournal f).traceQueue = c.traceQueue := rfl
@[simp] theorem Chip.modJournal_captures (f : Journal → Journal) : (c.modJournal f).captures = c.captures := rfl
@[simp] theorem Chip.modJournal_blocks (f : Journal → Journal) : (c.modJournal f).blocks = c.blocks := rfl
@[simp] theorem Chip.modJournal_sine (f : Journal → Journal) : (c.modJournal f).sine = c.sine := rfl
@[simp] theorem Chip.modJournal_sineNext (f : Journal → Journal) : (c.modJournal f).sineNext = c.sineNext := rfl
@[simp] theorem Chip.modJournal_free (f : Journal → Journal) : (c.modJournal f).free = c.free := rfl
@[simp] theorem Chip.modJournal_nextCredit (f : Journal → Journal) : (c.modJournal f).nextCredit = c.nextCredit := rfl
@[simp] theorem Chip.modJournal_stage (f : Journal → Journal) : (c.modJournal f).stage = c.stage := rfl
@[simp] theorem Chip.modJournal_flaws (f : Journal → Journal) : (c.modJournal f).flaws = c.flaws := rfl
@[simp] theorem Chip.modJournal_inputs (f : Journal → Journal) : (c.modJournal f).inputs = c.inputs := rfl
@[simp] theorem Chip.modJournal_ramLog (f : Journal → Journal) : (c.modJournal f).ramLog = c.ramLog := rfl
@[simp] theorem Chip.modJournal_turn (f : Journal → Journal) : (c.modJournal f).turn = c.turn := rfl
@[simp] theorem Chip.draw_free : (c.draw).free = c.free + 1 := rfl
@[simp] theorem Chip.draw_dev : (c.draw).dev = c.dev := rfl
@[simp] theorem Chip.draw_pwr : (c.draw).pwr = c.pwr := rfl
@[simp] theorem Chip.draw_lnk : (c.draw).lnk = c.lnk := rfl
@[simp] theorem Chip.draw_sec : (c.draw).sec = c.sec := rfl
@[simp] theorem Chip.draw_sps : (c.draw).sps = c.sps := rfl
@[simp] theorem Chip.draw_threads : (c.draw).threads = c.threads := rfl
@[simp] theorem Chip.draw_cars : (c.draw).cars = c.cars := rfl
@[simp] theorem Chip.draw_doors : (c.draw).doors = c.doors := rfl
@[simp] theorem Chip.draw_taps : (c.draw).taps = c.taps := rfl
@[simp] theorem Chip.draw_axes : (c.draw).axes = c.axes := rfl
@[simp] theorem Chip.draw_fbks : (c.draw).fbks = c.fbks := rfl
@[simp] theorem Chip.draw_loops : (c.draw).loops = c.loops := rfl
@[simp] theorem Chip.draw_fes : (c.draw).fes = c.fes := rfl
@[simp] theorem Chip.draw_cals : (c.draw).cals = c.cals := rfl
@[simp] theorem Chip.draw_scan : (c.draw).scan = c.scan := rfl
@[simp] theorem Chip.draw_traceQueue : (c.draw).traceQueue = c.traceQueue := rfl
@[simp] theorem Chip.draw_captures : (c.draw).captures = c.captures := rfl
@[simp] theorem Chip.draw_blocks : (c.draw).blocks = c.blocks := rfl
@[simp] theorem Chip.draw_sine : (c.draw).sine = c.sine := rfl
@[simp] theorem Chip.draw_sineNext : (c.draw).sineNext = c.sineNext := rfl
@[simp] theorem Chip.draw_journal : (c.draw).journal = c.journal := rfl
@[simp] theorem Chip.draw_nextCredit : (c.draw).nextCredit = c.nextCredit := rfl
@[simp] theorem Chip.draw_stage : (c.draw).stage = c.stage := rfl
@[simp] theorem Chip.draw_flaws : (c.draw).flaws = c.flaws := rfl
@[simp] theorem Chip.draw_inputs : (c.draw).inputs = c.inputs := rfl
@[simp] theorem Chip.draw_ramLog : (c.draw).ramLog = c.ramLog := rfl
@[simp] theorem Chip.draw_turn : (c.draw).turn = c.turn := rfl

/-! ### Phases, the input record, bit errors and the window's writes -/

@[simp] theorem Chip.enter_stage (p : Stage) : (c.enter p).stage = p := rfl
@[simp] theorem Chip.enter_dev (p : Stage) : (c.enter p).dev = c.dev := rfl
@[simp] theorem Chip.enter_pwr (p : Stage) : (c.enter p).pwr = c.pwr := rfl
@[simp] theorem Chip.enter_lnk (p : Stage) : (c.enter p).lnk = c.lnk := rfl
@[simp] theorem Chip.enter_sec (p : Stage) : (c.enter p).sec = c.sec := rfl
@[simp] theorem Chip.enter_sps (p : Stage) : (c.enter p).sps = c.sps := rfl
@[simp] theorem Chip.enter_threads (p : Stage) : (c.enter p).threads = c.threads := rfl
@[simp] theorem Chip.enter_cars (p : Stage) : (c.enter p).cars = c.cars := rfl
@[simp] theorem Chip.enter_doors (p : Stage) : (c.enter p).doors = c.doors := rfl
@[simp] theorem Chip.enter_taps (p : Stage) : (c.enter p).taps = c.taps := rfl
@[simp] theorem Chip.enter_axes (p : Stage) : (c.enter p).axes = c.axes := rfl
@[simp] theorem Chip.enter_fbks (p : Stage) : (c.enter p).fbks = c.fbks := rfl
@[simp] theorem Chip.enter_loops (p : Stage) : (c.enter p).loops = c.loops := rfl
@[simp] theorem Chip.enter_fes (p : Stage) : (c.enter p).fes = c.fes := rfl
@[simp] theorem Chip.enter_cals (p : Stage) : (c.enter p).cals = c.cals := rfl
@[simp] theorem Chip.enter_scan (p : Stage) : (c.enter p).scan = c.scan := rfl
@[simp] theorem Chip.enter_traceQueue (p : Stage) : (c.enter p).traceQueue = c.traceQueue := rfl
@[simp] theorem Chip.enter_captures (p : Stage) : (c.enter p).captures = c.captures := rfl
@[simp] theorem Chip.enter_blocks (p : Stage) : (c.enter p).blocks = c.blocks := rfl
@[simp] theorem Chip.enter_sine (p : Stage) : (c.enter p).sine = c.sine := rfl
@[simp] theorem Chip.enter_sineNext (p : Stage) : (c.enter p).sineNext = c.sineNext := rfl
@[simp] theorem Chip.enter_journal (p : Stage) : (c.enter p).journal = c.journal := rfl
@[simp] theorem Chip.enter_flaws (p : Stage) : (c.enter p).flaws = c.flaws := rfl
@[simp] theorem Chip.enter_inputs (p : Stage) : (c.enter p).inputs = c.inputs := rfl
@[simp] theorem Chip.enter_ramLog (p : Stage) : (c.enter p).ramLog = c.ramLog := rfl
@[simp] theorem Chip.enter_turn (p : Stage) : (c.enter p).turn = c.turn := rfl
@[simp] theorem Chip.enter_free (p : Stage) : (c.enter p).free = c.free := rfl
@[simp] theorem Chip.enter_nextCredit (p : Stage) : (c.enter p).nextCredit = c.nextCredit := rfl

@[simp] theorem Chip.note_items (e : InputItem) : (c.note e).inputs.items = c.inputs.items ++ [e] := rfl
@[simp] theorem Chip.note_dev (e : InputItem) : (c.note e).dev = c.dev := rfl
@[simp] theorem Chip.note_pwr (e : InputItem) : (c.note e).pwr = c.pwr := rfl
@[simp] theorem Chip.note_lnk (e : InputItem) : (c.note e).lnk = c.lnk := rfl
@[simp] theorem Chip.note_sec (e : InputItem) : (c.note e).sec = c.sec := rfl
@[simp] theorem Chip.note_sps (e : InputItem) : (c.note e).sps = c.sps := rfl
@[simp] theorem Chip.note_threads (e : InputItem) : (c.note e).threads = c.threads := rfl
@[simp] theorem Chip.note_cars (e : InputItem) : (c.note e).cars = c.cars := rfl
@[simp] theorem Chip.note_doors (e : InputItem) : (c.note e).doors = c.doors := rfl
@[simp] theorem Chip.note_taps (e : InputItem) : (c.note e).taps = c.taps := rfl
@[simp] theorem Chip.note_axes (e : InputItem) : (c.note e).axes = c.axes := rfl
@[simp] theorem Chip.note_fbks (e : InputItem) : (c.note e).fbks = c.fbks := rfl
@[simp] theorem Chip.note_loops (e : InputItem) : (c.note e).loops = c.loops := rfl
@[simp] theorem Chip.note_fes (e : InputItem) : (c.note e).fes = c.fes := rfl
@[simp] theorem Chip.note_cals (e : InputItem) : (c.note e).cals = c.cals := rfl
@[simp] theorem Chip.note_scan (e : InputItem) : (c.note e).scan = c.scan := rfl
@[simp] theorem Chip.note_traceQueue (e : InputItem) : (c.note e).traceQueue = c.traceQueue := rfl
@[simp] theorem Chip.note_captures (e : InputItem) : (c.note e).captures = c.captures := rfl
@[simp] theorem Chip.note_blocks (e : InputItem) : (c.note e).blocks = c.blocks := rfl
@[simp] theorem Chip.note_sine (e : InputItem) : (c.note e).sine = c.sine := rfl
@[simp] theorem Chip.note_sineNext (e : InputItem) : (c.note e).sineNext = c.sineNext := rfl
@[simp] theorem Chip.note_journal (e : InputItem) : (c.note e).journal = c.journal := rfl
@[simp] theorem Chip.note_stage (e : InputItem) : (c.note e).stage = c.stage := rfl
@[simp] theorem Chip.note_flaws (e : InputItem) : (c.note e).flaws = c.flaws := rfl
@[simp] theorem Chip.note_ramLog (e : InputItem) : (c.note e).ramLog = c.ramLog := rfl
@[simp] theorem Chip.note_turn (e : InputItem) : (c.note e).turn = c.turn := rfl
@[simp] theorem Chip.note_free (e : InputItem) : (c.note e).free = c.free := rfl
@[simp] theorem Chip.note_nextCredit (e : InputItem) : (c.note e).nextCredit = c.nextCredit := rfl

@[simp] theorem Chip.written_dev (ws : List MemWrite) : (c.written ws).dev = c.dev := rfl
@[simp] theorem Chip.written_pwr (ws : List MemWrite) : (c.written ws).pwr = c.pwr := rfl
@[simp] theorem Chip.written_lnk (ws : List MemWrite) : (c.written ws).lnk = c.lnk := rfl
@[simp] theorem Chip.written_sec (ws : List MemWrite) : (c.written ws).sec = c.sec := rfl
@[simp] theorem Chip.written_sps (ws : List MemWrite) : (c.written ws).sps = c.sps := rfl
@[simp] theorem Chip.written_threads (ws : List MemWrite) : (c.written ws).threads = c.threads := rfl
@[simp] theorem Chip.written_cars (ws : List MemWrite) : (c.written ws).cars = c.cars := rfl
@[simp] theorem Chip.written_doors (ws : List MemWrite) : (c.written ws).doors = c.doors := rfl
@[simp] theorem Chip.written_taps (ws : List MemWrite) : (c.written ws).taps = c.taps := rfl
@[simp] theorem Chip.written_axes (ws : List MemWrite) : (c.written ws).axes = c.axes := rfl
@[simp] theorem Chip.written_fbks (ws : List MemWrite) : (c.written ws).fbks = c.fbks := rfl
@[simp] theorem Chip.written_loops (ws : List MemWrite) : (c.written ws).loops = c.loops := rfl
@[simp] theorem Chip.written_fes (ws : List MemWrite) : (c.written ws).fes = c.fes := rfl
@[simp] theorem Chip.written_cals (ws : List MemWrite) : (c.written ws).cals = c.cals := rfl
@[simp] theorem Chip.written_scan (ws : List MemWrite) : (c.written ws).scan = c.scan := rfl
@[simp] theorem Chip.written_traceQueue (ws : List MemWrite) : (c.written ws).traceQueue = c.traceQueue := rfl
@[simp] theorem Chip.written_captures (ws : List MemWrite) : (c.written ws).captures = c.captures := rfl
@[simp] theorem Chip.written_blocks (ws : List MemWrite) : (c.written ws).blocks = c.blocks := rfl
@[simp] theorem Chip.written_sine (ws : List MemWrite) : (c.written ws).sine = c.sine := rfl
@[simp] theorem Chip.written_sineNext (ws : List MemWrite) : (c.written ws).sineNext = c.sineNext := rfl
@[simp] theorem Chip.written_journal (ws : List MemWrite) : (c.written ws).journal = c.journal := rfl
@[simp] theorem Chip.written_stage (ws : List MemWrite) : (c.written ws).stage = c.stage := rfl
@[simp] theorem Chip.written_inputs (ws : List MemWrite) : (c.written ws).inputs = c.inputs := rfl
@[simp] theorem Chip.written_ramLog (ws : List MemWrite) : (c.written ws).ramLog = c.ramLog := rfl
@[simp] theorem Chip.written_turn (ws : List MemWrite) : (c.written ws).turn = c.turn := rfl
@[simp] theorem Chip.written_free (ws : List MemWrite) : (c.written ws).free = c.free := rfl
@[simp] theorem Chip.written_nextCredit (ws : List MemWrite) : (c.written ws).nextCredit = c.nextCredit := rfl

@[simp] theorem Chip.logRam_dev (m : Mems) (w : RamWrite) : (c.logRam m w).dev = c.dev := rfl
@[simp] theorem Chip.logRam_pwr (m : Mems) (w : RamWrite) : (c.logRam m w).pwr = c.pwr := rfl
@[simp] theorem Chip.logRam_lnk (m : Mems) (w : RamWrite) : (c.logRam m w).lnk = c.lnk := rfl
@[simp] theorem Chip.logRam_sec (m : Mems) (w : RamWrite) : (c.logRam m w).sec = c.sec := rfl
@[simp] theorem Chip.logRam_sps (m : Mems) (w : RamWrite) : (c.logRam m w).sps = c.sps := rfl
@[simp] theorem Chip.logRam_threads (m : Mems) (w : RamWrite) : (c.logRam m w).threads = c.threads := rfl
@[simp] theorem Chip.logRam_cars (m : Mems) (w : RamWrite) : (c.logRam m w).cars = c.cars := rfl
@[simp] theorem Chip.logRam_doors (m : Mems) (w : RamWrite) : (c.logRam m w).doors = c.doors := rfl
@[simp] theorem Chip.logRam_taps (m : Mems) (w : RamWrite) : (c.logRam m w).taps = c.taps := rfl
@[simp] theorem Chip.logRam_axes (m : Mems) (w : RamWrite) : (c.logRam m w).axes = c.axes := rfl
@[simp] theorem Chip.logRam_fbks (m : Mems) (w : RamWrite) : (c.logRam m w).fbks = c.fbks := rfl
@[simp] theorem Chip.logRam_loops (m : Mems) (w : RamWrite) : (c.logRam m w).loops = c.loops := rfl
@[simp] theorem Chip.logRam_fes (m : Mems) (w : RamWrite) : (c.logRam m w).fes = c.fes := rfl
@[simp] theorem Chip.logRam_cals (m : Mems) (w : RamWrite) : (c.logRam m w).cals = c.cals := rfl
@[simp] theorem Chip.logRam_scan (m : Mems) (w : RamWrite) : (c.logRam m w).scan = c.scan := rfl
@[simp] theorem Chip.logRam_traceQueue (m : Mems) (w : RamWrite) : (c.logRam m w).traceQueue = c.traceQueue := rfl
@[simp] theorem Chip.logRam_captures (m : Mems) (w : RamWrite) : (c.logRam m w).captures = c.captures := rfl
@[simp] theorem Chip.logRam_blocks (m : Mems) (w : RamWrite) : (c.logRam m w).blocks = c.blocks := rfl
@[simp] theorem Chip.logRam_sine (m : Mems) (w : RamWrite) : (c.logRam m w).sine = c.sine := rfl
@[simp] theorem Chip.logRam_sineNext (m : Mems) (w : RamWrite) : (c.logRam m w).sineNext = c.sineNext := rfl
@[simp] theorem Chip.logRam_journal (m : Mems) (w : RamWrite) : (c.logRam m w).journal = c.journal := rfl
@[simp] theorem Chip.logRam_stage (m : Mems) (w : RamWrite) : (c.logRam m w).stage = c.stage := rfl
@[simp] theorem Chip.logRam_flaws (m : Mems) (w : RamWrite) : (c.logRam m w).flaws = c.flaws := rfl
@[simp] theorem Chip.logRam_inputs (m : Mems) (w : RamWrite) : (c.logRam m w).inputs = c.inputs := rfl
@[simp] theorem Chip.logRam_turn (m : Mems) (w : RamWrite) : (c.logRam m w).turn = c.turn := rfl
@[simp] theorem Chip.logRam_free (m : Mems) (w : RamWrite) : (c.logRam m w).free = c.free := rfl
@[simp] theorem Chip.logRam_nextCredit (m : Mems) (w : RamWrite) : (c.logRam m w).nextCredit = c.nextCredit := rfl

@[simp] theorem Chip.leaveHost_dev : (c.leaveHost).dev = c.dev := by unfold Chip.leaveHost; split <;> rfl
@[simp] theorem Chip.leaveHost_pwr : (c.leaveHost).pwr = c.pwr := by unfold Chip.leaveHost; split <;> rfl
@[simp] theorem Chip.leaveHost_lnk : (c.leaveHost).lnk = c.lnk := by unfold Chip.leaveHost; split <;> rfl
@[simp] theorem Chip.leaveHost_sec : (c.leaveHost).sec = c.sec := by unfold Chip.leaveHost; split <;> rfl
@[simp] theorem Chip.leaveHost_sps : (c.leaveHost).sps = c.sps := by unfold Chip.leaveHost; split <;> rfl
@[simp] theorem Chip.leaveHost_threads : (c.leaveHost).threads = c.threads := by unfold Chip.leaveHost; split <;> rfl
@[simp] theorem Chip.leaveHost_cars : (c.leaveHost).cars = c.cars := by unfold Chip.leaveHost; split <;> rfl
@[simp] theorem Chip.leaveHost_doors : (c.leaveHost).doors = c.doors := by unfold Chip.leaveHost; split <;> rfl
@[simp] theorem Chip.leaveHost_taps : (c.leaveHost).taps = c.taps := by unfold Chip.leaveHost; split <;> rfl
@[simp] theorem Chip.leaveHost_axes : (c.leaveHost).axes = c.axes := by unfold Chip.leaveHost; split <;> rfl
@[simp] theorem Chip.leaveHost_fbks : (c.leaveHost).fbks = c.fbks := by unfold Chip.leaveHost; split <;> rfl
@[simp] theorem Chip.leaveHost_loops : (c.leaveHost).loops = c.loops := by unfold Chip.leaveHost; split <;> rfl
@[simp] theorem Chip.leaveHost_fes : (c.leaveHost).fes = c.fes := by unfold Chip.leaveHost; split <;> rfl
@[simp] theorem Chip.leaveHost_cals : (c.leaveHost).cals = c.cals := by unfold Chip.leaveHost; split <;> rfl
@[simp] theorem Chip.leaveHost_scan : (c.leaveHost).scan = c.scan := by unfold Chip.leaveHost; split <;> rfl
@[simp] theorem Chip.leaveHost_traceQueue : (c.leaveHost).traceQueue = c.traceQueue := by unfold Chip.leaveHost; split <;> rfl
@[simp] theorem Chip.leaveHost_captures : (c.leaveHost).captures = c.captures := by unfold Chip.leaveHost; split <;> rfl
@[simp] theorem Chip.leaveHost_blocks : (c.leaveHost).blocks = c.blocks := by unfold Chip.leaveHost; split <;> rfl
@[simp] theorem Chip.leaveHost_sine : (c.leaveHost).sine = c.sine := by unfold Chip.leaveHost; split <;> rfl
@[simp] theorem Chip.leaveHost_sineNext : (c.leaveHost).sineNext = c.sineNext := by unfold Chip.leaveHost; split <;> rfl
@[simp] theorem Chip.leaveHost_journal : (c.leaveHost).journal = c.journal := by unfold Chip.leaveHost; split <;> rfl
@[simp] theorem Chip.leaveHost_flaws : (c.leaveHost).flaws = c.flaws := by unfold Chip.leaveHost; split <;> rfl
@[simp] theorem Chip.leaveHost_inputs : (c.leaveHost).inputs = c.inputs := by unfold Chip.leaveHost; split <;> rfl
@[simp] theorem Chip.leaveHost_ramLog : (c.leaveHost).ramLog = c.ramLog := by unfold Chip.leaveHost; split <;> rfl
@[simp] theorem Chip.leaveHost_turn : (c.leaveHost).turn = c.turn := by unfold Chip.leaveHost; split <;> rfl
@[simp] theorem Chip.leaveHost_free : (c.leaveHost).free = c.free := by unfold Chip.leaveHost; split <;> rfl
@[simp] theorem Chip.leaveHost_nextCredit : (c.leaveHost).nextCredit = c.nextCredit := by unfold Chip.leaveHost; split <;> rfl

/-- Reading words changes nothing but the input record. -/
theorem Chip.noteReads_eq (m : Fin 6) (words : Nat → Bool) :
    c.noteReads m words = { c with inputs := (c.noteReads m words).inputs } := by
  unfold Chip.noteReads
  generalize c.flaws.filter _ = l
  induction l generalizing c with
  | nil => rfl
  | cons f l ih => exact (ih (c.note (.corrected m f.word))).trans rfl
@[simp] theorem Chip.noteReads_dev (m : Fin 6) (words : Nat → Bool) : (c.noteReads m words).dev = c.dev := by
  rw [Chip.noteReads_eq]
@[simp] theorem Chip.noteReads_pwr (m : Fin 6) (words : Nat → Bool) : (c.noteReads m words).pwr = c.pwr := by
  rw [Chip.noteReads_eq]
@[simp] theorem Chip.noteReads_lnk (m : Fin 6) (words : Nat → Bool) : (c.noteReads m words).lnk = c.lnk := by
  rw [Chip.noteReads_eq]
@[simp] theorem Chip.noteReads_sec (m : Fin 6) (words : Nat → Bool) : (c.noteReads m words).sec = c.sec := by
  rw [Chip.noteReads_eq]
@[simp] theorem Chip.noteReads_sps (m : Fin 6) (words : Nat → Bool) : (c.noteReads m words).sps = c.sps := by
  rw [Chip.noteReads_eq]
@[simp] theorem Chip.noteReads_threads (m : Fin 6) (words : Nat → Bool) : (c.noteReads m words).threads = c.threads := by
  rw [Chip.noteReads_eq]
@[simp] theorem Chip.noteReads_cars (m : Fin 6) (words : Nat → Bool) : (c.noteReads m words).cars = c.cars := by
  rw [Chip.noteReads_eq]
@[simp] theorem Chip.noteReads_doors (m : Fin 6) (words : Nat → Bool) : (c.noteReads m words).doors = c.doors := by
  rw [Chip.noteReads_eq]
@[simp] theorem Chip.noteReads_taps (m : Fin 6) (words : Nat → Bool) : (c.noteReads m words).taps = c.taps := by
  rw [Chip.noteReads_eq]
@[simp] theorem Chip.noteReads_axes (m : Fin 6) (words : Nat → Bool) : (c.noteReads m words).axes = c.axes := by
  rw [Chip.noteReads_eq]
@[simp] theorem Chip.noteReads_fbks (m : Fin 6) (words : Nat → Bool) : (c.noteReads m words).fbks = c.fbks := by
  rw [Chip.noteReads_eq]
@[simp] theorem Chip.noteReads_loops (m : Fin 6) (words : Nat → Bool) : (c.noteReads m words).loops = c.loops := by
  rw [Chip.noteReads_eq]
@[simp] theorem Chip.noteReads_fes (m : Fin 6) (words : Nat → Bool) : (c.noteReads m words).fes = c.fes := by
  rw [Chip.noteReads_eq]
@[simp] theorem Chip.noteReads_cals (m : Fin 6) (words : Nat → Bool) : (c.noteReads m words).cals = c.cals := by
  rw [Chip.noteReads_eq]
@[simp] theorem Chip.noteReads_scan (m : Fin 6) (words : Nat → Bool) : (c.noteReads m words).scan = c.scan := by
  rw [Chip.noteReads_eq]
@[simp] theorem Chip.noteReads_traceQueue (m : Fin 6) (words : Nat → Bool) : (c.noteReads m words).traceQueue = c.traceQueue := by
  rw [Chip.noteReads_eq]
@[simp] theorem Chip.noteReads_captures (m : Fin 6) (words : Nat → Bool) : (c.noteReads m words).captures = c.captures := by
  rw [Chip.noteReads_eq]
@[simp] theorem Chip.noteReads_blocks (m : Fin 6) (words : Nat → Bool) : (c.noteReads m words).blocks = c.blocks := by
  rw [Chip.noteReads_eq]
@[simp] theorem Chip.noteReads_sine (m : Fin 6) (words : Nat → Bool) : (c.noteReads m words).sine = c.sine := by
  rw [Chip.noteReads_eq]
@[simp] theorem Chip.noteReads_sineNext (m : Fin 6) (words : Nat → Bool) : (c.noteReads m words).sineNext = c.sineNext := by
  rw [Chip.noteReads_eq]
@[simp] theorem Chip.noteReads_journal (m : Fin 6) (words : Nat → Bool) : (c.noteReads m words).journal = c.journal := by
  rw [Chip.noteReads_eq]
@[simp] theorem Chip.noteReads_stage (m : Fin 6) (words : Nat → Bool) : (c.noteReads m words).stage = c.stage := by
  rw [Chip.noteReads_eq]
@[simp] theorem Chip.noteReads_flaws (m : Fin 6) (words : Nat → Bool) : (c.noteReads m words).flaws = c.flaws := by
  rw [Chip.noteReads_eq]
@[simp] theorem Chip.noteReads_ramLog (m : Fin 6) (words : Nat → Bool) : (c.noteReads m words).ramLog = c.ramLog := by
  rw [Chip.noteReads_eq]
@[simp] theorem Chip.noteReads_turn (m : Fin 6) (words : Nat → Bool) : (c.noteReads m words).turn = c.turn := by
  rw [Chip.noteReads_eq]
@[simp] theorem Chip.noteReads_free (m : Fin 6) (words : Nat → Bool) : (c.noteReads m words).free = c.free := by
  rw [Chip.noteReads_eq]
@[simp] theorem Chip.noteReads_nextCredit (m : Fin 6) (words : Nat → Bool) : (c.noteReads m words).nextCredit = c.nextCredit := by
  rw [Chip.noteReads_eq]

end Sys2Proof.Machine
end

