-- ==== Sys2Proof/Laws/Gate.lean ====
section
/-! SUPPORT. How an instruction is issued: what a plain thread instruction does, and the state that an accepted status instruction
of either issuer leaves. -/

namespace Sys2Proof.Machine

/-- The earlier refusal of R11 is there once one was. -/
theorem refusal_some (l : List (Bool × Status)) (a : Status) :
    (l.foldl (fun a x => if x.1 then Status.first a x.2 else a) (some a)).isSome = true := by
  induction l generalizing a with
  | nil => rfl
  | cons x r ih =>
    simp only [List.foldl_cons]
    split
    · simp only [Status.first]; split <;> exact ih _
    · exact ih _

/-- Nothing is refused exactly where no condition holds (R11). -/
theorem refusal_none (l : List (Bool × Status)) : refusal l = none ↔ Clear l := by
  unfold refusal Clear
  induction l with
  | nil => simp
  | cons x r ih =>
    simp only [List.foldl_cons, List.mem_cons, forall_eq_or_imp]
    cases h : x.1
    · simpa using ih
    · have := refusal_some r x.2
      simp only [↓reduceIte, Bool.true_eq_false, false_and, iff_false]
      intro e
      change List.foldl _ (some x.2) r = none at e
      rw [e] at this
      exact absurd this (by simp)

theorem clear_append (a b : List (Bool × Status)) : Clear (a ++ b) ↔ Clear a ∧ Clear b := by
  simp only [Clear, List.mem_append]
  exact ⟨fun h => ⟨fun x hx => h x (.inl hx), fun x hx => h x (.inr hx)⟩, fun h x hx => hx.elim (h.1 x) (h.2 x)⟩

/-- Work of a thread that may execute, with no uncorrectable word met by the scan engine. -/
theorem threadNow_fits {t : ThreadId} {cycles : Nat} {s : State} (go : State → State) (h : SlotFits t cycles s) :
    s.threadNow t go = go s := by
  simp [State.threadNow, State.behindScan, h.1, h.2.1]

/-- An instruction that fits the slot runs on the thread with its cycles counted in its turn. -/
theorem threadRun_fits {t : ThreadId} {cycles : Nat} {s : State} (go : State → State) (h : SlotFits t cycles s) :
    threadRun t cycles s go = go { s with chip := s.chip.starts t cycles } := by
  unfold threadRun
  rw [threadNow_fits _ h, if_neg (by have := h.2.2; omega)]

theorem modThread_modThread (c : Chip) (t : ThreadId) (f g : Thread → Thread) :
    (c.modThread t f).modThread t g = c.modThread t fun x => g (f x) := by
  simp [Chip.modThread, upd]

/-- A well-encoded plain instruction that fits the slot changes its thread alone. -/
theorem threadPlain_fits {t : ThreadId} {cycles : Nat} {s : State} (go : Thread → Thread) (h : SlotFits t cycles s) :
    threadPlain t cycles false go s = ranThread t cycles go s := by
  unfold threadPlain
  rw [threadRun_fits _ h]
  rfl

/-- A packet that fits the rung is begun: its cycles are counted and its sequence enters the window (R110, R173). -/
theorem rung_begun {p : Packet} {cycles : Nat} {s : State} (h : s.chip.dev.hostStopped = false)
    (g : s.chip.dev.hostCycles.toNat + cycles ≤ 256) :
    ((found (.host p) cycles s).rung cycles).countGate p .evaluate = begun (.host p) cycles s := by
  have a : ((found (.host p) cycles s).dev.hostStopped
      || decide (256 < (found (.host p) cycles s).dev.hostCycles.toNat + cycles)) = false := by
    simp only [found, Chip.modLnk_dev, h, Bool.false_or]
    exact decide_eq_false (Nat.not_lt.2 g)
  simp only [begun, Chip.rung, Chip.modDev] at a ⊢
  simp [a]

/-- Beginning a packet changes nothing that Table 4-4 or the rung look at. -/
theorem begun_checks (p : Packet) (cycles : Nat) (s : State) (op : BitVec 6) (f : Enc) :
    (begun (.host p) cycles s).rungChecks ++ (begun (.host p) cycles s).deviceChecks op f
      = s.chip.rungChecks ++ s.chip.deviceChecks op f := by
  simp only [begun, found, Chip.countGate]
  split <;> rfl

/-- An accepted status instruction takes its effect and is answered (R11, R58, R142). -/
theorem issue_answered {i : Issuer} {op : BitVec 6} {f : Enc} {cycles : Nat} {body : Body} {s : State}
    (hr : Ready i op f cycles s) (hi : (body (ctxOf i f s) s.mem (found i cycles s)).illegal = false)
    (hc : Clear (body (ctxOf i f s) s.mem (found i cycles s)).checks)
    (hok : ((body (ctxOf i f s) s.mem (found i cycles s)).act (begun i cycles s)).status.ok = true) :
    issue i op f cycles body s = answered i ((body (ctxOf i f s) s.mem (found i cycles s)).act (begun i cycles s)) s := by
  cases i with
  | thread t =>
    obtain ⟨hf, hd⟩ := hr
    have hw : ((s.chip.starts t cycles).threads[t.val]).w = (s.chip.threads[t.val]).w := by
      simp [Chip.starts, Chip.takeTurn, Thread.charge]
    have hn := (refusal_none _).2 hc
    simp only [ctxOf, whoOf, operandsOf, found, begun] at hi hn hok ⊢
    simp only [issue, threadIssue, threadRun_fits _ hf, hw, hi, Bool.or_false, decide_eq_true_eq, if_neg hd, Plan.answer,
      List.nil_append, hn]
    simp only [answered, State.with, hok, if_true]
    congr 1
    split
    · next h _ => rw [h] at hok; exact absurd hok (by decide)
    · rfl
  | host p =>
    obtain ⟨h1, hm, h2, h3, h4, h5, h6, h7, h8, h9, h10, h11⟩ := hr
    obtain ⟨rest, hs⟩ : ∃ rest, s.chip.lnk.section_ = wirePacket p (s.chip.wireBody p (encWord op f)) :: rest := by
      cases hx : s.chip.lnk.section_ with
      | nil => rw [hx] at h1; simp at h1
      | cons a r => rw [hx] at h1; simp at h1; exact ⟨r, by rw [h1]⟩
    have hfound : (s.chip.modLnk fun l => { l with section_ := rest }) = found (.host p) cycles s := by
      simp [found, Chip.modLnk, hs]
    have hgate : (found (.host p) cycles s).gate p (s.chip.wireBody p (encWord op f)) = .evaluate := h9
    have hctx : (⟨.host (p.sid.setWidth 4) ((found (.host p) cycles s).packetSeat p) (p.flags.getLsbD 0), f, packetOperands p⟩ : Ctx)
        = ctxOf (.host p) f s := rfl
    have hill : packetIllegal p f (body (ctxOf (.host p) f s) s.mem (found (.host p) cycles s)) = false := by
      have e : (decide (p.sid = 0) && p.flags.getLsbD 0) = false := by
        by_cases hp : p.sid = 0
        · rw [h6 hp, Bool.and_false]
        · rw [decide_eq_false hp, Bool.false_and]
      simp only [packetIllegal, hi, e, h4, h5, decide_eq_false (Nat.not_lt.2 h7), decide_eq_false (Nat.not_lt.2 h8)]
      rfl
    have hd : Clear (s.chip.rungChecks ++ s.chip.deviceChecks op f) := by
      refine (clear_append _ _).2 ⟨?_, h11⟩
      simp [Clear, Chip.rungChecks, h2, h3]
    have hn := (refusal_none _).2 ((clear_append _ _).2 ⟨hd, hc⟩)
    simp only [issue, hostIssue, hs, hm, ne_eq, not_true_eq_false, decide_false, Bool.not_true, Bool.or_self, Bool.false_eq_true,
      if_false, hfound, hgate, hctx, hill]
    generalize body (ctxOf (.host p) f s) s.mem (found (.host p) cycles s) = plan at hn hok ⊢
    have hans : plan.answer ((begun (.host p) cycles s).rungChecks ++ (begun (.host p) cycles s).deviceChecks op f)
        (begun (.host p) cycles s) = plan.act (begun (.host p) cycles s) := by
      rw [begun_checks]
      simp only [Plan.answer, hn]
    simp only [Chip.evaluate, rung_begun h3 h10, Bool.false_eq_true, if_false, hans, hok, if_true, Bool.and_true]
    generalize plan.act (begun (.host p) cycles s) = r
    rfl

/-- The same with the plan and its answer in the form that a statement gives them. -/
theorem issue_plan {i : Issuer} {op : BitVec 6} {f : Enc} {cycles : Nat} {body : Body} {s : State} {plan : Plan} {r : Reply}
    (hr : Ready i op f cycles s) (hp : body (ctxOf i f s) s.mem (found i cycles s) = plan) (hi : plan.illegal = false)
    (hc : Clear plan.checks) (ha : plan.act (begun i cycles s) = r) (hok : r.status.ok = true) :
    issue i op f cycles body s = answered i r s := by
  subst hp; subst ha
  exact issue_answered hr hi hc hok

/-- A packet with a good tag and a sequence above every earlier one of its session is evaluated (R110). -/
theorem gate_fresh {c : Chip} {p : Packet} {n : SessionId} {body : Block} (h0 : p.sid ≠ 0) (h1 : c.sessionOf p.sid = some n)
    (h2 : (c.sec.sessions[n.val]).high.toNat < p.seq.toNat)
    (h3 : cmacTag (c.sec.sessions[n.val]).kMacDown (tagInput c.lnk.drop p.sid p.seq p.flags p.kind body) = p.tag) :
    c.gate p body = .evaluate := by
  unfold Chip.gate
  simp only [if_neg h0, h1, h3, Session.entry]
  have a : ¬ p.seq.toNat + 63 < (c.sec.sessions[n.val]).high.toNat := by omega
  have b : ¬ p.seq.toNat ≤ (c.sec.sessions[n.val]).high.toNat := by omega
  simp [a, b, h2]

/-! ### What an issued instruction leaves alone -/

/-- A state keeps the queue, and its memories differ by word writes alone. -/
def Kept (s t : State) : Prop := t.pending = s.pending ∧ ∃ ws, t.mem = s.mem.apply ws

theorem kept_refl (s : State) : Kept s s := ⟨rfl, [], rfl⟩
theorem kept_chip (s : State) (c : Chip) : Kept s { s with chip := c } := ⟨rfl, [], rfl⟩
theorem kept_act (s : State) (f : Chip → Chip) : Kept s (s.act f) := ⟨rfl, [], rfl⟩
theorem kept_with (s : State) (ws : List MemWrite) (c : Chip) : Kept s (s.with ws c) := ⟨rfl, ws, rfl⟩
theorem kept_trans {s t u : State} (h : Kept s t) (g : Kept t u) : Kept s u := by
  obtain ⟨h1, ws, h2⟩ := h
  obtain ⟨g1, vs, g2⟩ := g
  refine ⟨g1.trans h1, ws ++ vs, ?_⟩
  rw [g2, h2]
  simp [Mems.apply, List.foldl_append]

theorem kept_behindScan (s : State) (cycle : Nat) (go : State → State) (h : Kept s (go s)) : Kept s (s.behindScan cycle go) := by
  unfold State.behindScan
  split
  · exact kept_act ..
  · exact h

theorem kept_threadRun (t : ThreadId) (cycles : Nat) (s : State) (go : State → State) (h : ∀ x, Kept x (go x)) :
    Kept s (threadRun t cycles s go) := by
  unfold threadRun State.threadNow
  split
  · refine kept_behindScan _ _ _ ?_
    split
    · exact kept_chip ..
    · exact kept_trans (kept_chip s _) (h _)
  · exact kept_refl s

theorem kept_threadPlain (t : ThreadId) (cycles : Nat) (illegal : Bool) (go : Thread → Thread) (s : State) :
    Kept s (threadPlain t cycles illegal go s) :=
  kept_threadRun _ _ _ _ fun x => kept_chip x _

theorem kept_threadIssue (t : ThreadId) (f : Enc) (cycles : Nat) (body : Body) (s : State) :
    Kept s (threadIssue t f cycles body s) :=
  kept_threadRun _ _ _ _ fun x => by
    dsimp only
    split
    · exact kept_chip ..
    · exact kept_with ..

theorem kept_hostIssue (p : Packet) (op : BitVec 6) (f : Enc) (cycles : Nat) (body : Body) (s : State) :
    Kept s (hostIssue p op f cycles body s) := by
  unfold hostIssue
  dsimp only
  split
  · exact kept_refl s
  · split
    · exact kept_refl s
    · split
      · exact kept_chip ..
      · exact kept_chip ..
      · exact kept_chip ..
      · exact kept_with ..

/-- Issuing an instruction keeps the queue and changes the memories by word writes alone. -/
theorem kept_issue (i : Issuer) (op : BitVec 6) (f : Enc) (cycles : Nat) (body : Body) (s : State) :
    Kept s (issue i op f cycles body s) := by
  cases i with
  | thread t => exact kept_threadIssue ..
  | host p => exact kept_hostIssue ..

end Sys2Proof.Machine
end

