-- ==== Sys2Proof/Laws/Memory.lean ====
section
/-! SUPPORT. The memories: a byte read after a write, and the canonical form that every memory operation keeps. -/

namespace Sys2Proof.Machine

/-- A write changes no other byte. -/
theorem Mem.read_write_other (m : Mem) (a x : Nat) (b : Byte) (h : x ≠ a) : (m.write a b).read x = m.read x := by
  induction m with
  | nil =>
    unfold Mem.write
    split <;> simp [Mem.read, Ne.symm h]
  | cons p r ih =>
    obtain ⟨k, v⟩ := p
    unfold Mem.write
    split
    · split <;> simp [Mem.read, Ne.symm h]
    · split
      · split
        · simp only [Mem.read]; rw [if_neg (by omega)]
        · simp only [Mem.read]; rw [if_neg (by omega), if_neg (by omega)]
      · simp only [Mem.read]; rw [ih]

/-- The list above n starts no lower. -/
theorem Mem.wfAbove_mono (m : Mem) (i j : Nat) (hij : i ≤ j) (h : Mem.wfAbove m j = true) : Mem.wfAbove m i = true := by
  cases m with
  | nil => rfl
  | cons p r =>
    obtain ⟨k, v⟩ := p
    simp only [Mem.wfAbove, Bool.and_eq_true, decide_eq_true_eq] at h ⊢
    exact ⟨⟨by omega, h.1.2⟩, h.2⟩

/-- Below its first address a canonical memory reads 0. -/
theorem Mem.read_below (m : Mem) (n a : Nat) (h : Mem.wfAbove m n = true) (ha : a < n) : m.read a = 0 := by
  induction m generalizing n with
  | nil => rfl
  | cons p r ih =>
    obtain ⟨k, v⟩ := p
    simp only [Mem.wfAbove, Bool.and_eq_true, decide_eq_true_eq] at h
    simp only [Mem.read]
    rw [if_neg (by omega)]
    exact ih (k + 1) h.2 (by omega)

/-- A byte written is read back. -/
theorem Mem.read_write_same (m : Mem) (n a : Nat) (b : Byte) (h : Mem.wfAbove m n = true) : (m.write a b).read a = b := by
  induction m generalizing n with
  | nil =>
    unfold Mem.write
    split <;> simp_all [Mem.read]
  | cons p r ih =>
    obtain ⟨k, v⟩ := p
    have h' := h
    simp only [Mem.wfAbove, Bool.and_eq_true, decide_eq_true_eq] at h
    unfold Mem.write
    split
    · split
      · next hk hb =>
        simp only [Mem.read]
        rw [if_neg (by omega), hb]
        exact Mem.read_below r (k + 1) a h.2 (by omega)
      · simp [Mem.read]
    · split
      · next hk =>
        split
        · next hb => rw [hb]; exact Mem.read_below r (k + 1) a h.2 (by omega)
        · simp [Mem.read]
      · simp only [Mem.read]
        rw [if_neg (by omega)]
        exact ih (k + 1) h.2

/-- A write keeps the canonical form. -/
theorem Mem.write_wfAbove (m : Mem) (n a : Nat) (b : Byte) (hn : n ≤ a) (h : Mem.wfAbove m n = true) :
    Mem.wfAbove (m.write a b) n = true := by
  induction m generalizing n with
  | nil =>
    unfold Mem.write
    split
    · rfl
    · simp_all [Mem.wfAbove]
  | cons p r ih =>
    obtain ⟨k, v⟩ := p
    have h' := h
    simp only [Mem.wfAbove, Bool.and_eq_true, decide_eq_true_eq] at h
    unfold Mem.write
    split
    · split
      · exact h'
      · next hk hb =>
        simp only [Mem.wfAbove, Bool.and_eq_true, decide_eq_true_eq]
        exact ⟨⟨hn, hb⟩, ⟨by omega, h.1.2⟩, h.2⟩
    · split
      · next hk =>
        split
        · exact Mem.wfAbove_mono r n (k + 1) (by omega) h.2
        · next hb =>
          simp only [Mem.wfAbove, Bool.and_eq_true, decide_eq_true_eq]
          exact ⟨⟨hn, hb⟩, by rw [← hk] at h; exact h.2⟩
      · simp only [Mem.wfAbove, Bool.and_eq_true, decide_eq_true_eq]
        exact ⟨⟨h.1.1, h.1.2⟩, ih (k + 1) (by omega) h.2⟩

/-- A write keeps the canonical form. -/
theorem Mem.write_wf (m : Mem) (a : Nat) (b : Byte) (h : m.wf = true) : (m.write a b).wf = true :=
  Mem.write_wfAbove m 0 a b (Nat.zero_le a) h

/-- A little-endian word write keeps the canonical form. -/
theorem Mem.writeLE_wf (m : Mem) (a : Nat) (w : Word) (h : m.wf = true) : (m.writeLE a w).wf = true :=
  Mem.write_wf _ _ _ (Mem.write_wf _ _ _ (Mem.write_wf _ _ _ (Mem.write_wf _ _ _ h)))

/-- A big-endian word write keeps the canonical form. -/
theorem Mem.writeBE_wf (m : Mem) (a : Nat) (w : Word) (h : m.wf = true) : (m.writeBE a w).wf = true :=
  Mem.write_wf _ _ _ (Mem.write_wf _ _ _ (Mem.write_wf _ _ _ (Mem.write_wf _ _ _ h)))

/-- One word write keeps the canonical form of the four memories. -/
theorem Mems.write_wf (m : Mems) (w : MemWrite) (h : m.wf = true) : (m.write w).wf = true := by
  simp only [Mems.wf, Bool.and_eq_true] at h ⊢
  obtain ⟨⟨⟨h1, h2⟩, h3⟩, h4⟩ := h
  cases w
  · exact ⟨⟨⟨Mem.writeLE_wf _ _ _ h1, h2⟩, h3⟩, h4⟩
  · exact ⟨⟨⟨Mem.write_wf _ _ _ h1, h2⟩, h3⟩, h4⟩
  · exact ⟨⟨⟨h1, Mem.writeBE_wf _ _ _ h2⟩, h3⟩, h4⟩
  · exact ⟨⟨⟨h1, h2⟩, Mem.writeLE_wf _ _ _ h3⟩, h4⟩
  · exact ⟨⟨⟨h1, h2⟩, h3⟩, Mem.writeBE_wf _ _ _ h4⟩

/-- Every memory operation keeps the canonical form: memory changes through word writes alone. -/
theorem Mems.apply_wf (m : Mems) (ws : List MemWrite) (h : m.wf = true) : (m.apply ws).wf = true := by
  induction ws generalizing m with
  | nil => exact h
  | cons w r ih => exact ih (m.write w) (Mems.write_wf m w h)

/-- A state's word writes keep the canonical form. -/
theorem State.with_wf (s : State) (ws : List MemWrite) (c : Chip) (h : s.mem.wf = true) : (s.with ws c).mem.wf = true :=
  Mems.apply_wf s.mem ws h

end Sys2Proof.Machine
end

