-- ==== Sys2Proof/Laws/Ops.lean ====
section
/-! SUPPORT. What the shared operations leave alone, and what the faults of a car and of a door change. -/

namespace Sys2Proof.Machine

variable (c : Chip)

/-- A doorbell raises an event bit of one thread at most (R149). -/
theorem Chip.ring_shape (a : Nat) : ∃ th, c.ring a = { c with threads := th } := by
  unfold Chip.ring
  split
  · split
    · exact ⟨_, rfl⟩
    · exact ⟨_, rfl⟩
  · exact ⟨_, rfl⟩

/-! ### raise -/

@[simp] theorem Chip.raise_dev (t : ThreadId) (b : Nat) : (c.raise t b).dev = c.dev := rfl
@[simp] theorem Chip.raise_pwr (t : ThreadId) (b : Nat) : (c.raise t b).pwr = c.pwr := rfl
@[simp] theorem Chip.raise_lnk (t : ThreadId) (b : Nat) : (c.raise t b).lnk = c.lnk := rfl
@[simp] theorem Chip.raise_sec (t : ThreadId) (b : Nat) : (c.raise t b).sec = c.sec := rfl
@[simp] theorem Chip.raise_sps (t : ThreadId) (b : Nat) : (c.raise t b).sps = c.sps := rfl
@[simp] theorem Chip.raise_cars (t : ThreadId) (b : Nat) : (c.raise t b).cars = c.cars := rfl
@[simp] theorem Chip.raise_doors (t : ThreadId) (b : Nat) : (c.raise t b).doors = c.doors := rfl
@[simp] theorem Chip.raise_taps (t : ThreadId) (b : Nat) : (c.raise t b).taps = c.taps := rfl
@[simp] theorem Chip.raise_axes (t : ThreadId) (b : Nat) : (c.raise t b).axes = c.axes := rfl
@[simp] theorem Chip.raise_fbks (t : ThreadId) (b : Nat) : (c.raise t b).fbks = c.fbks := rfl
@[simp] theorem Chip.raise_loops (t : ThreadId) (b : Nat) : (c.raise t b).loops = c.loops := rfl
@[simp] theorem Chip.raise_fes (t : ThreadId) (b : Nat) : (c.raise t b).fes = c.fes := rfl
@[simp] theorem Chip.raise_cals (t : ThreadId) (b : Nat) : (c.raise t b).cals = c.cals := rfl
@[simp] theorem Chip.raise_scan (t : ThreadId) (b : Nat) : (c.raise t b).scan = c.scan := rfl
@[simp] theorem Chip.raise_traceQueue (t : ThreadId) (b : Nat) : (c.raise t b).traceQueue = c.traceQueue := rfl
@[simp] theorem Chip.raise_captures (t : ThreadId) (b : Nat) : (c.raise t b).captures = c.captures := rfl
@[simp] theorem Chip.raise_blocks (t : ThreadId) (b : Nat) : (c.raise t b).blocks = c.blocks := rfl
@[simp] theorem Chip.raise_sine (t : ThreadId) (b : Nat) : (c.raise t b).sine = c.sine := rfl
@[simp] theorem Chip.raise_sineNext (t : ThreadId) (b : Nat) : (c.raise t b).sineNext = c.sineNext := rfl
@[simp] theorem Chip.raise_journal (t : ThreadId) (b : Nat) : (c.raise t b).journal = c.journal := rfl
@[simp] theorem Chip.raise_free (t : ThreadId) (b : Nat) : (c.raise t b).free = c.free := rfl
@[simp] theorem Chip.raise_nextCredit (t : ThreadId) (b : Nat) : (c.raise t b).nextCredit = c.nextCredit := rfl
@[simp] theorem Chip.raise_stage (t : ThreadId) (b : Nat) : (c.raise t b).stage = c.stage := rfl
@[simp] theorem Chip.raise_flaws (t : ThreadId) (b : Nat) : (c.raise t b).flaws = c.flaws := rfl
@[simp] theorem Chip.raise_inputs (t : ThreadId) (b : Nat) : (c.raise t b).inputs = c.inputs := rfl
@[simp] theorem Chip.raise_ramLog (t : ThreadId) (b : Nat) : (c.raise t b).ramLog = c.ramLog := rfl
@[simp] theorem Chip.raise_turn (t : ThreadId) (b : Nat) : (c.raise t b).turn = c.turn := rfl

/-! ### raiseSee -/

@[simp] theorem Chip.raiseSee_dev (k : CarId) (b : Nat) : (c.raiseSee k b).dev = c.dev := rfl
@[simp] theorem Chip.raiseSee_pwr (k : CarId) (b : Nat) : (c.raiseSee k b).pwr = c.pwr := rfl
@[simp] theorem Chip.raiseSee_lnk (k : CarId) (b : Nat) : (c.raiseSee k b).lnk = c.lnk := rfl
@[simp] theorem Chip.raiseSee_sec (k : CarId) (b : Nat) : (c.raiseSee k b).sec = c.sec := rfl
@[simp] theorem Chip.raiseSee_sps (k : CarId) (b : Nat) : (c.raiseSee k b).sps = c.sps := rfl
@[simp] theorem Chip.raiseSee_cars (k : CarId) (b : Nat) : (c.raiseSee k b).cars = c.cars := rfl
@[simp] theorem Chip.raiseSee_doors (k : CarId) (b : Nat) : (c.raiseSee k b).doors = c.doors := rfl
@[simp] theorem Chip.raiseSee_taps (k : CarId) (b : Nat) : (c.raiseSee k b).taps = c.taps := rfl
@[simp] theorem Chip.raiseSee_axes (k : CarId) (b : Nat) : (c.raiseSee k b).axes = c.axes := rfl
@[simp] theorem Chip.raiseSee_fbks (k : CarId) (b : Nat) : (c.raiseSee k b).fbks = c.fbks := rfl
@[simp] theorem Chip.raiseSee_loops (k : CarId) (b : Nat) : (c.raiseSee k b).loops = c.loops := rfl
@[simp] theorem Chip.raiseSee_fes (k : CarId) (b : Nat) : (c.raiseSee k b).fes = c.fes := rfl
@[simp] theorem Chip.raiseSee_cals (k : CarId) (b : Nat) : (c.raiseSee k b).cals = c.cals := rfl
@[simp] theorem Chip.raiseSee_scan (k : CarId) (b : Nat) : (c.raiseSee k b).scan = c.scan := rfl
@[simp] theorem Chip.raiseSee_traceQueue (k : CarId) (b : Nat) : (c.raiseSee k b).traceQueue = c.traceQueue := rfl
@[simp] theorem Chip.raiseSee_captures (k : CarId) (b : Nat) : (c.raiseSee k b).captures = c.captures := rfl
@[simp] theorem Chip.raiseSee_blocks (k : CarId) (b : Nat) : (c.raiseSee k b).blocks = c.blocks := rfl
@[simp] theorem Chip.raiseSee_sine (k : CarId) (b : Nat) : (c.raiseSee k b).sine = c.sine := rfl
@[simp] theorem Chip.raiseSee_sineNext (k : CarId) (b : Nat) : (c.raiseSee k b).sineNext = c.sineNext := rfl
@[simp] theorem Chip.raiseSee_journal (k : CarId) (b : Nat) : (c.raiseSee k b).journal = c.journal := rfl
@[simp] theorem Chip.raiseSee_free (k : CarId) (b : Nat) : (c.raiseSee k b).free = c.free := rfl
@[simp] theorem Chip.raiseSee_nextCredit (k : CarId) (b : Nat) : (c.raiseSee k b).nextCredit = c.nextCredit := rfl
@[simp] theorem Chip.raiseSee_stage (k : CarId) (b : Nat) : (c.raiseSee k b).stage = c.stage := rfl
@[simp] theorem Chip.raiseSee_flaws (k : CarId) (b : Nat) : (c.raiseSee k b).flaws = c.flaws := rfl
@[simp] theorem Chip.raiseSee_inputs (k : CarId) (b : Nat) : (c.raiseSee k b).inputs = c.inputs := rfl
@[simp] theorem Chip.raiseSee_ramLog (k : CarId) (b : Nat) : (c.raiseSee k b).ramLog = c.ramLog := rfl
@[simp] theorem Chip.raiseSee_turn (k : CarId) (b : Nat) : (c.raiseSee k b).turn = c.turn := rfl

/-! ### raiseAll -/

@[simp] theorem Chip.raiseAll_dev (b : Nat) : (c.raiseAll b).dev = c.dev := rfl
@[simp] theorem Chip.raiseAll_pwr (b : Nat) : (c.raiseAll b).pwr = c.pwr := rfl
@[simp] theorem Chip.raiseAll_lnk (b : Nat) : (c.raiseAll b).lnk = c.lnk := rfl
@[simp] theorem Chip.raiseAll_sec (b : Nat) : (c.raiseAll b).sec = c.sec := rfl
@[simp] theorem Chip.raiseAll_sps (b : Nat) : (c.raiseAll b).sps = c.sps := rfl
@[simp] theorem Chip.raiseAll_cars (b : Nat) : (c.raiseAll b).cars = c.cars := rfl
@[simp] theorem Chip.raiseAll_doors (b : Nat) : (c.raiseAll b).doors = c.doors := rfl
@[simp] theorem Chip.raiseAll_taps (b : Nat) : (c.raiseAll b).taps = c.taps := rfl
@[simp] theorem Chip.raiseAll_axes (b : Nat) : (c.raiseAll b).axes = c.axes := rfl
@[simp] theorem Chip.raiseAll_fbks (b : Nat) : (c.raiseAll b).fbks = c.fbks := rfl
@[simp] theorem Chip.raiseAll_loops (b : Nat) : (c.raiseAll b).loops = c.loops := rfl
@[simp] theorem Chip.raiseAll_fes (b : Nat) : (c.raiseAll b).fes = c.fes := rfl
@[simp] theorem Chip.raiseAll_cals (b : Nat) : (c.raiseAll b).cals = c.cals := rfl
@[simp] theorem Chip.raiseAll_scan (b : Nat) : (c.raiseAll b).scan = c.scan := rfl
@[simp] theorem Chip.raiseAll_traceQueue (b : Nat) : (c.raiseAll b).traceQueue = c.traceQueue := rfl
@[simp] theorem Chip.raiseAll_captures (b : Nat) : (c.raiseAll b).captures = c.captures := rfl
@[simp] theorem Chip.raiseAll_blocks (b : Nat) : (c.raiseAll b).blocks = c.blocks := rfl
@[simp] theorem Chip.raiseAll_sine (b : Nat) : (c.raiseAll b).sine = c.sine := rfl
@[simp] theorem Chip.raiseAll_sineNext (b : Nat) : (c.raiseAll b).sineNext = c.sineNext := rfl
@[simp] theorem Chip.raiseAll_journal (b : Nat) : (c.raiseAll b).journal = c.journal := rfl
@[simp] theorem Chip.raiseAll_free (b : Nat) : (c.raiseAll b).free = c.free := rfl
@[simp] theorem Chip.raiseAll_nextCredit (b : Nat) : (c.raiseAll b).nextCredit = c.nextCredit := rfl
@[simp] theorem Chip.raiseAll_stage (b : Nat) : (c.raiseAll b).stage = c.stage := rfl
@[simp] theorem Chip.raiseAll_flaws (b : Nat) : (c.raiseAll b).flaws = c.flaws := rfl
@[simp] theorem Chip.raiseAll_inputs (b : Nat) : (c.raiseAll b).inputs = c.inputs := rfl
@[simp] theorem Chip.raiseAll_ramLog (b : Nat) : (c.raiseAll b).ramLog = c.ramLog := rfl
@[simp] theorem Chip.raiseAll_turn (b : Nat) : (c.raiseAll b).turn = c.turn := rfl

/-! ### jobDone -/

@[simp] theorem Chip.jobDone_dev (p : Option ThreadId) : (c.jobDone p).dev = c.dev := by cases p <;> rfl
@[simp] theorem Chip.jobDone_pwr (p : Option ThreadId) : (c.jobDone p).pwr = c.pwr := by cases p <;> rfl
@[simp] theorem Chip.jobDone_lnk (p : Option ThreadId) : (c.jobDone p).lnk = c.lnk := by cases p <;> rfl
@[simp] theorem Chip.jobDone_sec (p : Option ThreadId) : (c.jobDone p).sec = c.sec := by cases p <;> rfl
@[simp] theorem Chip.jobDone_sps (p : Option ThreadId) : (c.jobDone p).sps = c.sps := by cases p <;> rfl
@[simp] theorem Chip.jobDone_cars (p : Option ThreadId) : (c.jobDone p).cars = c.cars := by cases p <;> rfl
@[simp] theorem Chip.jobDone_doors (p : Option ThreadId) : (c.jobDone p).doors = c.doors := by cases p <;> rfl
@[simp] theorem Chip.jobDone_taps (p : Option ThreadId) : (c.jobDone p).taps = c.taps := by cases p <;> rfl
@[simp] theorem Chip.jobDone_axes (p : Option ThreadId) : (c.jobDone p).axes = c.axes := by cases p <;> rfl
@[simp] theorem Chip.jobDone_fbks (p : Option ThreadId) : (c.jobDone p).fbks = c.fbks := by cases p <;> rfl
@[simp] theorem Chip.jobDone_loops (p : Option ThreadId) : (c.jobDone p).loops = c.loops := by cases p <;> rfl
@[simp] theorem Chip.jobDone_fes (p : Option ThreadId) : (c.jobDone p).fes = c.fes := by cases p <;> rfl
@[simp] theorem Chip.jobDone_cals (p : Option ThreadId) : (c.jobDone p).cals = c.cals := by cases p <;> rfl
@[simp] theorem Chip.jobDone_scan (p : Option ThreadId) : (c.jobDone p).scan = c.scan := by cases p <;> rfl
@[simp] theorem Chip.jobDone_traceQueue (p : Option ThreadId) : (c.jobDone p).traceQueue = c.traceQueue := by cases p <;> rfl
@[simp] theorem Chip.jobDone_captures (p : Option ThreadId) : (c.jobDone p).captures = c.captures := by cases p <;> rfl
@[simp] theorem Chip.jobDone_blocks (p : Option ThreadId) : (c.jobDone p).blocks = c.blocks := by cases p <;> rfl
@[simp] theorem Chip.jobDone_sine (p : Option ThreadId) : (c.jobDone p).sine = c.sine := by cases p <;> rfl
@[simp] theorem Chip.jobDone_sineNext (p : Option ThreadId) : (c.jobDone p).sineNext = c.sineNext := by cases p <;> rfl
@[simp] theorem Chip.jobDone_journal (p : Option ThreadId) : (c.jobDone p).journal = c.journal := by cases p <;> rfl
@[simp] theorem Chip.jobDone_free (p : Option ThreadId) : (c.jobDone p).free = c.free := by cases p <;> rfl
@[simp] theorem Chip.jobDone_nextCredit (p : Option ThreadId) : (c.jobDone p).nextCredit = c.nextCredit := by cases p <;> rfl
@[simp] theorem Chip.jobDone_stage (p : Option ThreadId) : (c.jobDone p).stage = c.stage := by cases p <;> rfl
@[simp] theorem Chip.jobDone_flaws (p : Option ThreadId) : (c.jobDone p).flaws = c.flaws := by cases p <;> rfl
@[simp] theorem Chip.jobDone_inputs (p : Option ThreadId) : (c.jobDone p).inputs = c.inputs := by cases p <;> rfl
@[simp] theorem Chip.jobDone_ramLog (p : Option ThreadId) : (c.jobDone p).ramLog = c.ramLog := by cases p <;> rfl
@[simp] theorem Chip.jobDone_turn (p : Option ThreadId) : (c.jobDone p).turn = c.turn := by cases p <;> rfl

/-! ### placeFreed -/

@[simp] theorem Chip.placeFreed_dev (q : QueueId) : (c.placeFreed q).dev = c.dev := rfl
@[simp] theorem Chip.placeFreed_pwr (q : QueueId) : (c.placeFreed q).pwr = c.pwr := rfl
@[simp] theorem Chip.placeFreed_lnk (q : QueueId) : (c.placeFreed q).lnk = c.lnk := rfl
@[simp] theorem Chip.placeFreed_sec (q : QueueId) : (c.placeFreed q).sec = c.sec := rfl
@[simp] theorem Chip.placeFreed_sps (q : QueueId) : (c.placeFreed q).sps = c.sps := rfl
@[simp] theorem Chip.placeFreed_cars (q : QueueId) : (c.placeFreed q).cars = c.cars := rfl
@[simp] theorem Chip.placeFreed_doors (q : QueueId) : (c.placeFreed q).doors = c.doors := rfl
@[simp] theorem Chip.placeFreed_taps (q : QueueId) : (c.placeFreed q).taps = c.taps := rfl
@[simp] theorem Chip.placeFreed_axes (q : QueueId) : (c.placeFreed q).axes = c.axes := rfl
@[simp] theorem Chip.placeFreed_fbks (q : QueueId) : (c.placeFreed q).fbks = c.fbks := rfl
@[simp] theorem Chip.placeFreed_loops (q : QueueId) : (c.placeFreed q).loops = c.loops := rfl
@[simp] theorem Chip.placeFreed_fes (q : QueueId) : (c.placeFreed q).fes = c.fes := rfl
@[simp] theorem Chip.placeFreed_cals (q : QueueId) : (c.placeFreed q).cals = c.cals := rfl
@[simp] theorem Chip.placeFreed_scan (q : QueueId) : (c.placeFreed q).scan = c.scan := rfl
@[simp] theorem Chip.placeFreed_traceQueue (q : QueueId) : (c.placeFreed q).traceQueue = c.traceQueue := rfl
@[simp] theorem Chip.placeFreed_captures (q : QueueId) : (c.placeFreed q).captures = c.captures := rfl
@[simp] theorem Chip.placeFreed_blocks (q : QueueId) : (c.placeFreed q).blocks = c.blocks := rfl
@[simp] theorem Chip.placeFreed_sine (q : QueueId) : (c.placeFreed q).sine = c.sine := rfl
@[simp] theorem Chip.placeFreed_sineNext (q : QueueId) : (c.placeFreed q).sineNext = c.sineNext := rfl
@[simp] theorem Chip.placeFreed_journal (q : QueueId) : (c.placeFreed q).journal = c.journal := rfl
@[simp] theorem Chip.placeFreed_free (q : QueueId) : (c.placeFreed q).free = c.free := rfl
@[simp] theorem Chip.placeFreed_nextCredit (q : QueueId) : (c.placeFreed q).nextCredit = c.nextCredit := rfl
@[simp] theorem Chip.placeFreed_stage (q : QueueId) : (c.placeFreed q).stage = c.stage := rfl
@[simp] theorem Chip.placeFreed_flaws (q : QueueId) : (c.placeFreed q).flaws = c.flaws := rfl
@[simp] theorem Chip.placeFreed_inputs (q : QueueId) : (c.placeFreed q).inputs = c.inputs := rfl
@[simp] theorem Chip.placeFreed_ramLog (q : QueueId) : (c.placeFreed q).ramLog = c.ramLog := rfl
@[simp] theorem Chip.placeFreed_turn (q : QueueId) : (c.placeFreed q).turn = c.turn := rfl

/-! ### noteFull -/

@[simp] theorem Chip.noteFull_dev (t : ThreadId) (q : QueueId) : (c.noteFull t q).dev = c.dev := rfl
@[simp] theorem Chip.noteFull_pwr (t : ThreadId) (q : QueueId) : (c.noteFull t q).pwr = c.pwr := rfl
@[simp] theorem Chip.noteFull_lnk (t : ThreadId) (q : QueueId) : (c.noteFull t q).lnk = c.lnk := rfl
@[simp] theorem Chip.noteFull_sec (t : ThreadId) (q : QueueId) : (c.noteFull t q).sec = c.sec := rfl
@[simp] theorem Chip.noteFull_sps (t : ThreadId) (q : QueueId) : (c.noteFull t q).sps = c.sps := rfl
@[simp] theorem Chip.noteFull_cars (t : ThreadId) (q : QueueId) : (c.noteFull t q).cars = c.cars := rfl
@[simp] theorem Chip.noteFull_doors (t : ThreadId) (q : QueueId) : (c.noteFull t q).doors = c.doors := rfl
@[simp] theorem Chip.noteFull_taps (t : ThreadId) (q : QueueId) : (c.noteFull t q).taps = c.taps := rfl
@[simp] theorem Chip.noteFull_axes (t : ThreadId) (q : QueueId) : (c.noteFull t q).axes = c.axes := rfl
@[simp] theorem Chip.noteFull_fbks (t : ThreadId) (q : QueueId) : (c.noteFull t q).fbks = c.fbks := rfl
@[simp] theorem Chip.noteFull_loops (t : ThreadId) (q : QueueId) : (c.noteFull t q).loops = c.loops := rfl
@[simp] theorem Chip.noteFull_fes (t : ThreadId) (q : QueueId) : (c.noteFull t q).fes = c.fes := rfl
@[simp] theorem Chip.noteFull_cals (t : ThreadId) (q : QueueId) : (c.noteFull t q).cals = c.cals := rfl
@[simp] theorem Chip.noteFull_scan (t : ThreadId) (q : QueueId) : (c.noteFull t q).scan = c.scan := rfl
@[simp] theorem Chip.noteFull_traceQueue (t : ThreadId) (q : QueueId) : (c.noteFull t q).traceQueue = c.traceQueue := rfl
@[simp] theorem Chip.noteFull_captures (t : ThreadId) (q : QueueId) : (c.noteFull t q).captures = c.captures := rfl
@[simp] theorem Chip.noteFull_blocks (t : ThreadId) (q : QueueId) : (c.noteFull t q).blocks = c.blocks := rfl
@[simp] theorem Chip.noteFull_sine (t : ThreadId) (q : QueueId) : (c.noteFull t q).sine = c.sine := rfl
@[simp] theorem Chip.noteFull_sineNext (t : ThreadId) (q : QueueId) : (c.noteFull t q).sineNext = c.sineNext := rfl
@[simp] theorem Chip.noteFull_journal (t : ThreadId) (q : QueueId) : (c.noteFull t q).journal = c.journal := rfl
@[simp] theorem Chip.noteFull_free (t : ThreadId) (q : QueueId) : (c.noteFull t q).free = c.free := rfl
@[simp] theorem Chip.noteFull_nextCredit (t : ThreadId) (q : QueueId) : (c.noteFull t q).nextCredit = c.nextCredit := rfl
@[simp] theorem Chip.noteFull_stage (t : ThreadId) (q : QueueId) : (c.noteFull t q).stage = c.stage := rfl
@[simp] theorem Chip.noteFull_flaws (t : ThreadId) (q : QueueId) : (c.noteFull t q).flaws = c.flaws := rfl
@[simp] theorem Chip.noteFull_inputs (t : ThreadId) (q : QueueId) : (c.noteFull t q).inputs = c.inputs := rfl
@[simp] theorem Chip.noteFull_ramLog (t : ThreadId) (q : QueueId) : (c.noteFull t q).ramLog = c.ramLog := rfl
@[simp] theorem Chip.noteFull_turn (t : ThreadId) (q : QueueId) : (c.noteFull t q).turn = c.turn := rfl

/-! ### ring -/

@[simp] theorem Chip.ring_dev (a : Nat) : (c.ring a).dev = c.dev := by
  obtain ⟨th, h⟩ := c.ring_shape a; rw [h]
@[simp] theorem Chip.ring_pwr (a : Nat) : (c.ring a).pwr = c.pwr := by
  obtain ⟨th, h⟩ := c.ring_shape a; rw [h]
@[simp] theorem Chip.ring_lnk (a : Nat) : (c.ring a).lnk = c.lnk := by
  obtain ⟨th, h⟩ := c.ring_shape a; rw [h]
@[simp] theorem Chip.ring_sec (a : Nat) : (c.ring a).sec = c.sec := by
  obtain ⟨th, h⟩ := c.ring_shape a; rw [h]
@[simp] theorem Chip.ring_sps (a : Nat) : (c.ring a).sps = c.sps := by
  obtain ⟨th, h⟩ := c.ring_shape a; rw [h]
@[simp] theorem Chip.ring_cars (a : Nat) : (c.ring a).cars = c.cars := by
  obtain ⟨th, h⟩ := c.ring_shape a; rw [h]
@[simp] theorem Chip.ring_doors (a : Nat) : (c.ring a).doors = c.doors := by
  obtain ⟨th, h⟩ := c.ring_shape a; rw [h]
@[simp] theorem Chip.ring_taps (a : Nat) : (c.ring a).taps = c.taps := by
  obtain ⟨th, h⟩ := c.ring_shape a; rw [h]
@[simp] theorem Chip.ring_axes (a : Nat) : (c.ring a).axes = c.axes := by
  obtain ⟨th, h⟩ := c.ring_shape a; rw [h]
@[simp] theorem Chip.ring_fbks (a : Nat) : (c.ring a).fbks = c.fbks := by
  obtain ⟨th, h⟩ := c.ring_shape a; rw [h]
@[simp] theorem Chip.ring_loops (a : Nat) : (c.ring a).loops = c.loops := by
  obtain ⟨th, h⟩ := c.ring_shape a; rw [h]
@[simp] theorem Chip.ring_fes (a : Nat) : (c.ring a).fes = c.fes := by
  obtain ⟨th, h⟩ := c.ring_shape a; rw [h]
@[simp] theorem Chip.ring_cals (a : Nat) : (c.ring a).cals = c.cals := by
  obtain ⟨th, h⟩ := c.ring_shape a; rw [h]
@[simp] theorem Chip.ring_scan (a : Nat) : (c.ring a).scan = c.scan := by
  obtain ⟨th, h⟩ := c.ring_shape a; rw [h]
@[simp] theorem Chip.ring_traceQueue (a : Nat) : (c.ring a).traceQueue = c.traceQueue := by
  obtain ⟨th, h⟩ := c.ring_shape a; rw [h]
@[simp] theorem Chip.ring_captures (a : Nat) : (c.ring a).captures = c.captures := by
  obtain ⟨th, h⟩ := c.ring_shape a; rw [h]
@[simp] theorem Chip.ring_blocks (a : Nat) : (c.ring a).blocks = c.blocks := by
  obtain ⟨th, h⟩ := c.ring_shape a; rw [h]
@[simp] theorem Chip.ring_sine (a : Nat) : (c.ring a).sine = c.sine := by
  obtain ⟨th, h⟩ := c.ring_shape a; rw [h]
@[simp] theorem Chip.ring_sineNext (a : Nat) : (c.ring a).sineNext = c.sineNext := by
  obtain ⟨th, h⟩ := c.ring_shape a; rw [h]
@[simp] theorem Chip.ring_journal (a : Nat) : (c.ring a).journal = c.journal := by
  obtain ⟨th, h⟩ := c.ring_shape a; rw [h]
@[simp] theorem Chip.ring_free (a : Nat) : (c.ring a).free = c.free := by
  obtain ⟨th, h⟩ := c.ring_shape a; rw [h]
@[simp] theorem Chip.ring_nextCredit (a : Nat) : (c.ring a).nextCredit = c.nextCredit := by
  obtain ⟨th, h⟩ := c.ring_shape a; rw [h]
@[simp] theorem Chip.ring_stage (a : Nat) : (c.ring a).stage = c.stage := by
  obtain ⟨th, h⟩ := c.ring_shape a; rw [h]
@[simp] theorem Chip.ring_flaws (a : Nat) : (c.ring a).flaws = c.flaws := by
  obtain ⟨th, h⟩ := c.ring_shape a; rw [h]
@[simp] theorem Chip.ring_inputs (a : Nat) : (c.ring a).inputs = c.inputs := by
  obtain ⟨th, h⟩ := c.ring_shape a; rw [h]
@[simp] theorem Chip.ring_ramLog (a : Nat) : (c.ring a).ramLog = c.ramLog := by
  obtain ⟨th, h⟩ := c.ring_shape a; rw [h]
@[simp] theorem Chip.ring_turn (a : Nat) : (c.ring a).turn = c.turn := by
  obtain ⟨th, h⟩ := c.ring_shape a; rw [h]

/-! ### release -/

@[simp] theorem Chip.release_dev (r : Option Nat) : (c.release r).dev = c.dev := by cases r <;> rfl
@[simp] theorem Chip.release_pwr (r : Option Nat) : (c.release r).pwr = c.pwr := by cases r <;> rfl
@[simp] theorem Chip.release_lnk (r : Option Nat) : (c.release r).lnk = c.lnk := by cases r <;> rfl
@[simp] theorem Chip.release_sps (r : Option Nat) : (c.release r).sps = c.sps := by cases r <;> rfl
@[simp] theorem Chip.release_threads (r : Option Nat) : (c.release r).threads = c.threads := by cases r <;> rfl
@[simp] theorem Chip.release_cars (r : Option Nat) : (c.release r).cars = c.cars := by cases r <;> rfl
@[simp] theorem Chip.release_doors (r : Option Nat) : (c.release r).doors = c.doors := by cases r <;> rfl
@[simp] theorem Chip.release_taps (r : Option Nat) : (c.release r).taps = c.taps := by cases r <;> rfl
@[simp] theorem Chip.release_axes (r : Option Nat) : (c.release r).axes = c.axes := by cases r <;> rfl
@[simp] theorem Chip.release_fbks (r : Option Nat) : (c.release r).fbks = c.fbks := by cases r <;> rfl
@[simp] theorem Chip.release_loops (r : Option Nat) : (c.release r).loops = c.loops := by cases r <;> rfl
@[simp] theorem Chip.release_fes (r : Option Nat) : (c.release r).fes = c.fes := by cases r <;> rfl
@[simp] theorem Chip.release_cals (r : Option Nat) : (c.release r).cals = c.cals := by cases r <;> rfl
@[simp] theorem Chip.release_scan (r : Option Nat) : (c.release r).scan = c.scan := by cases r <;> rfl
@[simp] theorem Chip.release_traceQueue (r : Option Nat) : (c.release r).traceQueue = c.traceQueue := by cases r <;> rfl
@[simp] theorem Chip.release_captures (r : Option Nat) : (c.release r).captures = c.captures := by cases r <;> rfl
@[simp] theorem Chip.release_blocks (r : Option Nat) : (c.release r).blocks = c.blocks := by cases r <;> rfl
@[simp] theorem Chip.release_sine (r : Option Nat) : (c.release r).sine = c.sine := by cases r <;> rfl
@[simp] theorem Chip.release_sineNext (r : Option Nat) : (c.release r).sineNext = c.sineNext := by cases r <;> rfl
@[simp] theorem Chip.release_journal (r : Option Nat) : (c.release r).journal = c.journal := by cases r <;> rfl
@[simp] theorem Chip.release_free (r : Option Nat) : (c.release r).free = c.free := by cases r <;> rfl
@[simp] theorem Chip.release_nextCredit (r : Option Nat) : (c.release r).nextCredit = c.nextCredit := by cases r <;> rfl
@[simp] theorem Chip.release_stage (r : Option Nat) : (c.release r).stage = c.stage := by cases r <;> rfl
@[simp] theorem Chip.release_flaws (r : Option Nat) : (c.release r).flaws = c.flaws := by cases r <;> rfl
@[simp] theorem Chip.release_inputs (r : Option Nat) : (c.release r).inputs = c.inputs := by cases r <;> rfl
@[simp] theorem Chip.release_ramLog (r : Option Nat) : (c.release r).ramLog = c.ramLog := by cases r <;> rfl
@[simp] theorem Chip.release_turn (r : Option Nat) : (c.release r).turn = c.turn := by cases r <;> rfl

/-! ### takeCredit -/

@[simp] theorem Chip.takeCredit_stage (sid : BitVec 4) (seat : BitVec 3) : (c.takeCredit sid seat).stage = c.stage := by
  unfold Chip.takeCredit; split <;> rfl
@[simp] theorem Chip.takeCredit_flaws (sid : BitVec 4) (seat : BitVec 3) : (c.takeCredit sid seat).flaws = c.flaws := by
  unfold Chip.takeCredit; split <;> rfl
@[simp] theorem Chip.takeCredit_inputs (sid : BitVec 4) (seat : BitVec 3) : (c.takeCredit sid seat).inputs = c.inputs := by
  unfold Chip.takeCredit; split <;> rfl
@[simp] theorem Chip.takeCredit_ramLog (sid : BitVec 4) (seat : BitVec 3) : (c.takeCredit sid seat).ramLog = c.ramLog := by
  unfold Chip.takeCredit; split <;> rfl
@[simp] theorem Chip.takeCredit_turn (sid : BitVec 4) (seat : BitVec 3) : (c.takeCredit sid seat).turn = c.turn := by
  unfold Chip.takeCredit; split <;> rfl
@[simp] theorem Chip.takeCredit_dev (sid : BitVec 4) (seat : BitVec 3) : (c.takeCredit sid seat).dev = c.dev := by
  unfold Chip.takeCredit; split <;> rfl
@[simp] theorem Chip.takeCredit_pwr (sid : BitVec 4) (seat : BitVec 3) : (c.takeCredit sid seat).pwr = c.pwr := by
  unfold Chip.takeCredit; split <;> rfl
@[simp] theorem Chip.takeCredit_lnk (sid : BitVec 4) (seat : BitVec 3) : (c.takeCredit sid seat).lnk = c.lnk := by
  unfold Chip.takeCredit; split <;> rfl
@[simp] theorem Chip.takeCredit_sps (sid : BitVec 4) (seat : BitVec 3) : (c.takeCredit sid seat).sps = c.sps := by
  unfold Chip.takeCredit; split <;> rfl
@[simp] theorem Chip.takeCredit_threads (sid : BitVec 4) (seat : BitVec 3) : (c.takeCredit sid seat).threads = c.threads := by
  unfold Chip.takeCredit; split <;> rfl
@[simp] theorem Chip.takeCredit_cars (sid : BitVec 4) (seat : BitVec 3) : (c.takeCredit sid seat).cars = c.cars := by
  unfold Chip.takeCredit; split <;> rfl
@[simp] theorem Chip.takeCredit_doors (sid : BitVec 4) (seat : BitVec 3) : (c.takeCredit sid seat).doors = c.doors := by
  unfold Chip.takeCredit; split <;> rfl
@[simp] theorem Chip.takeCredit_taps (sid : BitVec 4) (seat : BitVec 3) : (c.takeCredit sid seat).taps = c.taps := by
  unfold Chip.takeCredit; split <;> rfl
@[simp] theorem Chip.takeCredit_axes (sid : BitVec 4) (seat : BitVec 3) : (c.takeCredit sid seat).axes = c.axes := by
  unfold Chip.takeCredit; split <;> rfl
@[simp] theorem Chip.takeCredit_fbks (sid : BitVec 4) (seat : BitVec 3) : (c.takeCredit sid seat).fbks = c.fbks := by
  unfold Chip.takeCredit; split <;> rfl
@[simp] theorem Chip.takeCredit_loops (sid : BitVec 4) (seat : BitVec 3) : (c.takeCredit sid seat).loops = c.loops := by
  unfold Chip.takeCredit; split <;> rfl
@[simp] theorem Chip.takeCredit_fes (sid : BitVec 4) (seat : BitVec 3) : (c.takeCredit sid seat).fes = c.fes := by
  unfold Chip.takeCredit; split <;> rfl
@[simp] theorem Chip.takeCredit_cals (sid : BitVec 4) (seat : BitVec 3) : (c.takeCredit sid seat).cals = c.cals := by
  unfold Chip.takeCredit; split <;> rfl
@[simp] theorem Chip.takeCredit_scan (sid : BitVec 4) (seat : BitVec 3) : (c.takeCredit sid seat).scan = c.scan := by
  unfold Chip.takeCredit; split <;> rfl
@[simp] theorem Chip.takeCredit_traceQueue (sid : BitVec 4) (seat : BitVec 3) : (c.takeCredit sid seat).traceQueue = c.traceQueue := by
  unfold Chip.takeCredit; split <;> rfl
@[simp] theorem Chip.takeCredit_captures (sid : BitVec 4) (seat : BitVec 3) : (c.takeCredit sid seat).captures = c.captures := by
  unfold Chip.takeCredit; split <;> rfl
@[simp] theorem Chip.takeCredit_blocks (sid : BitVec 4) (seat : BitVec 3) : (c.takeCredit sid seat).blocks = c.blocks := by
  unfold Chip.takeCredit; split <;> rfl
@[simp] theorem Chip.takeCredit_sine (sid : BitVec 4) (seat : BitVec 3) : (c.takeCredit sid seat).sine = c.sine := by
  unfold Chip.takeCredit; split <;> rfl
@[simp] theorem Chip.takeCredit_sineNext (sid : BitVec 4) (seat : BitVec 3) : (c.takeCredit sid seat).sineNext = c.sineNext := by
  unfold Chip.takeCredit; split <;> rfl
@[simp] theorem Chip.takeCredit_journal (sid : BitVec 4) (seat : BitVec 3) : (c.takeCredit sid seat).journal = c.journal := by
  unfold Chip.takeCredit; split <;> rfl
@[simp] theorem Chip.takeCredit_free (sid : BitVec 4) (seat : BitVec 3) : (c.takeCredit sid seat).free = c.free := by
  unfold Chip.takeCredit; split <;> rfl

/-! ### enqueueRecord -/

@[simp] theorem Chip.enqueueRecord_dev (t src fl : Byte) (b : List Byte) (cr : Option Nat) (p : Option ThreadId) : (c.enqueueRecord t src fl b cr p).dev = c.dev := rfl
@[simp] theorem Chip.enqueueRecord_pwr (t src fl : Byte) (b : List Byte) (cr : Option Nat) (p : Option ThreadId) : (c.enqueueRecord t src fl b cr p).pwr = c.pwr := rfl
@[simp] theorem Chip.enqueueRecord_lnk (t src fl : Byte) (b : List Byte) (cr : Option Nat) (p : Option ThreadId) : (c.enqueueRecord t src fl b cr p).lnk = c.lnk := rfl
@[simp] theorem Chip.enqueueRecord_sec (t src fl : Byte) (b : List Byte) (cr : Option Nat) (p : Option ThreadId) : (c.enqueueRecord t src fl b cr p).sec = c.sec := rfl
@[simp] theorem Chip.enqueueRecord_sps (t src fl : Byte) (b : List Byte) (cr : Option Nat) (p : Option ThreadId) : (c.enqueueRecord t src fl b cr p).sps = c.sps := rfl
@[simp] theorem Chip.enqueueRecord_threads (t src fl : Byte) (b : List Byte) (cr : Option Nat) (p : Option ThreadId) : (c.enqueueRecord t src fl b cr p).threads = c.threads := rfl
@[simp] theorem Chip.enqueueRecord_cars (t src fl : Byte) (b : List Byte) (cr : Option Nat) (p : Option ThreadId) : (c.enqueueRecord t src fl b cr p).cars = c.cars := rfl
@[simp] theorem Chip.enqueueRecord_doors (t src fl : Byte) (b : List Byte) (cr : Option Nat) (p : Option ThreadId) : (c.enqueueRecord t src fl b cr p).doors = c.doors := rfl
@[simp] theorem Chip.enqueueRecord_taps (t src fl : Byte) (b : List Byte) (cr : Option Nat) (p : Option ThreadId) : (c.enqueueRecord t src fl b cr p).taps = c.taps := rfl
@[simp] theorem Chip.enqueueRecord_axes (t src fl : Byte) (b : List Byte) (cr : Option Nat) (p : Option ThreadId) : (c.enqueueRecord t src fl b cr p).axes = c.axes := rfl
@[simp] theorem Chip.enqueueRecord_fbks (t src fl : Byte) (b : List Byte) (cr : Option Nat) (p : Option ThreadId) : (c.enqueueRecord t src fl b cr p).fbks = c.fbks := rfl
@[simp] theorem Chip.enqueueRecord_loops (t src fl : Byte) (b : List Byte) (cr : Option Nat) (p : Option ThreadId) : (c.enqueueRecord t src fl b cr p).loops = c.loops := rfl
@[simp] theorem Chip.enqueueRecord_fes (t src fl : Byte) (b : List Byte) (cr : Option Nat) (p : Option ThreadId) : (c.enqueueRecord t src fl b cr p).fes = c.fes := rfl
@[simp] theorem Chip.enqueueRecord_cals (t src fl : Byte) (b : List Byte) (cr : Option Nat) (p : Option ThreadId) : (c.enqueueRecord t src fl b cr p).cals = c.cals := rfl
@[simp] theorem Chip.enqueueRecord_scan (t src fl : Byte) (b : List Byte) (cr : Option Nat) (p : Option ThreadId) : (c.enqueueRecord t src fl b cr p).scan = c.scan := rfl
@[simp] theorem Chip.enqueueRecord_traceQueue (t src fl : Byte) (b : List Byte) (cr : Option Nat) (p : Option ThreadId) : (c.enqueueRecord t src fl b cr p).traceQueue = c.traceQueue := rfl
@[simp] theorem Chip.enqueueRecord_captures (t src fl : Byte) (b : List Byte) (cr : Option Nat) (p : Option ThreadId) : (c.enqueueRecord t src fl b cr p).captures = c.captures := rfl
@[simp] theorem Chip.enqueueRecord_blocks (t src fl : Byte) (b : List Byte) (cr : Option Nat) (p : Option ThreadId) : (c.enqueueRecord t src fl b cr p).blocks = c.blocks := rfl
@[simp] theorem Chip.enqueueRecord_sine (t src fl : Byte) (b : List Byte) (cr : Option Nat) (p : Option ThreadId) : (c.enqueueRecord t src fl b cr p).sine = c.sine := rfl
@[simp] theorem Chip.enqueueRecord_sineNext (t src fl : Byte) (b : List Byte) (cr : Option Nat) (p : Option ThreadId) : (c.enqueueRecord t src fl b cr p).sineNext = c.sineNext := rfl
@[simp] theorem Chip.enqueueRecord_free (t src fl : Byte) (b : List Byte) (cr : Option Nat) (p : Option ThreadId) : (c.enqueueRecord t src fl b cr p).free = c.free := rfl
@[simp] theorem Chip.enqueueRecord_nextCredit (t src fl : Byte) (b : List Byte) (cr : Option Nat) (p : Option ThreadId) : (c.enqueueRecord t src fl b cr p).nextCredit = c.nextCredit := rfl
@[simp] theorem Chip.enqueueRecord_stage (t src fl : Byte) (b : List Byte) (cr : Option Nat) (p : Option ThreadId) : (c.enqueueRecord t src fl b cr p).stage = c.stage := rfl
@[simp] theorem Chip.enqueueRecord_flaws (t src fl : Byte) (b : List Byte) (cr : Option Nat) (p : Option ThreadId) : (c.enqueueRecord t src fl b cr p).flaws = c.flaws := rfl
@[simp] theorem Chip.enqueueRecord_inputs (t src fl : Byte) (b : List Byte) (cr : Option Nat) (p : Option ThreadId) : (c.enqueueRecord t src fl b cr p).inputs = c.inputs := rfl
@[simp] theorem Chip.enqueueRecord_ramLog (t src fl : Byte) (b : List Byte) (cr : Option Nat) (p : Option ThreadId) : (c.enqueueRecord t src fl b cr p).ramLog = c.ramLog := rfl
@[simp] theorem Chip.enqueueRecord_turn (t src fl : Byte) (b : List Byte) (cr : Option Nat) (p : Option ThreadId) : (c.enqueueRecord t src fl b cr p).turn = c.turn := rfl

/-! ### record -/

@[simp] theorem Chip.record_dev (t : Byte) (k : Option CarId) (b : List Byte) (src : Byte) : (c.record t k b src).dev = c.dev := by
  unfold Chip.record; split <;> rfl
@[simp] theorem Chip.record_pwr (t : Byte) (k : Option CarId) (b : List Byte) (src : Byte) : (c.record t k b src).pwr = c.pwr := by
  unfold Chip.record; split <;> rfl
@[simp] theorem Chip.record_lnk (t : Byte) (k : Option CarId) (b : List Byte) (src : Byte) : (c.record t k b src).lnk = c.lnk := by
  unfold Chip.record; split <;> rfl
@[simp] theorem Chip.record_sec (t : Byte) (k : Option CarId) (b : List Byte) (src : Byte) : (c.record t k b src).sec = c.sec := by
  unfold Chip.record; split <;> rfl
@[simp] theorem Chip.record_sps (t : Byte) (k : Option CarId) (b : List Byte) (src : Byte) : (c.record t k b src).sps = c.sps := by
  unfold Chip.record; split <;> rfl
@[simp] theorem Chip.record_threads (t : Byte) (k : Option CarId) (b : List Byte) (src : Byte) : (c.record t k b src).threads = c.threads := by
  unfold Chip.record; split <;> rfl
@[simp] theorem Chip.record_cars (t : Byte) (k : Option CarId) (b : List Byte) (src : Byte) : (c.record t k b src).cars = c.cars := by
  unfold Chip.record; split <;> rfl
@[simp] theorem Chip.record_doors (t : Byte) (k : Option CarId) (b : List Byte) (src : Byte) : (c.record t k b src).doors = c.doors := by
  unfold Chip.record; split <;> rfl
@[simp] theorem Chip.record_taps (t : Byte) (k : Option CarId) (b : List Byte) (src : Byte) : (c.record t k b src).taps = c.taps := by
  unfold Chip.record; split <;> rfl
@[simp] theorem Chip.record_axes (t : Byte) (k : Option CarId) (b : List Byte) (src : Byte) : (c.record t k b src).axes = c.axes := by
  unfold Chip.record; split <;> rfl
@[simp] theorem Chip.record_fbks (t : Byte) (k : Option CarId) (b : List Byte) (src : Byte) : (c.record t k b src).fbks = c.fbks := by
  unfold Chip.record; split <;> rfl
@[simp] theorem Chip.record_loops (t : Byte) (k : Option CarId) (b : List Byte) (src : Byte) : (c.record t k b src).loops = c.loops := by
  unfold Chip.record; split <;> rfl
@[simp] theorem Chip.record_fes (t : Byte) (k : Option CarId) (b : List Byte) (src : Byte) : (c.record t k b src).fes = c.fes := by
  unfold Chip.record; split <;> rfl
@[simp] theorem Chip.record_cals (t : Byte) (k : Option CarId) (b : List Byte) (src : Byte) : (c.record t k b src).cals = c.cals := by
  unfold Chip.record; split <;> rfl
@[simp] theorem Chip.record_scan (t : Byte) (k : Option CarId) (b : List Byte) (src : Byte) : (c.record t k b src).scan = c.scan := by
  unfold Chip.record; split <;> rfl
@[simp] theorem Chip.record_traceQueue (t : Byte) (k : Option CarId) (b : List Byte) (src : Byte) : (c.record t k b src).traceQueue = c.traceQueue := by
  unfold Chip.record; split <;> rfl
@[simp] theorem Chip.record_captures (t : Byte) (k : Option CarId) (b : List Byte) (src : Byte) : (c.record t k b src).captures = c.captures := by
  unfold Chip.record; split <;> rfl
@[simp] theorem Chip.record_blocks (t : Byte) (k : Option CarId) (b : List Byte) (src : Byte) : (c.record t k b src).blocks = c.blocks := by
  unfold Chip.record; split <;> rfl
@[simp] theorem Chip.record_sine (t : Byte) (k : Option CarId) (b : List Byte) (src : Byte) : (c.record t k b src).sine = c.sine := by
  unfold Chip.record; split <;> rfl
@[simp] theorem Chip.record_sineNext (t : Byte) (k : Option CarId) (b : List Byte) (src : Byte) : (c.record t k b src).sineNext = c.sineNext := by
  unfold Chip.record; split <;> rfl
@[simp] theorem Chip.record_free (t : Byte) (k : Option CarId) (b : List Byte) (src : Byte) : (c.record t k b src).free = c.free := by
  unfold Chip.record; split <;> rfl
@[simp] theorem Chip.record_nextCredit (t : Byte) (k : Option CarId) (b : List Byte) (src : Byte) : (c.record t k b src).nextCredit = c.nextCredit := by
  unfold Chip.record; split <;> rfl
@[simp] theorem Chip.record_stage (t : Byte) (k : Option CarId) (b : List Byte) (src : Byte) : (c.record t k b src).stage = c.stage := by
  unfold Chip.record; split <;> rfl
@[simp] theorem Chip.record_flaws (t : Byte) (k : Option CarId) (b : List Byte) (src : Byte) : (c.record t k b src).flaws = c.flaws := by
  unfold Chip.record; split <;> rfl
@[simp] theorem Chip.record_inputs (t : Byte) (k : Option CarId) (b : List Byte) (src : Byte) : (c.record t k b src).inputs = c.inputs := by
  unfold Chip.record; split <;> rfl
@[simp] theorem Chip.record_ramLog (t : Byte) (k : Option CarId) (b : List Byte) (src : Byte) : (c.record t k b src).ramLog = c.ramLog := by
  unfold Chip.record; split <;> rfl
@[simp] theorem Chip.record_turn (t : Byte) (k : Option CarId) (b : List Byte) (src : Byte) : (c.record t k b src).turn = c.turn := by
  unfold Chip.record; split <;> rfl

/-! ### axisCmd -/

@[simp] theorem Chip.axisCmd_dev (a : AxisId) (m : AxisCmd) : (c.axisCmd a m).dev = c.dev := rfl
@[simp] theorem Chip.axisCmd_pwr (a : AxisId) (m : AxisCmd) : (c.axisCmd a m).pwr = c.pwr := rfl
@[simp] theorem Chip.axisCmd_lnk (a : AxisId) (m : AxisCmd) : (c.axisCmd a m).lnk = c.lnk := rfl
@[simp] theorem Chip.axisCmd_sec (a : AxisId) (m : AxisCmd) : (c.axisCmd a m).sec = c.sec := rfl
@[simp] theorem Chip.axisCmd_sps (a : AxisId) (m : AxisCmd) : (c.axisCmd a m).sps = c.sps := rfl
@[simp] theorem Chip.axisCmd_threads (a : AxisId) (m : AxisCmd) : (c.axisCmd a m).threads = c.threads := rfl
@[simp] theorem Chip.axisCmd_cars (a : AxisId) (m : AxisCmd) : (c.axisCmd a m).cars = c.cars := rfl
@[simp] theorem Chip.axisCmd_doors (a : AxisId) (m : AxisCmd) : (c.axisCmd a m).doors = c.doors := rfl
@[simp] theorem Chip.axisCmd_taps (a : AxisId) (m : AxisCmd) : (c.axisCmd a m).taps = c.taps := rfl
@[simp] theorem Chip.axisCmd_fbks (a : AxisId) (m : AxisCmd) : (c.axisCmd a m).fbks = c.fbks := rfl
@[simp] theorem Chip.axisCmd_loops (a : AxisId) (m : AxisCmd) : (c.axisCmd a m).loops = c.loops := rfl
@[simp] theorem Chip.axisCmd_fes (a : AxisId) (m : AxisCmd) : (c.axisCmd a m).fes = c.fes := rfl
@[simp] theorem Chip.axisCmd_cals (a : AxisId) (m : AxisCmd) : (c.axisCmd a m).cals = c.cals := rfl
@[simp] theorem Chip.axisCmd_scan (a : AxisId) (m : AxisCmd) : (c.axisCmd a m).scan = c.scan := rfl
@[simp] theorem Chip.axisCmd_traceQueue (a : AxisId) (m : AxisCmd) : (c.axisCmd a m).traceQueue = c.traceQueue := rfl
@[simp] theorem Chip.axisCmd_captures (a : AxisId) (m : AxisCmd) : (c.axisCmd a m).captures = c.captures := rfl
@[simp] theorem Chip.axisCmd_blocks (a : AxisId) (m : AxisCmd) : (c.axisCmd a m).blocks = c.blocks := rfl
@[simp] theorem Chip.axisCmd_sine (a : AxisId) (m : AxisCmd) : (c.axisCmd a m).sine = c.sine := rfl
@[simp] theorem Chip.axisCmd_sineNext (a : AxisId) (m : AxisCmd) : (c.axisCmd a m).sineNext = c.sineNext := rfl
@[simp] theorem Chip.axisCmd_journal (a : AxisId) (m : AxisCmd) : (c.axisCmd a m).journal = c.journal := rfl
@[simp] theorem Chip.axisCmd_free (a : AxisId) (m : AxisCmd) : (c.axisCmd a m).free = c.free := rfl
@[simp] theorem Chip.axisCmd_nextCredit (a : AxisId) (m : AxisCmd) : (c.axisCmd a m).nextCredit = c.nextCredit := rfl
@[simp] theorem Chip.axisCmd_stage (a : AxisId) (m : AxisCmd) : (c.axisCmd a m).stage = c.stage := rfl
@[simp] theorem Chip.axisCmd_flaws (a : AxisId) (m : AxisCmd) : (c.axisCmd a m).flaws = c.flaws := rfl
@[simp] theorem Chip.axisCmd_inputs (a : AxisId) (m : AxisCmd) : (c.axisCmd a m).inputs = c.inputs := rfl
@[simp] theorem Chip.axisCmd_ramLog (a : AxisId) (m : AxisCmd) : (c.axisCmd a m).ramLog = c.ramLog := rfl
@[simp] theorem Chip.axisCmd_turn (a : AxisId) (m : AxisCmd) : (c.axisCmd a m).turn = c.turn := rfl

/-! ### setService -/

@[simp] theorem Chip.setService_dev (k : CarId) (dest : Service) : (c.setService k dest).dev = c.dev := by
  unfold Chip.setService; dsimp only; split
  · rfl
  · split <;> rfl
@[simp] theorem Chip.setService_pwr (k : CarId) (dest : Service) : (c.setService k dest).pwr = c.pwr := by
  unfold Chip.setService; dsimp only; split
  · rfl
  · split <;> rfl
@[simp] theorem Chip.setService_lnk (k : CarId) (dest : Service) : (c.setService k dest).lnk = c.lnk := by
  unfold Chip.setService; dsimp only; split
  · rfl
  · split <;> rfl
@[simp] theorem Chip.setService_sec (k : CarId) (dest : Service) : (c.setService k dest).sec = c.sec := by
  unfold Chip.setService; dsimp only; split
  · rfl
  · split <;> rfl
@[simp] theorem Chip.setService_sps (k : CarId) (dest : Service) : (c.setService k dest).sps = c.sps := by
  unfold Chip.setService; dsimp only; split
  · rfl
  · split <;> rfl
@[simp] theorem Chip.setService_doors (k : CarId) (dest : Service) : (c.setService k dest).doors = c.doors := by
  unfold Chip.setService; dsimp only; split
  · rfl
  · split <;> rfl
@[simp] theorem Chip.setService_taps (k : CarId) (dest : Service) : (c.setService k dest).taps = c.taps := by
  unfold Chip.setService; dsimp only; split
  · rfl
  · split <;> rfl
@[simp] theorem Chip.setService_axes (k : CarId) (dest : Service) : (c.setService k dest).axes = c.axes := by
  unfold Chip.setService; dsimp only; split
  · rfl
  · split <;> rfl
@[simp] theorem Chip.setService_fbks (k : CarId) (dest : Service) : (c.setService k dest).fbks = c.fbks := by
  unfold Chip.setService; dsimp only; split
  · rfl
  · split <;> rfl
@[simp] theorem Chip.setService_loops (k : CarId) (dest : Service) : (c.setService k dest).loops = c.loops := by
  unfold Chip.setService; dsimp only; split
  · rfl
  · split <;> rfl
@[simp] theorem Chip.setService_fes (k : CarId) (dest : Service) : (c.setService k dest).fes = c.fes := by
  unfold Chip.setService; dsimp only; split
  · rfl
  · split <;> rfl
@[simp] theorem Chip.setService_cals (k : CarId) (dest : Service) : (c.setService k dest).cals = c.cals := by
  unfold Chip.setService; dsimp only; split
  · rfl
  · split <;> rfl
@[simp] theorem Chip.setService_scan (k : CarId) (dest : Service) : (c.setService k dest).scan = c.scan := by
  unfold Chip.setService; dsimp only; split
  · rfl
  · split <;> rfl
@[simp] theorem Chip.setService_traceQueue (k : CarId) (dest : Service) : (c.setService k dest).traceQueue = c.traceQueue := by
  unfold Chip.setService; dsimp only; split
  · rfl
  · split <;> rfl
@[simp] theorem Chip.setService_captures (k : CarId) (dest : Service) : (c.setService k dest).captures = c.captures := by
  unfold Chip.setService; dsimp only; split
  · rfl
  · split <;> rfl
@[simp] theorem Chip.setService_blocks (k : CarId) (dest : Service) : (c.setService k dest).blocks = c.blocks := by
  unfold Chip.setService; dsimp only; split
  · rfl
  · split <;> rfl
@[simp] theorem Chip.setService_sine (k : CarId) (dest : Service) : (c.setService k dest).sine = c.sine := by
  unfold Chip.setService; dsimp only; split
  · rfl
  · split <;> rfl
@[simp] theorem Chip.setService_sineNext (k : CarId) (dest : Service) : (c.setService k dest).sineNext = c.sineNext := by
  unfold Chip.setService; dsimp only; split
  · rfl
  · split <;> rfl
@[simp] theorem Chip.setService_journal (k : CarId) (dest : Service) : (c.setService k dest).journal = c.journal := by
  unfold Chip.setService; dsimp only; split
  · rfl
  · split <;> rfl
@[simp] theorem Chip.setService_free (k : CarId) (dest : Service) : (c.setService k dest).free = c.free := by
  unfold Chip.setService; dsimp only; split
  · rfl
  · split <;> rfl
@[simp] theorem Chip.setService_nextCredit (k : CarId) (dest : Service) : (c.setService k dest).nextCredit = c.nextCredit := by
  unfold Chip.setService; dsimp only; split
  · rfl
  · split <;> rfl
@[simp] theorem Chip.setService_stage (k : CarId) (dest : Service) : (c.setService k dest).stage = c.stage := by
  unfold Chip.setService; dsimp only; split
  · rfl
  · split <;> rfl
@[simp] theorem Chip.setService_flaws (k : CarId) (dest : Service) : (c.setService k dest).flaws = c.flaws := by
  unfold Chip.setService; dsimp only; split
  · rfl
  · split <;> rfl
@[simp] theorem Chip.setService_inputs (k : CarId) (dest : Service) : (c.setService k dest).inputs = c.inputs := by
  unfold Chip.setService; dsimp only; split
  · rfl
  · split <;> rfl
@[simp] theorem Chip.setService_ramLog (k : CarId) (dest : Service) : (c.setService k dest).ramLog = c.ramLog := by
  unfold Chip.setService; dsimp only; split
  · rfl
  · split <;> rfl
@[simp] theorem Chip.setService_turn (k : CarId) (dest : Service) : (c.setService k dest).turn = c.turn := by
  unfold Chip.setService; dsimp only; split
  · rfl
  · split <;> rfl

@[simp] theorem Chip.axisCmd_axes (a : AxisId) (m : AxisCmd) :
    (c.axisCmd a m).axes = upd c.axes a fun x => { x with cmds := x.cmds ++ [m] } := rfl
@[simp] theorem Chip.enqueueRecord_queue (t src fl : Byte) (b : List Byte) (cr : Option Nat) (p : Option ThreadId) :
    (c.enqueueRecord t src fl b cr p).journal.queue = c.journal.queue ++ [⟨c.journal.nextId, t, src, fl, b, cr, p⟩] := rfl
@[simp] theorem Chip.release_sessions (r : Option Nat) : (c.release r).sec.sessions = c.sec.sessions := by cases r <;> rfl
@[simp] theorem Chip.takeCredit_sessions (sid : BitVec 4) (seat : BitVec 3) : (c.takeCredit sid seat).sec.sessions = c.sec.sessions := by
  unfold Chip.takeCredit; split <;> rfl

/-! ### Faults -/

/-- A service change of a car keeps everything of it but SERVICE and, on leaving IN, its stop table (R248, R254). -/
theorem Chip.setService_car (k : CarId) (dest : Service) :
    (c.setService k dest).cars[k.val] =
      if (c.cars[k.val]).service = .in_ ∧ dest ≠ .in_ then
        { c.cars[k.val] with service := dest, calls := [], present := none, arriving := none }
      else { c.cars[k.val] with service := dest } := by
  unfold Chip.setService
  dsimp only
  split
  · next h => subst h; simp
  · next h =>
    split
    · next h' => simp [h', show dest ≠ .in_ from fun e => h (h'.trans e.symm)]
    · next h' => simp [h']

theorem Chip.setService_other (k j : CarId) (dest : Service) (h : j ≠ k) : (c.setService k dest).cars[j.val] = c.cars[j.val] := by
  unfold Chip.setService
  dsimp only
  split
  · rfl
  · split <;> simp [h]

/-- A first car fault, field by field (R252). -/
theorem Chip.carFault_new (k : CarId) (code stamp : Nat) (h1 : (c.cars[k.val]).service ≠ .islandOff)
    (h2 : (c.cars[k.val]).service ≠ .stoppedFault) :
    (c.carFault k code stamp).cars = upd c.cars k (fun x =>
      { x with
        service := .stoppedFault, goto := none, faultActive := true, faultCause := BitVec.ofNat 8 code, calls := [], present := none,
        arriving := none, faultAt := some stamp, pulseOk := false }) ∧
    (c.carFault k code stamp).axes = upd c.axes (carAxis k) (fun a =>
      { a with cmds := a.cmds ++ [.purge, .stop], homed := if code ≤ 3 then false else a.homed }) ∧
    (c.carFault k code stamp).loops = upd c.loops (carLoop k) Loop.quiet := by
  unfold Chip.carFault
  simp only [h1, h2, if_false]
  have hs : ∀ c0 : Chip, (c0.cars[k.val]).service ≠ .stoppedFault →
      ((c0.setService k .stoppedFault).modCar k fun x =>
        { x with
          faultActive := true, faultCause := BitVec.ofNat 8 code, calls := [], present := none, arriving := none,
          faultAt := some stamp, pulseOk := false }).cars =
      upd c0.cars k (fun x =>
        { x with
          service := .stoppedFault, faultActive := true, faultCause := BitVec.ofNat 8 code, calls := [], present := none,
          arriving := none, faultAt := some stamp, pulseOk := false }) := by
    intro c0 h0
    unfold Chip.setService
    simp only [h0, if_false]
    split <;> simp [Chip.modCar, upd]
  refine ⟨?_, ?_, ?_⟩
  · simp only [record_cars, raiseSee_cars, axisCmd_cars, modLoop_cars]
    rw [hs]
    · by_cases h : code ≤ 3 <;> simp [h, Chip.modCar, upd]
    · by_cases h : code ≤ 3 <;> simpa [h] using h2
  · simp only [record_axes, raiseSee_axes, axisCmd_axes, modCar_axes, setService_axes, modLoop_axes]
    by_cases h : code ≤ 3 <;> simp [h, upd]
  · simp only [record_loops, raiseSee_loops, axisCmd_loops, modCar_loops, setService_loops, modLoop_loops]
    by_cases h : code ≤ 3 <;> simp [h]

/-! ### What a car fault leaves -/

/-- What the parts of a car fault leave alone, the fault leaves alone (R252). -/
theorem Chip.carFault_keeps {β : Type} (g : Chip → β) (h1 : ∀ c k f, g (Chip.modCar c k f) = g c)
    (h2 : ∀ c a f, g (Chip.modAxis c a f) = g c) (h3 : ∀ c l f, g (Chip.modLoop c l f) = g c)
    (h4 : ∀ c f, g (Chip.modJournal c f) = g c) (h5 : ∀ c k d, g (Chip.setService c k d) = g c)
    (h6 : ∀ c k b, g (Chip.raiseSee c k b) = g c) (h7 : ∀ c t k b, g (Chip.record c t k b) = g c) (k : CarId) (code stamp : Nat) :
    g (c.carFault k code stamp) = g c := by
  unfold Chip.carFault Chip.axisCmd
  dsimp only
  split
  · rfl
  · split
    · split
      · rw [h1]; split <;> simp only [h2]
      · split
        · rw [Chip.rewriteCarFault, h4, h1, h1]; split <;> simp only [h2]
        · split
          · rw [Chip.rewriteCarFault, h4, h1, h1]; split <;> simp only [h2]
          · rw [h1, h1]; split <;> simp only [h2]
    · rw [h7, h3, h6, h2, h2, h1, h5, h1]; split <;> simp only [h2]

@[simp] theorem Chip.carFault_dev (k : CarId) (code stamp : Nat) : (c.carFault k code stamp).dev = c.dev := by
  apply Chip.carFault_keeps c Chip.dev <;> simp
@[simp] theorem Chip.carFault_pwr (k : CarId) (code stamp : Nat) : (c.carFault k code stamp).pwr = c.pwr := by
  apply Chip.carFault_keeps c Chip.pwr <;> simp
@[simp] theorem Chip.carFault_lnk (k : CarId) (code stamp : Nat) : (c.carFault k code stamp).lnk = c.lnk := by
  apply Chip.carFault_keeps c Chip.lnk <;> simp
@[simp] theorem Chip.carFault_sec (k : CarId) (code stamp : Nat) : (c.carFault k code stamp).sec = c.sec := by
  apply Chip.carFault_keeps c Chip.sec <;> simp
@[simp] theorem Chip.carFault_sps (k : CarId) (code stamp : Nat) : (c.carFault k code stamp).sps = c.sps := by
  apply Chip.carFault_keeps c Chip.sps <;> simp
@[simp] theorem Chip.carFault_doors (k : CarId) (code stamp : Nat) : (c.carFault k code stamp).doors = c.doors := by
  apply Chip.carFault_keeps c Chip.doors <;> simp
@[simp] theorem Chip.carFault_taps (k : CarId) (code stamp : Nat) : (c.carFault k code stamp).taps = c.taps := by
  apply Chip.carFault_keeps c Chip.taps <;> simp
@[simp] theorem Chip.carFault_fbks (k : CarId) (code stamp : Nat) : (c.carFault k code stamp).fbks = c.fbks := by
  apply Chip.carFault_keeps c Chip.fbks <;> simp
@[simp] theorem Chip.carFault_fes (k : CarId) (code stamp : Nat) : (c.carFault k code stamp).fes = c.fes := by
  apply Chip.carFault_keeps c Chip.fes <;> simp
@[simp] theorem Chip.carFault_cals (k : CarId) (code stamp : Nat) : (c.carFault k code stamp).cals = c.cals := by
  apply Chip.carFault_keeps c Chip.cals <;> simp
@[simp] theorem Chip.carFault_scan (k : CarId) (code stamp : Nat) : (c.carFault k code stamp).scan = c.scan := by
  apply Chip.carFault_keeps c Chip.scan <;> simp
@[simp] theorem Chip.carFault_traceQueue (k : CarId) (code stamp : Nat) : (c.carFault k code stamp).traceQueue = c.traceQueue := by
  apply Chip.carFault_keeps c Chip.traceQueue <;> simp
@[simp] theorem Chip.carFault_captures (k : CarId) (code stamp : Nat) : (c.carFault k code stamp).captures = c.captures := by
  apply Chip.carFault_keeps c Chip.captures <;> simp
@[simp] theorem Chip.carFault_blocks (k : CarId) (code stamp : Nat) : (c.carFault k code stamp).blocks = c.blocks := by
  apply Chip.carFault_keeps c Chip.blocks <;> simp
@[simp] theorem Chip.carFault_sine (k : CarId) (code stamp : Nat) : (c.carFault k code stamp).sine = c.sine := by
  apply Chip.carFault_keeps c Chip.sine <;> simp
@[simp] theorem Chip.carFault_sineNext (k : CarId) (code stamp : Nat) : (c.carFault k code stamp).sineNext = c.sineNext := by
  apply Chip.carFault_keeps c Chip.sineNext <;> simp
@[simp] theorem Chip.carFault_stage (k : CarId) (code stamp : Nat) : (c.carFault k code stamp).stage = c.stage := by
  apply Chip.carFault_keeps c Chip.stage <;> simp
@[simp] theorem Chip.carFault_flaws (k : CarId) (code stamp : Nat) : (c.carFault k code stamp).flaws = c.flaws := by
  apply Chip.carFault_keeps c Chip.flaws <;> simp
@[simp] theorem Chip.carFault_inputs (k : CarId) (code stamp : Nat) : (c.carFault k code stamp).inputs = c.inputs := by
  apply Chip.carFault_keeps c Chip.inputs <;> simp
@[simp] theorem Chip.carFault_ramLog (k : CarId) (code stamp : Nat) : (c.carFault k code stamp).ramLog = c.ramLog := by
  apply Chip.carFault_keeps c Chip.ramLog <;> simp
@[simp] theorem Chip.carFault_turn (k : CarId) (code stamp : Nat) : (c.carFault k code stamp).turn = c.turn := by
  apply Chip.carFault_keeps c Chip.turn <;> simp
@[simp] theorem Chip.carFault_free (k : CarId) (code stamp : Nat) : (c.carFault k code stamp).free = c.free := by
  apply Chip.carFault_keeps c Chip.free <;> simp
@[simp] theorem Chip.carFault_nextCredit (k : CarId) (code stamp : Nat) : (c.carFault k code stamp).nextCredit = c.nextCredit := by
  apply Chip.carFault_keeps c Chip.nextCredit <;> simp

/-! ### What a door fault leaves -/

/-- What the parts of a door fault leave alone, the fault leaves alone (R291). -/
theorem Chip.doorFaultOne_keeps {β : Type} (g : Chip → β) (h1 : ∀ c d f, g (Chip.modDoor c d f) = g c)
    (h2 : ∀ c a f, g (Chip.modAxis c a f) = g c) (h3 : ∀ c l f, g (Chip.modLoop c l f) = g c)
    (h4 : ∀ c k b, g (Chip.raiseSee c k b) = g c) (h5 : ∀ c t k b, g (Chip.record c t k b) = g c)
    (h6 : ∀ c f, g (Chip.modJournal c f) = g c) (d : DoorId) (code stamp : Nat) :
    g (c.doorFaultOne d code stamp) = g c := by
  have hq : g (c.quietDoor d) = g c := by
    have : c.quietDoor d = ((c.modLoop (doorLoop d 0) Loop.quiet).modLoop (doorLoop d 1) Loop.quiet).modLoop (doorLoop d 2) Loop.quiet :=
      rfl
    rw [this, h3, h3, h3]
  unfold Chip.doorFaultOne Chip.axisCmd
  dsimp only
  split
  · rfl
  · split
    · split
      · rfl
      · split
        · rw [Chip.rewriteDoorFault, h6, h1]
        · rw [h1]
    · rw [h5, h4, h2, h1, hq]

/-- The same of a fault with its coupled door (R292). -/
theorem Chip.doorFault_keeps {β : Type} (g : Chip → β) (h : ∀ c d code stamp, g (Chip.doorFaultOne c d code stamp) = g c) (d : DoorId) (code stamp : Nat) :
    g (c.doorFault d code stamp) = g c := by
  unfold Chip.doorFault
  dsimp only
  split <;> simp only [h]

@[simp] theorem Chip.doorFaultOne_dev (d : DoorId) (code stamp : Nat) : (c.doorFaultOne d code stamp).dev = c.dev := by
  apply Chip.doorFaultOne_keeps c Chip.dev <;> simp
@[simp] theorem Chip.doorFault_dev (d : DoorId) (code stamp : Nat) : (c.doorFault d code stamp).dev = c.dev := by
  apply Chip.doorFault_keeps c Chip.dev; simp
@[simp] theorem Chip.doorFaultOne_pwr (d : DoorId) (code stamp : Nat) : (c.doorFaultOne d code stamp).pwr = c.pwr := by
  apply Chip.doorFaultOne_keeps c Chip.pwr <;> simp
@[simp] theorem Chip.doorFault_pwr (d : DoorId) (code stamp : Nat) : (c.doorFault d code stamp).pwr = c.pwr := by
  apply Chip.doorFault_keeps c Chip.pwr; simp
@[simp] theorem Chip.doorFaultOne_lnk (d : DoorId) (code stamp : Nat) : (c.doorFaultOne d code stamp).lnk = c.lnk := by
  apply Chip.doorFaultOne_keeps c Chip.lnk <;> simp
@[simp] theorem Chip.doorFault_lnk (d : DoorId) (code stamp : Nat) : (c.doorFault d code stamp).lnk = c.lnk := by
  apply Chip.doorFault_keeps c Chip.lnk; simp
@[simp] theorem Chip.doorFaultOne_sec (d : DoorId) (code stamp : Nat) : (c.doorFaultOne d code stamp).sec = c.sec := by
  apply Chip.doorFaultOne_keeps c Chip.sec <;> simp
@[simp] theorem Chip.doorFault_sec (d : DoorId) (code stamp : Nat) : (c.doorFault d code stamp).sec = c.sec := by
  apply Chip.doorFault_keeps c Chip.sec; simp
@[simp] theorem Chip.doorFaultOne_sps (d : DoorId) (code stamp : Nat) : (c.doorFaultOne d code stamp).sps = c.sps := by
  apply Chip.doorFaultOne_keeps c Chip.sps <;> simp
@[simp] theorem Chip.doorFault_sps (d : DoorId) (code stamp : Nat) : (c.doorFault d code stamp).sps = c.sps := by
  apply Chip.doorFault_keeps c Chip.sps; simp
@[simp] theorem Chip.doorFaultOne_cars (d : DoorId) (code stamp : Nat) : (c.doorFaultOne d code stamp).cars = c.cars := by
  apply Chip.doorFaultOne_keeps c Chip.cars <;> simp
@[simp] theorem Chip.doorFault_cars (d : DoorId) (code stamp : Nat) : (c.doorFault d code stamp).cars = c.cars := by
  apply Chip.doorFault_keeps c Chip.cars; simp
@[simp] theorem Chip.doorFaultOne_taps (d : DoorId) (code stamp : Nat) : (c.doorFaultOne d code stamp).taps = c.taps := by
  apply Chip.doorFaultOne_keeps c Chip.taps <;> simp
@[simp] theorem Chip.doorFault_taps (d : DoorId) (code stamp : Nat) : (c.doorFault d code stamp).taps = c.taps := by
  apply Chip.doorFault_keeps c Chip.taps; simp
@[simp] theorem Chip.doorFaultOne_fbks (d : DoorId) (code stamp : Nat) : (c.doorFaultOne d code stamp).fbks = c.fbks := by
  apply Chip.doorFaultOne_keeps c Chip.fbks <;> simp
@[simp] theorem Chip.doorFault_fbks (d : DoorId) (code stamp : Nat) : (c.doorFault d code stamp).fbks = c.fbks := by
  apply Chip.doorFault_keeps c Chip.fbks; simp
@[simp] theorem Chip.doorFaultOne_fes (d : DoorId) (code stamp : Nat) : (c.doorFaultOne d code stamp).fes = c.fes := by
  apply Chip.doorFaultOne_keeps c Chip.fes <;> simp
@[simp] theorem Chip.doorFault_fes (d : DoorId) (code stamp : Nat) : (c.doorFault d code stamp).fes = c.fes := by
  apply Chip.doorFault_keeps c Chip.fes; simp
@[simp] theorem Chip.doorFaultOne_cals (d : DoorId) (code stamp : Nat) : (c.doorFaultOne d code stamp).cals = c.cals := by
  apply Chip.doorFaultOne_keeps c Chip.cals <;> simp
@[simp] theorem Chip.doorFault_cals (d : DoorId) (code stamp : Nat) : (c.doorFault d code stamp).cals = c.cals := by
  apply Chip.doorFault_keeps c Chip.cals; simp
@[simp] theorem Chip.doorFaultOne_scan (d : DoorId) (code stamp : Nat) : (c.doorFaultOne d code stamp).scan = c.scan := by
  apply Chip.doorFaultOne_keeps c Chip.scan <;> simp
@[simp] theorem Chip.doorFault_scan (d : DoorId) (code stamp : Nat) : (c.doorFault d code stamp).scan = c.scan := by
  apply Chip.doorFault_keeps c Chip.scan; simp
@[simp] theorem Chip.doorFaultOne_traceQueue (d : DoorId) (code stamp : Nat) : (c.doorFaultOne d code stamp).traceQueue = c.traceQueue := by
  apply Chip.doorFaultOne_keeps c Chip.traceQueue <;> simp
@[simp] theorem Chip.doorFault_traceQueue (d : DoorId) (code stamp : Nat) : (c.doorFault d code stamp).traceQueue = c.traceQueue := by
  apply Chip.doorFault_keeps c Chip.traceQueue; simp
@[simp] theorem Chip.doorFaultOne_captures (d : DoorId) (code stamp : Nat) : (c.doorFaultOne d code stamp).captures = c.captures := by
  apply Chip.doorFaultOne_keeps c Chip.captures <;> simp
@[simp] theorem Chip.doorFault_captures (d : DoorId) (code stamp : Nat) : (c.doorFault d code stamp).captures = c.captures := by
  apply Chip.doorFault_keeps c Chip.captures; simp
@[simp] theorem Chip.doorFaultOne_blocks (d : DoorId) (code stamp : Nat) : (c.doorFaultOne d code stamp).blocks = c.blocks := by
  apply Chip.doorFaultOne_keeps c Chip.blocks <;> simp
@[simp] theorem Chip.doorFault_blocks (d : DoorId) (code stamp : Nat) : (c.doorFault d code stamp).blocks = c.blocks := by
  apply Chip.doorFault_keeps c Chip.blocks; simp
@[simp] theorem Chip.doorFaultOne_sine (d : DoorId) (code stamp : Nat) : (c.doorFaultOne d code stamp).sine = c.sine := by
  apply Chip.doorFaultOne_keeps c Chip.sine <;> simp
@[simp] theorem Chip.doorFault_sine (d : DoorId) (code stamp : Nat) : (c.doorFault d code stamp).sine = c.sine := by
  apply Chip.doorFault_keeps c Chip.sine; simp
@[simp] theorem Chip.doorFaultOne_sineNext (d : DoorId) (code stamp : Nat) : (c.doorFaultOne d code stamp).sineNext = c.sineNext := by
  apply Chip.doorFaultOne_keeps c Chip.sineNext <;> simp
@[simp] theorem Chip.doorFault_sineNext (d : DoorId) (code stamp : Nat) : (c.doorFault d code stamp).sineNext = c.sineNext := by
  apply Chip.doorFault_keeps c Chip.sineNext; simp
@[simp] theorem Chip.doorFaultOne_stage (d : DoorId) (code stamp : Nat) : (c.doorFaultOne d code stamp).stage = c.stage := by
  apply Chip.doorFaultOne_keeps c Chip.stage <;> simp
@[simp] theorem Chip.doorFault_stage (d : DoorId) (code stamp : Nat) : (c.doorFault d code stamp).stage = c.stage := by
  apply Chip.doorFault_keeps c Chip.stage; simp
@[simp] theorem Chip.doorFaultOne_flaws (d : DoorId) (code stamp : Nat) : (c.doorFaultOne d code stamp).flaws = c.flaws := by
  apply Chip.doorFaultOne_keeps c Chip.flaws <;> simp
@[simp] theorem Chip.doorFault_flaws (d : DoorId) (code stamp : Nat) : (c.doorFault d code stamp).flaws = c.flaws := by
  apply Chip.doorFault_keeps c Chip.flaws; simp
@[simp] theorem Chip.doorFaultOne_inputs (d : DoorId) (code stamp : Nat) : (c.doorFaultOne d code stamp).inputs = c.inputs := by
  apply Chip.doorFaultOne_keeps c Chip.inputs <;> simp
@[simp] theorem Chip.doorFault_inputs (d : DoorId) (code stamp : Nat) : (c.doorFault d code stamp).inputs = c.inputs := by
  apply Chip.doorFault_keeps c Chip.inputs; simp
@[simp] theorem Chip.doorFaultOne_ramLog (d : DoorId) (code stamp : Nat) : (c.doorFaultOne d code stamp).ramLog = c.ramLog := by
  apply Chip.doorFaultOne_keeps c Chip.ramLog <;> simp
@[simp] theorem Chip.doorFault_ramLog (d : DoorId) (code stamp : Nat) : (c.doorFault d code stamp).ramLog = c.ramLog := by
  apply Chip.doorFault_keeps c Chip.ramLog; simp
@[simp] theorem Chip.doorFaultOne_turn (d : DoorId) (code stamp : Nat) : (c.doorFaultOne d code stamp).turn = c.turn := by
  apply Chip.doorFaultOne_keeps c Chip.turn <;> simp
@[simp] theorem Chip.doorFault_turn (d : DoorId) (code stamp : Nat) : (c.doorFault d code stamp).turn = c.turn := by
  apply Chip.doorFault_keeps c Chip.turn; simp
@[simp] theorem Chip.doorFaultOne_free (d : DoorId) (code stamp : Nat) : (c.doorFaultOne d code stamp).free = c.free := by
  apply Chip.doorFaultOne_keeps c Chip.free <;> simp
@[simp] theorem Chip.doorFault_free (d : DoorId) (code stamp : Nat) : (c.doorFault d code stamp).free = c.free := by
  apply Chip.doorFault_keeps c Chip.free; simp
@[simp] theorem Chip.doorFaultOne_nextCredit (d : DoorId) (code stamp : Nat) : (c.doorFaultOne d code stamp).nextCredit = c.nextCredit := by
  apply Chip.doorFaultOne_keeps c Chip.nextCredit <;> simp
@[simp] theorem Chip.doorFault_nextCredit (d : DoorId) (code stamp : Nat) : (c.doorFault d code stamp).nextCredit = c.nextCredit := by
  apply Chip.doorFault_keeps c Chip.nextCredit; simp

/-- A first fault of a door in use, field by field (R291). -/
theorem Chip.doorFaultOne_new (d : DoorId) (code stamp : Nat) (h1 : (c.doors[d.val]).inUse = true)
    (h2 : (c.cars[(carOfDoor d).val]).on = true) (h3 : (c.doors[d.val]).st ≠ .fault) :
    (c.doorFaultOne d code stamp).doors = upd c.doors d (fun x =>
      { x.gatesLow with
        st := .fault, faultActive := true, faultCause := BitVec.ofNat 8 code, faultAt := some stamp, learn := none,
        learnResult := if x.learn.isSome then 5 else x.learnResult }) ∧
    (c.doorFaultOne d code stamp).axes = upd c.axes (doorAxis d) (fun a => { a with cmds := a.cmds ++ [.purge] }) := by
  have h : (c.quietDoor d).doors = c.doors ∧ (c.quietDoor d).axes = c.axes := ⟨rfl, rfl⟩
  unfold Chip.doorFaultOne
  simp [h1, h2, h3, h]

end Sys2Proof.Machine
end

