-- ==== Sys2Proof/Machine/Package.lean ====
section
/-! DEFINITION. The package: the ball that each signal, supply and ground takes (R364 to R368). Nothing of it changes while the device
runs. -/

namespace Sys2Proof.Machine

/-- The supplies and the ground (Table 19-7). -/
inductive Net where
  | vss | vio | vana | vlnk | vnv | vcore
  deriving DecidableEq, Repr

/-- The pins of a car's enables, their readbacks and its drive port. -/
inductive CarPin where
  | drvEn | drvRb | brkEn | brkRb | doorEn | doorRb | dpP | dpN
  deriving DecidableEq, Repr

/-- The pins of a feedback interface. -/
inductive FbkPin where
  | a | b | z | qa | qb | ssiCk | ssiDt | sw0 | sw1 | sw2
  deriving DecidableEq, Repr

/-- The pins of a door operator. -/
inductive DoorPin where
  | uh | ul | vh | vl | wh | wl | iu | iv | ha | hb | hc
  deriving DecidableEq, Repr

/-- The pins of a front-end channel. -/
inductive FePin where
  | exp | exn | snp | snn | inP | inN | ix
  deriving DecidableEq, Repr

/-- The common signals (Table 19-5). -/
inductive CommonPin where
  | sckP | sckN | dn0P | dn0N | dn1P | dn1N | up0P | up0N | up1P | up1N
  | dropSel0 | dropSel1 | rstN | devOk | safePulse | safePulseRb
  | avsVid0 | avsVid1 | avsVid2 | avsVid3 | avsVid4 | avsVid5
  | tck | tms | tdi | tdo | trstN | tdP | tdN | refcap0P | refcap0N | refcap1P | refcap1N
  deriving DecidableEq, Repr

/-- What a ball is (R365). -/
inductive BallUse where
  | net (n : Net)
  | common (p : CommonPin)
  | tap (s : TapId)
  | car (k : CarId) (p : CarPin)
  | fbk (i : FbkId) (p : FbkPin)
  | door (d : DoorId) (p : DoorPin)
  | fe (x : FeId) (p : FePin)
  deriving DecidableEq, Repr

/-- The row letters, index 1 first (Table 19-1). -/
def rowLetters : List String :=
  ["A", "B", "C", "D", "E", "F", "G", "H", "J", "K", "L", "M", "N", "P", "T", "U", "V", "W", "Y",
    "AA", "AB", "AC", "AD", "AE", "AF", "AG", "AH", "AJ", "AK", "AL", "AM", "AN", "AP", "AT"]

/-- The row and column of ball (d, l) of a car's block (Table 19-3). -/
def carBall (k : CarId) (d l : Nat) : Nat × Nat :=
  let n := k.val
  if n ≤ 3 then (d, 8 * n + 2 + l)
  else if n ≤ 5 then (8 * n + l - 23, 35 - d)
  else if n ≤ 9 then (35 - d, 81 - 8 * n - l)
  else (106 - 8 * n - l, d)

/-- The car, depth and lateral position of a ball of the car blocks (Tables 19-2, 19-3). -/
def carPlace (i j : Nat) : Option (CarId × Nat × Nat) :=
  if i ≤ 9 ∧ 3 ≤ j then (fin? 12 ((j - 3) / 8)).map fun k => (k, i, (j - 3) % 8 + 1)
  else if 10 ≤ i ∧ i ≤ 25 ∧ 26 ≤ j then (fin? 12 (4 + (i - 10) / 8)).map fun k => (k, 35 - j, (i - 10) % 8 + 1)
  else if 26 ≤ i ∧ j ≤ 32 then (fin? 12 (6 + (32 - j) / 8)).map fun k => (k, 35 - i, (32 - j) % 8 + 1)
  else if 10 ≤ i ∧ i ≤ 25 ∧ j ≤ 9 then (fin? 12 (10 + (25 - i) / 8)).map fun k => (k, j, (25 - i) % 8 + 1)
  else none

/-- A row of a car's block (Table 19-4). -/
def blockRow (k : CarId) : Nat → List BallUse
  | 1 => (List.finRange 8).map fun l => .tap ⟨8 * k.val + l.val, by omega⟩
  | 2 => [.car k .drvEn, .car k .drvRb, .car k .brkEn, .car k .brkRb, .car k .doorEn, .car k .doorRb, .car k .dpP, .car k .dpN]
  | 3 =>
    let e : FbkId := ⟨2 * k.val, by omega⟩
    let h : FbkId := ⟨2 * k.val + 1, by omega⟩
    [.fbk e .a, .fbk e .b, .fbk e .z, .fbk e .qa, .fbk e .qb, .fbk h .ssiCk, .fbk h .ssiDt, .fbk h .sw0]
  | 4 =>
    let h : FbkId := ⟨2 * k.val + 1, by omega⟩
    [.fbk h .sw1, .fbk h .sw2, .net .vio, .net .vss, .net .vio, .net .vss, .net .vio, .net .vss]
  | 5 =>
    let f := frontDoor k
    [.door f .uh, .door f .ul, .door f .vh, .door f .vl, .door f .wh, .door f .wl, .door f .iu, .door f .iv]
  | 6 =>
    let f := frontDoor k
    let r := rearDoor k
    [.door f .ha, .door f .hb, .door f .hc, .door r .ha, .door r .hb, .door r .hc, .door r .iu, .door r .iv]
  | 7 =>
    let r := rearDoor k
    [.door r .uh, .door r .ul, .door r .vh, .door r .vl, .door r .wh, .door r .wl, .net .vio, .net .vss]
  | 8 =>
    let x := carFe k 0
    let y := carFe k 1
    [.fe x .exp, .fe x .exn, .fe x .snp, .fe x .snn, .fe x .inP, .fe x .inN, .fe y .inP, .fe y .inN]
  | 9 =>
    let y := carFe k 2
    let z := carFe k 3
    [.fe (carFe k 1) .ix, .fe y .inP, .fe y .inN, .fe y .ix, .fe z .inP, .fe z .inN, .fe z .ix, .net .vana]
  | _ => []

/-- The top-left common corner, row by row (Table 19-5). -/
def topCorner : List BallUse :=
  [.common .sckP, .common .sckN, .common .dn0P, .common .dn0N, .common .dn1P, .common .dn1N, .net .vss, .net .vlnk,
    .common .up0P, .common .up0N, .common .up1P, .common .up1N, .common .dropSel0, .common .dropSel1, .common .rstN, .common .devOk,
    .common .safePulse, .common .safePulseRb]

/-- The bottom-right common corner, row by row (Table 19-5). -/
def bottomCorner : List BallUse :=
  [.common .avsVid0, .common .avsVid1, .common .avsVid2, .common .avsVid3, .common .avsVid4, .common .avsVid5, .common .tck, .common .tms,
    .common .tdi, .common .tdo, .common .trstN, .net .vss, .common .tdP, .common .tdN, .common .refcap0P, .common .refcap0N,
    .common .refcap1P, .common .refcap1N]

/-- A ball of the centre (Table 19-6). -/
def centreBall (i j : Nat) : Net :=
  if (i + j) % 2 = 0 then .vss
  else if i = 10 then .vlnk
  else if i = 25 then .vio
  else if j = 10 ∨ j = 25 then .vana
  else if i = 17 ∨ i = 18 then .vnv
  else .vcore

/-- What the ball in row i and column j is, both from 1 to 34 (R365, Table 19-2). -/
def ballUse (i j : Nat) : Option BallUse :=
  if i = 0 ∨ j = 0 ∨ 34 < i ∨ 34 < j then none
  else if 10 ≤ i ∧ i ≤ 25 ∧ 10 ≤ j ∧ j ≤ 25 then some (.net (centreBall i j))
  else match carPlace i j with
    | some (k, d, l) => (blockRow k d)[l - 1]?
    | none => if i ≤ 9 then topCorner[2 * (i - 1) + (j - 1)]? else bottomCorner[2 * (i - 26) + (j - 33)]?

end Sys2Proof.Machine
end

