-- ==== Sys2Proof/Tests/Slice0.lean ====
section
/-! SUPPORT. Tests: ill-formed commands that WellFormed refuses, results taken from the spec's own tables and examples, and for each
statement with hypotheses a state and operands that meet them. -/

namespace Sys2Proof.Tests

open Sys2Proof Sys2Proof.Machine

set_option Elab.async false

/-! ### Small states -/

/-- The state after reset with another device. -/
def st (c : Chip) : State := { State.reset with chip := c }

/-- RUN with the link up at tick 5,000, every island off. -/
def runChip : Chip :=
  (State.reset.chip.modDev fun d => { d with state := .run, tick := 5000, phase := 7, steps := 0x1F }).modLnk fun l => { l with ticklen := 6250 }

/-- W0 to W15 of the test thread. -/
def regs : Vector Word 16 := #v[0, 5, 0xFFFFFFFD, 0x80000000, 0x7FFFFFFF, 0xA010, 0x21, 0x40000000, 1, 2, 3, 4, 5, 6, 7, 8]

/-- Thread 0 READY with 200 cycles, acting on and seeing car 0, whose islands are on. -/
def ready0 (c : Chip) : Chip :=
  (c.modThread 0 fun x =>
    { x with
      st := .ready, slotLeft := 200, budget := 200, budgetAct := 200, pc := 300, actMaskAct := 1, seeMaskAct := 1, w := regs,
      acc := 7 }).modCar 0 fun x => { x with power := .on }
/-- The same in the thread window, its slot open. -/
def thread0 (c : Chip) : Chip := (ready0 c).enter .thread

/-- Thread 0 alone. -/
def s0 : State := st (thread0 runChip)

/-! ### Witnesses: threads -/

theorem witness_AluResultsAndFlags : SlotFits 0 1 s0 ∧ operandBIllegal ⟨1, 2, 0, 3⟩ = false := by unfold SlotFits; decide +kernel
theorem witness_MultiplyResults : SlotFits 0 2 s0 ∧ operandBIllegal ⟨1, 0, 1, 0xFFFF⟩ = false := by unfold SlotFits; decide +kernel
theorem witness_CompareAndLoadImmediate :
    SlotFits 0 1 s0 ∧ operandBIllegal ⟨0, 2, 0, 3⟩ = false ∧ (⟨1, 0, 3, 0x8000⟩ : Enc).m ≠ 0 := by unfold SlotFits; decide +kernel
theorem witness_IllegalEncodings :
    SlotFits 0 2 s0 ∧ operandBIllegal ⟨1, 2, 0, 0x10⟩ = true ∧ (⟨15, 0, 0, 0x8000⟩ : Enc).imm.getLsbD 15 = true := by
  unfold SlotFits; decide +kernel

/-- Thread 0 with one cycle of its slot left. -/
def s1 : State := st ((thread0 runChip).modThread 0 fun x => { x with slotLeft := 1 })
theorem witness_unfitting : SlotFits 0 0 s1 ∧ (s1.chip.threads[0]).slotLeft.toNat < 2 := by unfold SlotFits; decide +kernel

/-- A packet of session 0 whose word is the reserved opcode 3Fh. -/
def illegalPacket : Packet := ⟨0, 0, 1, 1, 0, 0, 0, 0⟩
/-- The packet stands first in the section. -/
def sIllegal : State :=
  st (runChip.modLnk fun l => { l with section_ := [wirePacket illegalPacket (runChip.wireBody illegalPacket 0xFC000000)] })
theorem witness_illegalPacket :
    sIllegal.chip.lnk.section_.head? = some (wirePacket illegalPacket (sIllegal.chip.wireBody illegalPacket 0xFC000000)) ∧
    sIllegal.chip.may .host = true ∧ sIllegal.chip.dev.hostStopped = false ∧ sIllegal.chip.gate illegalPacket (sIllegal.chip.wireBody illegalPacket 0xFC000000) = .evaluate ∧
    sIllegal.chip.dev.hostCycles.toNat + 8 ≤ 256 ∧ (opOf 0xFC000000).toNat = 0x3F := by decide +kernel

/-- Thread 0 with return addresses on its stack. -/
def sStack (n : Nat) : State := st ((thread0 runChip).modThread 0 fun x => { x with stack := List.replicate n 400 })
theorem witness_BranchesCallsAndAsserts :
    SlotFits 0 2 (sStack 7) ∧ ((sStack 7).chip.threads[0]).stack.length < 8 ∧ ((sStack 1).chip.threads[0]).stack = [400] ∧
    SlotFits 0 2 (sStack 8) ∧ 8 ≤ ((sStack 8).chip.threads[0]).stack.length ∧
    condHolds ((sStack 8).chip.threads[0]).flags 0 = true ∧ condHolds ((sStack 0).chip.threads[0]).flags 1 = false ∧
    ((sStack 0).chip.threads[0]).stack = [] := by unfold SlotFits; decide +kernel

/-- Thread 0 with event 1 pending. -/
def sEvent : State := st ((thread0 runChip).modThread 0 fun x => { x with pend := 2 })
theorem witness_YieldAndWait :
    SlotFits 0 2 sEvent ∧ (sEvent.chip.threads[0]).pend &&& (2 &&& 0xFFFE) ≠ 0 ∧ (s0.chip.threads[0]).pend &&& (2 &&& 0xFFFE) = 0 ∧
    regOf (s0.chip.threads[0]).w 1 ≠ 0 := by unfold SlotFits; decide +kernel

/-- Thread 0 with an image of 300 words in the program store, whose first word is its length. -/
def imageMem : Mems := { State.reset.mem with prog := State.reset.mem.prog.writeBE 1 300 }
/-- Thread 0 with a double-bit error in a word of a memory. -/
def sFlawed (m : Fin 6) (w : Nat) : State := { s0 with chip := { s0.chip with flaws := [⟨m, w, true⟩] } }
theorem witness_flawedReads :
    let c := found (.thread 0) 2 (sFlawed 0 2)
    let d := found (.thread 0) 2 (sFlawed 1 208)
    SlotFits 0 2 (sFlawed 0 2) ∧ c.badWord 0 (fun w => decide (w = 8 / 4)) = some 2 ∧ c.badWord 0 (fun w => decide (w = 12 / 4)) = none ∧
      d.badWord 1 (fun w => decide (w = 208)) = some 208 ∧ d.badWord 1 (fun w => decide (w = 209)) = none ∧
      s0.chip.badWord 0 (fun w => decide (w = 2)) = none := by unfold SlotFits; decide +kernel
/-- Writes of the tick stand at the byte address 8: one of a cycle and a cluster. -/
def sWritten (cycle cluster : Nat) : State := { s0 with chip := { s0.chip with ramLog := [⟨8, cycle, cluster, 9⟩] } }
theorem witness_ramOrder :
    (found (.thread 0) 2 s0).cycleOf 0 2 = 1536 ∧ s0.chip.ramLog = [] ∧
      (∀ x ∈ (sWritten 1535 1).chip.ramLog, x.addr = 8 ∧ x.cycle < 1536) ∧
      (∀ x ∈ (sWritten 1536 2).chip.ramLog, x.addr = 8 ∧ (clusterOf 0).1 + 1 < x.cluster ∧ x.cycle = 1536) ∧
      (∀ x ∈ (sWritten 1537 0).chip.ramLog, x.addr = 8 ∧ 1536 < x.cycle) ∧
      ((regOf (s0.chip.threads[0]).w 1 + (3 : BitVec 16).setWidth 32).toNat = 8) := by decide +kernel
theorem witness_LoadsAndStores :
    SlotFits 0 2 s0 ∧ s0.mem.wf = true ∧ threadMayWrite 0 ((5 : Word) + 0x1FB).toNat = true ∧ threadMayWrite 0 0xC000 = false ∧
    ({ s0 with mem := imageMem } : State).mem.inImage 208 = true ∧ s0.mem.inImage 208 = false := by unfold SlotFits; decide +kernel
/-! ### Host packets -/

/-- Session 1 open for a seat, with sequence 4 its latest. -/
def keyed (seat : BitVec 3) (c : Chip) : Chip :=
  c.modSession 1 fun x => { x with isOpen := true, seat := seat, kMacDown := 11, kMacUp := 12, kEncDown := 13, kEncUp := 14, high := 4 }

/-- A packet of session 1 with its operands and flags. -/
def plainPacket (flags : Byte) (a b d : Word) : Packet := ⟨1, flags, 1, 5, a, b, d, 0⟩

/-- A packet with its tag (R107). -/
def signed (c : Chip) (p : Packet) (op : BitVec 6) (f : Enc) : Packet :=
  { p with tag := cmacTag 11 (tagInput c.lnk.drop p.sid p.seq p.flags p.kind (c.wireBody p (encWord op f))) }

/-- A device with a packet first in its section. -/
def sent (c : Chip) (p : Packet) (op : BitVec 6) (f : Enc) : State :=
  st (c.modLnk fun l => { l with section_ := [wirePacket p (c.wireBody p (encWord op f))] })

/-- A signed packet of session 1 reaches its refusals. -/
theorem ready_sent {c : Chip} {p : Packet} {op : BitVec 6} {f : Enc} {cycles : Nat}
    (h1 : c.sessionOf p.sid = some 1) (h2 : (c.sec.sessions[1]).kMacDown = 11) (h3 : (c.sec.sessions[1]).high.toNat < p.seq.toNat)
    (h4 : p.sid ≠ 0 ∧ p.kind = 1 ∧ p.flags &&& 0xFE = 0 ∧ c.dev.tripThisTick = false ∧ c.dev.hostStopped = false ∧ c.may .host = true)
    (h5 : f.d.toNat ≤ 3 ∧ f.a.toNat ≤ 3 ∧ c.dev.hostCycles.toNat + cycles ≤ 256) (h6 : Clear (c.deviceChecks op f)) :
    Ready (.host (signed c p op f)) op f cycles (sent c (signed c p op f) op f) := by
  refine ⟨rfl, h4.2.2.2.2.2, h4.2.2.2.1, h4.2.2.2.2.1, h4.2.1, h4.2.2.1, fun h => absurd h h4.1, h5.1, h5.2.1, ?_, h5.2.2, h6⟩
  exact gate_fresh (n := 1) h4.1 h1 h3 (by rw [show ((sent c (signed c p op f) op f).chip.sec.sessions[(1 : SessionId).val]).kMacDown = 11 from h2]; rfl)

/-- In RUN the device state refuses nothing. -/
theorem clear_run {c : Chip} (op : BitVec 6) (f : Enc) (h : c.dev.state = .run) : Clear (c.deviceChecks op f) := by
  simp [Chip.deviceChecks, h, Clear]
/-- A packet of session 1 with its tag. -/
def packetOf (c : Chip) (flags : Byte) (op : BitVec 6) (f : Enc) (a b d : Word) : Packet := signed c (plainPacket flags a b d) op f
/-- The same first in the section of a device. -/
def sectionOf (c : Chip) (flags : Byte) (op : BitVec 6) (f : Enc) (a b d : Word) : State := sent c (packetOf c flags op f a b d) op f

/-- A signed packet of a keyed device in RUN reaches its refusals. -/
theorem ready_keyed (seat : BitVec 3) (c : Chip) (flags : Byte) (op : BitVec 6) (f : Enc) (cycles : Nat) (a b d : Word)
    (h0 : flags &&& 0xFE = 0) (h1 : f.d.toNat ≤ 3) (h2 : f.a.toNat ≤ 3) (h3 : cycles ≤ 256)
    (h4 : c.dev.state = .run ∧ c.dev.tripThisTick = false ∧ c.dev.hostStopped = false ∧ c.dev.hostCycles = 0 ∧ c.may .host = true) :
    Ready (.host (packetOf (keyed seat c) flags op f a b d)) op f cycles (sectionOf (keyed seat c) flags op f a b d) := by
  have hx : (keyed seat c).sec.sessions[(1 : SessionId).val] =
      { c.sec.sessions[(1 : SessionId).val] with
        isOpen := true, seat := seat, kMacDown := 11, kMacUp := 12, kEncDown := 13, kEncUp := 14, high := 4 } := upd_same ..
  refine ready_sent (c := keyed seat c) (p := plainPacket flags a b d) ?_ ?_ ?_
    ⟨show (1 : Byte) ≠ 0 by decide +kernel, rfl, h0, h4.2.1, h4.2.2.1, h4.2.2.2.2⟩ ⟨h1, h2, ?_⟩ (clear_run _ _ h4.1)
  · show (keyed seat c).sessionOf 1 = some 1
    unfold Chip.sessionOf
    simp only [show fin? 16 (1 : Byte).toNat = some (1 : SessionId) from by decide +kernel, hx]
    rfl
  · exact congrArg Session.kMacDown hx
  · rw [show (keyed seat c).sec.sessions[1] = _ from hx]
    show 4 < 5
    decide
  · rw [show (keyed seat c).dev.hostCycles = 0 from h4.2.2.2.1]
    show 0 + cycles ≤ 256
    omega

theorem witness_hostLoads :
    let f : Enc := ⟨1, 2, 0, 0⟩
    let i : Issuer := .host (packetOf (keyed 0 runChip) 0 0x10 f 0 0xA000 0)
    let s := sectionOf (keyed 0 runChip) 0 0x10 f 0 0xA000 0
    Ready i 0x10 f 2 s ∧ hostMayAccess (memAddress (operandsOf i s) f) = true ∧ s.chip.badWord 0 (fun n => decide (n = 0xA000 / 4)) = none ∧
      s.chip.classBit (whoOf i s).seat 6 0 = true ∧ s.chip.classBit (whoOf i s).seat 6 1 = true :=
  ⟨ready_keyed _ _ _ _ _ _ _ _ _ (by decide +kernel) (by decide +kernel) (by decide +kernel) (by decide +kernel) (by decide +kernel), by decide +kernel, by decide +kernel, by decide +kernel, by decide +kernel⟩

/-! ### Witnesses: registers, motion, stops -/

theorem witness_GetReadsRegister :
    let f : Enc := ⟨1, 0, 0, 0x3000⟩
    Ready (.thread 0) 0x1C f 4 s0 ∧ Names (.thread 0) f ⟨3, 0, 0⟩ s0 ∧
      (found (.thread 0) 4 s0).regDenied (.thread 0) ⟨3, 0, 0⟩ false = false ∧ (found (.thread 0) 4 s0).regDark ⟨3, 0, 0⟩ = false := by
  unfold Ready SlotFits Names; decide +kernel
theorem witness_UnnamedOperandIsRange :
    SlotFits 0 8 s0 ∧ regIllegal ⟨1, 0, 0, 0x3FC0⟩ = false ∧
      regRef (.thread 0) (s0.chip.threads[0]).w ⟨1, 0, 0, 0x3FC0⟩ = none ∧ axisOperand (.thread 0) 36 = none ∧
      axisOperand (.thread 0) 35 = some 35 := by unfold SlotFits; decide +kernel
/-- A register that exists, named with a stray bit of IMM[5:0] and by a word whose bits above the index are not all 0. -/
theorem witness_strayFields :
    let f : Enc := ⟨1, 0, 0, 0x3001⟩
    let g : Enc := ⟨1, 8, 1, 0x3000⟩
    let w := (s0.chip.threads[0]).w.set 8 128
    (regIllegal f = false ∧ regRef (.thread 0) (s0.chip.threads[0]).w f = some ⟨3, 0, 0⟩ ∧ f.m.toNat < 2 ∧ immBits f.imm 0 6 ≠ 0) ∧
      regIllegal g = false ∧ regRef (.thread 0) w g = some ⟨3, 0, 0⟩ ∧ g.m = 1 ∧ 128 ≤ (regOf w g.a).toNat ∧
      (found (.thread 0) 4 s0).regDenied (.thread 0) ⟨3, 0, 0⟩ false = false ∧ (found (.thread 0) 4 s0).regDenied (.thread 0) ⟨3, 0, 1⟩ false = true := by
  decide +kernel

/-- Members of the safety parameter set of car 0 that motion reads. -/
def spsOf : Sps := (((State.reset.chip.sps.put (.car 0 0) 4000000).put (.car 1 0) 1500000).put (.car 2 0) 2000000).put (.car 3 0) 600000

/-- Car 0 on, in a service state, with a table of three landings, its axis homed and at rest with its limits set. -/
def car0 (v : Service) (c : Chip) : Chip :=
  (({ c with sps := spsOf } : Chip).modCar 0 fun x =>
    { x with
      power := .on, service := v, count := 3,
      table := some ⟨0, [⟨0, true, true, 0xFFFFFF00, 0x100⟩, ⟨4000000, true, false, 3999000, 4001000⟩,
        ⟨8000000, true, false, 7999000, 8001000⟩]⟩ }).modAxis 0 fun a =>
    { a with st := .idle, homed := true, vlim := 1000000, alim := 1000000, dlim := 1000000, jlim := 1000000 }

/-- Thread 0 with car 0 in a service state. -/
def sCar (v : Service) : State := st (thread0 (car0 v runChip))

theorem witness_MoveInstructionsEnqueue :
    let f : Enc := ⟨1, 0, 0, 0x40⟩
    let c := found (.thread 0) 6 (sCar .in_)
    Ready (.thread 0) 0x20 f 6 (sCar .in_) ∧ ActsOnAxis (.thread 0) f 6 0xFF80 0 (sCar .in_) ∧
      c.axisFault 0 = false ∧ c.limitsZero 0 = false ∧ c.doorUnready 0 = false ∧ c.movesFull (.thread 0) 0 = false ∧
      c.inRange 0 5 = true ∧ c.inRange 0 8000000 = true ∧ c.inRange 0 8000001 = false ∧ c.serviceIn 0 [.inspect, .in_] = true ∧
      c.noRange 0 = false ∧ (c.axes[0]).homed = true ∧ c.doorBusy 0 = false := by
  unfold Ready SlotFits ActsOnAxis; decide +kernel
/-- The front door of car 0 in use, closed, homed, with its settings and limits. -/
def door0 (v : DoorState) (c : Chip) : Chip :=
  (c.modDoor 0 fun x =>
    let q : DoorCfg :=
      { x.act with
        type := .bdc, umrev := 1000, cpr := 400, iscale := 64, width := 800000, mass := 1000, kt := 500, homeRef := 0, minW := 100,
        stallT := 4 }
    { x with st := v, cfg := q, act := q }).modAxis 12 fun a =>
    { a with st := .idle, homed := true, vlim := 500000, alim := 500000, dlim := 500000, jlim := 500000 }

/-- Thread 0 with car 0 in a service state and its front door. -/
def sDoor (v : Service) (w : DoorState) : State := st (thread0 (door0 w (car0 v runChip)))

theorem witness_moveq :
    let f : Enc := ⟨1, 0, 0, 12⟩
    let c := found (.thread 0) 6 (sDoor .in_ .closed)
    Ready (.thread 0) 0x21 f 6 (sDoor .in_ .closed) ∧ ActsOnAxis (.thread 0) f 6 0xFF80 12 (sDoor .in_ .closed) ∧
      c.axisFault 12 = false ∧ c.limitsZero 12 = false ∧ c.doorUnready 12 = false ∧ c.inRange 12 5 = true ∧ c.noRange 12 = false ∧
      (c.axes[12]).homed = true ∧ c.doorBusy 12 = false ∧ (c.axes[12]).seam = true := by
  unfold Ready SlotFits ActsOnAxis; decide +kernel

/-- Car 0 OUT with an EDGE homing set for its axis. -/
def sHome : State := st ((thread0 (car0 .out runChip)).modAxis 0 fun a => { a with homeCfg := 0x90010064 })
theorem witness_home :
    let f : Enc := ⟨0, 0, 0, 0x40⟩
    let c := found (.thread 0) 6 sHome
    Ready (.thread 0) 0x28 f 6 sHome ∧ ActsOnAxis (.thread 0) f 6 0xFF80 0 sHome ∧ c.axisFault 0 = false ∧ c.limitsZero 0 = false ∧
      c.movesFull (.thread 0) 0 = false ∧ c.homeUnsuited 0 = false ∧ (c.homingOf 0).kind ≠ 0 ∧
      c.serviceIn 0 [.out, .inspect] = true ∧ c.testRunning (carOfAxis 0) = false := by
  unfold Ready SlotFits ActsOnAxis; decide +kernel

/-- Car 0 IN, moving up to landing 2. -/
def sMoving : State :=
  st ((thread0 (car0 .in_ runChip)).modAxis 0 fun a =>
    { a with st := .moving, target := 8000000, e := genPos 8000000, v := 0, remain := 0 })
/-- Car 0 IN, held on the way to landing 2. -/
def sHeld : State :=
  st ((thread0 (car0 .in_ runChip)).modAxis 0 fun a =>
    { a with st := .held, p := genPos 4000000, e := genPos 4000000, target := 8000000, remain := 4000000 })
/-- Both doors of car 0 in use, the rear one's axis to follow the front one's over cam table 1, whose points all read 0. -/
def sCam : State :=
  let c := thread0 (door0 .closed (car0 .in_ runChip))
  st (((c.modDoor 1 fun x => { c.doors[0] with st := .closed }).modAxis 13 fun _ => c.axes[12]).modThread 0 fun x =>
    { x with w := x.w.set 9 12 })
theorem witness_AxisCommandsAreAnswered :
    let f : Enc := ⟨8, 0, 0, 0x40⟩
    let g : Enc := ⟨0, 0, 0, 0x40⟩
    Ready (.thread 0) 0x22 g 4 sMoving ∧ ActsOnAxis (.thread 0) g 4 0xFF80 0 sMoving ∧
    Ready (.thread 0) 0x23 f 8 sMoving ∧ ActsOnAxis (.thread 0) f 8 0xFF80 0 sMoving ∧
      ((found (.thread 0) 8 sMoving).cars[0]).landing? 1 = some ⟨4000000, true, false, 3999000, 4001000⟩ ∧
      ((found (.thread 0) 8 sMoving).axes[0]).projected.st = .moving ∧ ((found (.thread 0) 8 sMoving).reachMask 0).getLsbD 1 = true ∧
    Ready (.thread 0) 0x24 g 4 sHeld ∧ ActsOnAxis (.thread 0) g 4 0xFF80 0 sHeld ∧
      ((found (.thread 0) 4 sHeld).axes[0]).projected.remain ≠ 0 ∧ ((found (.thread 0) 4 sHeld).axes[0]).projected.st = .held ∧
    (let h : Enc := ⟨3, 0, 0, 0x0340⟩
     Ready (.thread 0) 0x26 h 6 sHeld ∧ ActsOnAxis (.thread 0) h 6 0xFC80 0 sHeld ∧
       (regOf (operandsOf (.thread 0) sHeld) 8).toNat ≤ (found (.thread 0) 6 sHeld).axisBound 0 3 ∧
       ¬ (regOf (operandsOf (.thread 0) sHeld) 3).toNat ≤ (found (.thread 0) 6 sHeld).axisBound 0 3) := by
  unfold Ready SlotFits ActsOnAxis; decide +kernel
theorem witness_camset :
    let f : Enc := ⟨9, 0, 0, 0x110D⟩
    let c := found (.thread 0) 4 sCam
    Ready (.thread 0) 0x27 (fix12 f true) 4 sCam ∧ ActsOnAxis (.thread 0) (fix12 f true) 4 0xE080 13 sCam ∧
      ((13 : AxisId) = doorAxis 1) ∧ regOf (operandsOf (.thread 0) sCam) 9 = BitVec.ofNat 32 (doorAxis (otherDoor 1)).val ∧
      (c.axes[12]).projected.engaged = none ∧ sCam.mem.camShiftOk 1 = true ∧ (c.axes[13]).projected.st = .idle ∧
      (c.axes[12]).st = .idle ∧ (c.axes[12]).v = 0 ∧ (c.axes[12]).a = 0 ∧
      ((c.axes[13]).projected.p.toInt - (sCam.mem.camOutput 1 (c.axes[12]).p.toInt).1).natAbs < unit.natAbs ∧
    Ready (.thread 0) 0x27 (fix12 f false) 4 sCam ∧ ActsOnAxis (.thread 0) (fix12 f false) 4 0xE080 13 sCam := by
  unfold Ready SlotFits ActsOnAxis; decide +kernel
/-! ### Witnesses: islands, self-tests, stops, engines -/

/-- KEEPER's packet in a device. -/
def keeperIssuer (c : Chip) (flags : Byte) (op : BitVec 6) (f : Enc) (a b d : Word) : Issuer :=
  .host (packetOf (keyed 0 c) flags op f a b d)

theorem witness_IslandInstructions :
    let f := fix8 ⟨0, 0, 0, 0⟩ true
    let g := fix8 ⟨0, 0, 0, 0⟩ false
    let i := keeperIssuer runChip 0 0x29 f 0 0 0
    let s := sectionOf (keyed 0 runChip) 0 0x29 f 0 0 0
    let j := keeperIssuer (car0 .out runChip) 0 0x29 g 0 0 0
    let r := sectionOf (keyed 0 (car0 .out runChip)) 0 0x29 g 0 0 0
    (Ready i 0x29 f 6 s ∧ Ready j 0x29 g 6 r) ∧
      ((found i 6 s).lacks (whoOf i s) 10 = false ∧ (found i 6 s).mayAct (whoOf i s) 0 = true ∧
        (found i 6 s).noCredit (whoOf i s) = false ∧ ((found i 6 s).cars[0]).on = false) ∧
      (((found j 6 r).cars[0]).on = true ∧ ((found j 6 r).cars[0]).rising = false ∧ (found j 6 r).testRunning 0 = false) :=
  ⟨⟨ready_keyed _ _ _ _ _ _ _ _ _ (by decide +kernel) (by decide +kernel) (by decide +kernel) (by decide +kernel) (by decide +kernel),
    ready_keyed _ _ _ _ _ _ _ _ _ (by decide +kernel) (by decide +kernel) (by decide +kernel) (by decide +kernel) (by decide +kernel)⟩,
    by decide +kernel, by decide +kernel⟩
theorem witness_islandWaiting :
    let c := runChip.modCar 0 fun x => { x with powerPending := true, islandReq := true }
    let g := fix8 ⟨0, 0, 0, 0⟩ false
    let i := keeperIssuer c 0 0x29 g 0 0 0
    let s := sectionOf (keyed 0 c) 0 0x29 g 0 0 0
    Ready i 0x29 g 6 s ∧ ((found i 6 s).cars[0]).powerPending = true :=
  ⟨ready_keyed _ _ _ _ _ _ _ _ _ (by decide +kernel) (by decide +kernel) (by decide +kernel) (by decide +kernel) (by decide +kernel),
    by decide +kernel⟩

theorem witness_SelftestsStart :
    let f : Enc := ⟨0, 0, 0, 0⟩
    let s := sCar .out
    let c := found (.thread 0) 6 s
    Ready (.thread 0) 0x2A (fixLow f 8 0x01) 6 s ∧ c.noCredit (.thread 0) = false ∧ c.lacks (.thread 0) 11 = false ∧
      c.lacks (.thread 0) 12 = false ∧ c.mayAct (.thread 0) 0 = true ∧ (c.cars[0]).service = .out ∧ c.testRunning 0 = false := by
  unfold Ready SlotFits; decide +kernel
/-- Car 0 OUT with a bridge channel. -/
def sBridge : State :=
  st ((thread0 (car0 .out runChip)).modFe 0 fun y =>
    let q : FeCfg := { y.act with type := .bridge, gain := 0, level := 1, rate := 1, zset := true, span := 0x01000000, win := 4 }
    { y with cfg := q, act := q })
theorem witness_bridgeTest :
    Ready (.thread 0) 0x2A (fixLow ⟨0, 0, 0, 0⟩ 8 0x12) 6 sBridge ∧ ((found (.thread 0) 6 sBridge).fes[(carFe 0 0).val]).act.type = .bridge ∧
      ((found (.thread 0) 6 sBridge).cals[0]).queue = [] ∧ ((found (.thread 0) 6 sBridge).cals[0]).running = none := by
  unfold Ready SlotFits; decide +kernel

theorem witness_CallsAndEnableRequests :
    let f : Enc := ⟨8, 0, 0, 0x140⟩
    let s := sCar .in_
    let c := found (.thread 0) 4 s
    Ready (.thread 0) 0x2C f 4 s ∧ ActsOnCar (.thread 0) f 4 1 true 0 s ∧ f.imm &&& 0xF8B0 = 0 ∧
      (c.cars[0]).landing? (regOf (operandsOf (.thread 0) s) 8).toNat = some ⟨4000000, true, false, 3999000, 4001000⟩ ∧
      c.secure 1 = false ∧ (c.cars[0]).service = .in_ ∧
    Ready (.thread 0) 0x30 ⟨0, 0, 0, 0x740⟩ 3 s ∧ ActsOnCar (.thread 0) ⟨0, 0, 0, 0x740⟩ 3 2 true 0 s := by
  unfold Ready SlotFits ActsOnCar; decide +kernel
theorem witness_StopQueriesAnswer :
    let s := sCar .in_
    Ready (.thread 0) 0x2E ⟨13, 0, 0, 0x40⟩ 8 s ∧ ActsOnCar (.thread 0) ⟨13, 0, 0, 0x40⟩ 8 1 false 0 s ∧
      (found (.thread 0) 8 s).whoLevel (.thread 0) < 2 ∧
    Ready (.thread 0) 0x2F ⟨11, 0, 0, 0x40⟩ 12 s ∧ ActsOnCar (.thread 0) ⟨11, 0, 0, 0x40⟩ 12 1 false 0 s ∧
      (found (.thread 0) 12 s).whoLevel (.thread 0) < 3 := by
  unfold Ready SlotFits ActsOnCar; decide +kernel

theorem witness_crcjob :
    let f : Enc := ⟨1, 8, 0, 0⟩
    let c := found (.thread 0) 6 s0
    Ready (.thread 0) 0x31 f 6 s0 ∧ 5 + (1 + ((c.scan.cks[0]).cfg).extraRead + ((c.scan.cks[0]).cfg).appended) ≤ spaceSize 0 ∧
      (c.scan.cks[0]).cfg.mode = 0 ∧ c.queueFree .scan ≠ 0 ∧ c.noCredit (.thread 0) = false := by
  unfold Ready SlotFits; decide +kernel
theorem witness_cal :
    let c := found (.thread 0) 6 sBridge
    Ready (.thread 0) 0x32 (fixKind ⟨0, 0, 0, 0⟩ 0) 6 sBridge ∧ Ready (.thread 0) 0x32 (fixKind ⟨1, 0, 0, 0⟩ 1) 6 sBridge ∧
      c.exciteTest 0 = false ∧ c.queueFree (.cals 0) ≠ 0 ∧ (c.fes[0]).act.type = .bridge ∧
      regOf (operandsOf (.thread 0) sBridge) 0 = 0 ∧ regOf (operandsOf (.thread 0) sBridge) 1 ≠ 0 := by
  unfold Ready SlotFits; decide +kernel
theorem witness_trace :
    let s := sCar .in_
    let c := found (.thread 0) 6 s
    Ready (.thread 0) 0x33 ⟨7, 0, 0, 3⟩ 6 s ∧ sourceOf (regOf (operandsOf (.thread 0) s) 7) = some (.reg ⟨0, 0, 0⟩) ∧
      (Source.reg ⟨0, 0, 0⟩).veiled 0 true = false ∧ trigMode (regOf (operandsOf (.thread 0) s) 0) = 0 ∧
      c.sourceDark (.reg ⟨0, 0, 0⟩) = false ∧ c.queueFree .traces ≠ 0 := by
  unfold Ready SlotFits; decide +kernel
theorem witness_log :
    let c := found (.thread 0) 6 s0
    Ready (.thread 0) 0x34 ⟨12, 0, 0, 0x40⟩ 6 s0 ∧ c.warning = false ∧ c.journal.queue.length < 28 ∧ c.journal.fault = false := by
  unfold Ready SlotFits; decide +kernel
/-! ### Witnesses: keys, sessions, seals -/

/-- A packet of session 0, whose tag is 0. -/
def openPacket (a b d : Word) : Packet := ⟨0, 0, 1, 1, a, b, d, 0⟩
/-- A packet of session 0 first in the section of a device. -/
def sOpen (c : Chip) (op : BitVec 6) (f : Enc) (a b d : Word) : State := sent c (openPacket a b d) op f
theorem ready_open (c : Chip) (op : BitVec 6) (f : Enc) (cycles : Nat) (a b d : Word) (h1 : f.d.toNat ≤ 3) (h2 : f.a.toNat ≤ 3)
    (h3 : cycles ≤ 256)
    (h4 : c.dev.state = .run ∧ c.dev.tripThisTick = false ∧ c.dev.hostStopped = false ∧ c.dev.hostCycles = 0 ∧ c.may .host = true) :
    Ready (.host (openPacket a b d)) op f cycles (sOpen c op f a b d) := by
  refine ⟨rfl, h4.2.2.2.2, h4.2.1, h4.2.2.1, rfl, by show (0 : Byte) &&& 0xFE = 0; decide, fun _ => by show (0 : Byte).getLsbD 0 = false; decide, h1, h2, rfl,
    ?_, clear_run _ _ h4.1⟩
  rw [show (sOpen c op f a b d).chip.dev.hostCycles = 0 from h4.2.2.2.1]
  show 0 + cycles ≤ 256
  omega

/-- The halves of a value make it up. -/
theorem halves (x : BitVec 64) : (x.extractLsb' 32 32 ++ x.extractLsb' 0 32 : BitVec 64) = x := by
  ext i h
  simp only [BitVec.getElem_append, BitVec.getElem_extractLsb']
  split
  · simp [h]
  · rw [← BitVec.getLsbD_eq_getElem]
    congr 1
    omega

theorem witness_ChallengesAndSessions_chal :
    let c := runChip.modSec fun x => { x with entropyBuf := [77] }
    let f : Enc := ⟨0, 0, 0, 0x0100⟩
    Ready (.host (openPacket 0 0 0)) 0x36 f 12 (sOpen c 0x36 f 0 0 0) ∧ openingRange f.imm = false ∧
      (sOpen c 0x36 f 0 0 0).chip.sec.entropyBuf = [77] ∧ (sOpen c 0x36 f 0 0 0).chip.sec.entropyCause = 0 ∧
      ((sOpen c 0x36 f 0 0 0).chip.sec.sessions[(immBits f.imm 8 4).toNat]).isOpen = false :=
  ⟨ready_open _ _ _ _ _ _ _ (by decide) (by decide) (by decide) (by decide +kernel), by decide, by decide +kernel, by decide +kernel,
    by decide +kernel⟩

/-- A challenge for session 1 and KEEPER stands, and a value in the entropy buffer. -/
def challenged : Chip :=
  runChip.modSec fun x => { x with entropyBuf := [77], challenges := upd x.challenges 1 fun _ => some ⟨55, 0, 3⟩ }
/-- The proof of KEEPER's key for it. -/
def proof : Tag := cmacTag 0 (proofInput challenged 0 1 55 9)
theorem witness_ChallengesAndSessions_open :
    let f := fix15 ⟨0, 0, 0, 0x0100⟩ false
    let p := openPacket 9 (proof.extractLsb' 32 32) (proof.extractLsb' 0 32)
    let s := sOpen challenged 0x37 f 9 (proof.extractLsb' 32 32) (proof.extractLsb' 0 32)
    Ready (.host p) 0x37 f 40 s ∧ (cmacTag ((found (.host p) 40 s).sec.keys[0]).key (proofInput (found (.host p) 40 s) 0 1 55 9)
        = (p.b ++ p.c : Tag)) ∧
      ((found (.host p) 40 s).challenge 1 = some ⟨55, 0, 3⟩ ∧ (found (.host p) 40 s).seatDenied 0 = false ∧
        (found (.host p) 40 s).sec.hasKey 0 = true ∧ (found (.host p) 40 s).seatSessions 0 < 4 ∧
        ((found (.host p) 40 s).sec.sessions[1]).isOpen = false ∧ (found (.host p) 40 s).sec.entropyBuf = [77] ∧
        (found (.host p) 40 s).journal.queue.length < (found (.host p) 40 s).journal.places ∧ (found (.host p) 40 s).badWord 5 (sessionKeyWords 0) = none) :=
  ⟨ready_open _ _ _ _ _ _ _ (by decide) (by decide) (by decide) (by decide +kernel), (halves proof).symm, by decide +kernel⟩
theorem witness_sessionMac :
    let f := fix15 ⟨0, 0, 0, 0x0100⟩ false
    let p := openPacket 9 (~~~proof.extractLsb' 32 32) (proof.extractLsb' 0 32)
    let s := sOpen challenged 0x37 f 9 (~~~proof.extractLsb' 32 32) (proof.extractLsb' 0 32)
    Ready (.host p) 0x37 f 40 s ∧ (cmacTag ((found (.host p) 40 s).sec.keys[0]).key (proofInput (found (.host p) 40 s) 0 1 55 9)
        ≠ (p.b ++ p.c : Tag)) ∧ (found (.host p) 40 s).challenge 1 = some ⟨55, 0, 3⟩ ∧ (found (.host p) 40 s).sec.hasKey 0 = true :=
  ⟨ready_open _ _ _ _ _ _ _ (by decide) (by decide) (by decide) (by decide +kernel),
    fun h => by
      have h2 : proof = (~~~proof.extractLsb' 32 32 ++ proof.extractLsb' 0 32 : BitVec 64) := h
      generalize proof = q at h2
      have h3 : q.getLsbD 32 = (~~~q.extractLsb' 32 32 ++ q.extractLsb' 0 32).getLsbD 32 := congrArg (fun x : BitVec 64 => x.getLsbD 32) h2
      rw [BitVec.getLsbD_append] at h3
      simp at h3, by decide +kernel, by decide +kernel⟩
theorem witness_sessionClose :
    let f := fix15 ⟨0, 0, 0, 0⟩ true
    let i := keeperIssuer runChip 0 0x37 f 0 0 0
    let s := sectionOf (keyed 0 runChip) 0 0x37 f 0 0 0
    Ready i 0x37 f 40 s ∧ (whoOf i s).sid ≠ 0 :=
  ⟨ready_keyed _ _ _ _ _ _ _ _ _ (by decide) (by decide) (by decide) (by decide) (by decide +kernel), by decide +kernel⟩

/-- A staged table of session 1 with one word changed. -/
def stagedTable : Vector Row 8 := factoryTable.set 3 ((factoryTable[3]).set 2 0)
/-- RUN with that table staged, and with the present one staged. -/
def sTable (t : Vector Row 8) : Chip := runChip.modSec fun x => { x with stage := some ⟨t, 1, false⟩ }
/-- The check value of a table. -/
def tableCheck (t : Vector Row 8) : BitVec 64 := head8 (tableDigest t)
theorem witness_TableIsStaged_edit :
    let f : Enc := ⟨0, 0, 0, 0x0023⟩
    let i := keeperIssuer runChip 0 0x38 f 0 0xFFFFFFFF 0
    let s := sectionOf (keyed 0 runChip) 0 0x38 f 0 0xFFFFFFFF 0
    Ready i 0x38 f 8 s ∧ (whoOf i s).isSeat 0 = true ∧
      rowAllowed 3 (((found i 8 s).sec.staged)[3].set 2 ((((found i 8 s).sec.staged)[3][2] &&& ~~~0xFFFFFFFF) ||| (0 &&& 0xFFFFFFFF))) = true
      ∧ (found i 8 s).sec.stage = none :=
  ⟨ready_keyed _ _ _ _ _ _ _ _ _ (by decide) (by decide) (by decide) (by decide) (by decide +kernel), by decide +kernel⟩
theorem witness_TableIsStaged_press (t : Vector Row 8) :
    let f : Enc := ⟨0, 0, 0, 0⟩
    let i := keeperIssuer (sTable t) 0 0x39 f 0 ((tableCheck t).extractLsb' 32 32) ((tableCheck t).extractLsb' 0 32)
    let s := sectionOf (keyed 0 (sTable t)) 0 0x39 f 0 ((tableCheck t).extractLsb' 32 32) ((tableCheck t).extractLsb' 0 32)
    Ready i 0x39 f 12 s ∧ (found i 12 s).sec.stage = some ⟨t, 1, false⟩ ∧ (whoOf i s).sid = 1 ∧
      ((tableCheck t).extractLsb' 32 32 ++ (tableCheck t).extractLsb' 0 32 : BitVec 64) = head8 (tableDigest t) ∧
      (found i 12 s).sec.tblGen = 0 ∧ (found i 12 s).sec.table = factoryTable :=
  ⟨ready_keyed _ _ _ _ _ _ _ _ _ (by decide) (by decide) (by decide) (by decide) ⟨rfl, rfl, rfl, rfl, rfl⟩, rfl, rfl, halves _, rfl, rfl⟩
theorem witness_pressedTableDiffers : stagedTable ≠ factoryTable := by decide +kernel

/-- RUN with the first half of a key of INSPECTOR staged in session 1. -/
def sHalf : Chip := runChip.modSession 1 fun x => { x with stage := some (1, 0x0102030405060708) }
/-- The key and its check value. -/
def newKey : Block := (0x0102030405060708 : BitVec 64) ++ (0x11223344 : Word) ++ (0x55667788 : Word)
theorem witness_KeyIsSetInTwoParts :
    let f := fix15 ⟨0, 0, 0, 1⟩ false
    let g := fix15 ⟨0, 0, 0, 1⟩ true
    let i := keeperIssuer runChip 1 0x3A f 0x01020304 0x05060708 0
    let s := sectionOf (keyed 0 runChip) 1 0x3A f 0x01020304 0x05060708 0
    let v := (keyCheck newKey).extractLsb' 96 32
    let j := keeperIssuer sHalf 1 0x3A g 0x11223344 0x55667788 v
    let r := sectionOf (keyed 0 sHalf) 1 0x3A g 0x11223344 0x55667788 v
    (Ready i 0x3A f 24 s ∧ Ready j 0x3A g 24 r) ∧ ((whoOf i s).isSeat 0 = true ∧
      ((found j 24 r).sec.sessions[(whoOf j r).sid.toNat]).stage = some (1, 0x0102030405060708) ∧ newKey ≠ 0 ∧
      Clear ((found j 24 r).auditRefusals (whoOf j r) 1) ∧ Clear ((begun j 24 r).auditRefusals (whoOf j r) 1)) :=
  ⟨⟨ready_keyed _ _ _ _ _ _ _ _ _ (by decide) (by decide) (by decide) (by decide) (by decide +kernel),
    ready_keyed _ _ _ _ _ _ _ _ _ (by decide) (by decide) (by decide) (by decide) (by decide +kernel)⟩,
    by unfold Clear; decide +kernel⟩

theorem witness_keysetRefused :
    let g := fix15 ⟨0, 0, 0, 1⟩ true
    let v := ~~~(keyCheck newKey).extractLsb' 96 32
    let j := keeperIssuer sHalf 1 0x3A g 0x11223344 0x55667788 v
    let r := sectionOf (keyed 0 sHalf) 1 0x3A g 0x11223344 0x55667788 v
    Ready j 0x3A g 24 r ∧ ((found j 24 r).sec.sessions[(whoOf j r).sid.toNat]).stage = some (1, 0x0102030405060708) ∧
      (found j 24 r).keysGone = false ∧ (keyCheck newKey).extractLsb' 96 32 ≠ v :=
  ⟨ready_keyed _ _ _ _ _ _ _ _ _ (by decide) (by decide) (by decide) (by decide) (by decide +kernel), by decide +kernel,
    by decide +kernel, fun h => by
      have h2 := congrArg (fun x : BitVec 32 => x.getLsbD 0) h
      simp at h2⟩

theorem witness_SealIsClosedAndOpened :
    let f : Enc := ⟨0, 0, 0, 0⟩
    let c := keyed 1 runChip
    let d := keyed 1 (runChip.modSec fun x => { x with sealSt := .sealed_ })
    let e := keyed 1 (runChip.modSec fun x => { x with sealSt := .sealed_, witness := some ⟨2, 9⟩ })
    let i := fun c op => Issuer.host (packetOf c 0 op f 0 0 0)
    (Ready (i c 0x3B) 0x3B f 8 (sectionOf c 0 0x3B f 0 0 0) ∧ Ready (i d 0x3C) 0x3C f 8 (sectionOf d 0 0x3C f 0 0 0) ∧
      Ready (i e 0x3C) 0x3C f 8 (sectionOf e 0 0x3C f 0 0 0)) ∧
      ((whoOf (i c 0x3B) (sectionOf c 0 0x3B f 0 0 0)).isSeat 1 = true ∧
        (found (i c 0x3B) 8 (sectionOf c 0 0x3B f 0 0 0)).sec.sealSt ≠ .sealed_ ∧
        (found (i d 0x3C) 8 (sectionOf d 0 0x3C f 0 0 0)).projected.sec.sealSt ≠ .open_ ∧
        (found (i d 0x3C) 8 (sectionOf d 0 0x3C f 0 0 0)).projected.sec.liveWitness (found (i d 0x3C) 8 (sectionOf d 0 0x3C f 0 0 0)).sec.witnessTo = none ∧
        (found (i e 0x3C) 8 (sectionOf e 0 0x3C f 0 0 0)).projected.sec.liveWitness
          (found (i e 0x3C) 8 (sectionOf e 0 0x3C f 0 0 0)).sec.witnessTo = some ⟨2, 9⟩ ∧
        Clear ((found (i e 0x3C) 8 (sectionOf e 0 0x3C f 0 0 0)).auditRefusals (whoOf (i e 0x3C) (sectionOf e 0 0x3C f 0 0 0)) 1)) :=
  ⟨⟨ready_keyed _ _ _ _ _ _ _ _ _ (by decide) (by decide) (by decide) (by decide) (by decide +kernel),
    ready_keyed _ _ _ _ _ _ _ _ _ (by decide) (by decide) (by decide) (by decide) (by decide +kernel),
    ready_keyed _ _ _ _ _ _ _ _ _ (by decide) (by decide) (by decide) (by decide) (by decide +kernel)⟩,
    by unfold Clear; decide +kernel⟩
/-! ### Witnesses: program, stream, audited changes -/

/-- The same with its premises as one. -/
theorem ready_k (seat : BitVec 3) (c : Chip) (op : BitVec 6) (f : Enc) (cycles : Nat) (a b d : Word)
    (h : f.d.toNat ≤ 3 ∧ f.a.toNat ≤ 3 ∧ cycles ≤ 256 ∧ c.dev.state = .run ∧ c.dev.tripThisTick = false ∧ c.dev.hostStopped = false ∧
      c.dev.hostCycles = 0 ∧ c.may .host = true) :
    Ready (.host (packetOf (keyed seat c) 0 op f a b d)) op f cycles (sectionOf (keyed seat c) 0 op f a b d) :=
  ready_keyed seat c 0 op f cycles a b d (by decide) h.1 h.2.1 h.2.2.1 h.2.2.2

/-- ADMIT at tick 5,000 with session 1 of KEEPER open and a program load. -/
def loading (l : Option Load) : Chip :=
  keyed 0 ((runChip.modDev fun d => { d with state := .admitting }).modSec fun x => { x with load := l })
/-- A packet of its session with a form of PLOAD, and the device that finds it. -/
def loadPacket (l : Option Load) (op : BitVec 2) (a b d : Word) : Packet :=
  signed (loading l) (plainPacket 0 a b d) 0x3D (fixTop2 ⟨0, 0, 0, 0⟩ op)
def loadState (l : Option Load) (op : BitVec 2) (a b d : Word) : State :=
  sent (loading l) (loadPacket l op a b d) 0x3D (fixTop2 ⟨0, 0, 0, 0⟩ op)
/-- A load of 208 words that session 1 has begun. -/
def begunLoad : Load := ⟨1, 208, none⟩
theorem witness_ploadRuns (o : Bool) :
    let c := found (.host (loadPacket (if o then some begunLoad else none) 0 208 0 0)) 8 (loadState (if o then some begunLoad else none) 0 208 0 0)
    let s := loadState (if o then some begunLoad else none) 0 208 0 0
    c.lacks (whoOf (.host (loadPacket (if o then some begunLoad else none) 0 208 0 0)) s) 13 = false ∧ s.chip.dev.state = .admitting ∧
      2000 ≤ s.chip.dev.tick.toNat ∧ s.chip.warning = false ∧ s.chip.journal.fault = false ∧
      c.noCredit (whoOf (.host (loadPacket (if o then some begunLoad else none) 0 208 0 0)) s) = false := by revert o; decide +kernel
theorem witness_ploadBegin :
    Ready (.host (loadPacket none 0 208 0 0)) 0x3D (fixTop2 ⟨0, 0, 0, 0⟩ 0) 8 (loadState none 0 208 0 0) ∧
      (loadState none 0 208 0 0).chip.sec.load = none := by
  refine ⟨ready_sent (p := plainPacket 0 208 0 0) ?_ ?_ ?_ ?_ ?_ ?_, ?_⟩
  · decide +kernel
  · decide +kernel
  · decide +kernel
  · decide +kernel
  · decide +kernel
  · unfold Clear; decide +kernel
  · decide +kernel
theorem witness_ploadData :
    Ready (.host (loadPacket (some begunLoad) 1 1 0 207)) 0x3D (fixTop2 ⟨0, 0, 0, 0⟩ 1) 8 (loadState (some begunLoad) 1 1 0 207) ∧
      (loadState (some begunLoad) 1 1 0 207).chip.sec.load = some begunLoad ∧ (207 : Word).toNat + 1 = begunLoad.n.toNat ∧
      (206 : Word).toNat + 1 < begunLoad.n.toNat ∧
      (whoOf (.host (loadPacket (some begunLoad) 1 1 0 207)) (loadState (some begunLoad) 1 1 0 207)).sid = begunLoad.owner := by
  refine ⟨ready_sent (p := plainPacket 0 1 0 207) ?_ ?_ ?_ ?_ ?_ ?_, ?_⟩
  · decide +kernel
  · decide +kernel
  · decide +kernel
  · decide +kernel
  · decide +kernel
  · unfold Clear; decide +kernel
  · decide +kernel
theorem witness_ploadSeal :
    Ready (.host (loadPacket (some begunLoad) 2 0 1 2)) 0x3D (fixTop2 ⟨0, 0, 0, 0⟩ 2) 8 (loadState (some begunLoad) 2 0 1 2) := by
  refine ready_sent (p := plainPacket 0 0 1 2) ?_ ?_ ?_ ?_ ?_ ?_
  · decide +kernel
  · decide +kernel
  · decide +kernel
  · decide +kernel
  · decide +kernel
  · unfold Clear; decide +kernel
theorem witness_darn :
    let f : Enc := ⟨0, 0, 0, 0⟩
    let i := keeperIssuer runChip 0 0x3E f 208 0 7
    let s : State := { sectionOf (keyed 0 runChip) 0 0x3E f 208 0 7 with mem := imageMem }
    Ready i 0x3E f 12 s ∧ (whoOf i s).isSeat 0 = true ∧ s.chip.running = true ∧
      s.chip.badWord 1 (fun w => decide (w < s.mem.imageLength)) = none ∧ s.mem.inImage 208 = true ∧ s.mem.progWord 208 = 0 ∧
      (found i 12 s).sec.darnPending = false ∧ Clear ((found i 12 s).auditRefusals (whoOf i s) 2) :=
  ⟨ready_k 0 runChip 0x3E ⟨0, 0, 0, 0⟩ 12 208 0 7 (by decide +kernel), by unfold Clear; decide +kernel⟩

theorem witness_streamNone :
    let f := fixLow ⟨0, 0, 0, 0⟩ 3 0
    let c := runChip.modLnk fun l => { l with streamNext := some (1, .trace) }
    let i := keeperIssuer c 0 0x35 f 0 0 0
    let s := sectionOf (keyed 0 c) 0 0x35 f 0 0 0
    Ready i 0x35 f 4 s ∧ (found i 4 s).lnk.streamNext = some ((whoOf i s).sid, .trace) :=
  ⟨ready_k _ _ _ _ _ _ _ _ (by decide +kernel), by decide +kernel⟩
theorem witness_StreamSelectionIsQueued :
    let f := fixLow ⟨0, 0, 0, 0⟩ 3 3
    let i := keeperIssuer runChip 0 0x35 f 0 0 0
    let s := sectionOf (keyed 0 runChip) 0 0x35 f 0 0 0
    Ready i 0x35 f 4 s ∧ (found i 4 s).lnk.streamTaken (whoOf i s).sid = false ∧ (found i 4 s).lacks (whoOf i s) 7 = false ∧
      (found i 4 s).lacks (whoOf i s) 8 = false ∧ (found i 4 s).lacks (whoOf i s) 9 = false ∧
      (found i 4 s).whoLevel (whoOf i s) = 0 ∧ (found i 4 s).whoSecured (whoOf i s) = true ∧
      (((found i 4 s).row (whoOf i s).seat)[4]).getLsbD 4 = true :=
  ⟨ready_k _ _ _ _ _ _ _ _ (by decide +kernel), by decide +kernel⟩

/-- RUN with one audited change accepted. -/
def sAudit (ch : Change) (waits : List Nat) (due : Bool) : State :=
  st (runChip.modSec fun x => { x with audits := [⟨ch, waits, 9, due⟩] })
theorem witness_AuditedChangeTakesEffect :
    (sAudit .readmit [3] false).chip.sec.audits = [⟨.readmit, [3], 9, false⟩] ∧
      (∀ w ∈ [[], [3]], (sAudit .readmit w false).chip.linkUp = true ∧ (sAudit .readmit w false).chip.changeDue = false) ∧
      (sAudit .readmit [] true).chip.atZero = true ∧ ((sAudit .readmit [] true).chip.enter .thread).atZero = false ∧ runChip.lnk.sckRunning = true ∧ runChip.warning = false ∧
      (runChip.modPwr fun p => { p with live := 1 }).warning = true ∧ (Change.unseal 2).nonvolatile = true ∧ runChip.keysGone = false ∧
      ∀ ch ∈ [Change.readmit, .sps (.car 0 0) 5 true, .sps (.car 0 0) 5 false, .secreg 0x0A 0 0x0101, .unseal 2, .darn 208 7, .starch,
        .keyset 1 newKey, .zeroize 6, .tblpress], (sAudit ch [] true).chip.sec.audits = [⟨ch, [], 9, true⟩] := by decide +kernel
/-- Inputs of a tick with supplies and timing in order. -/
def quietInputs : TickInputs :=
  ⟨2500, #v[20, 20, 20, 20, 20, 20, 20, 20, 20, 20, 20, 20, 20, 20, 20, 20], #v[1000, 3300, 3300, 5000, 1800], Vector.replicate 96 0, Vector.replicate 12 0, Vector.replicate 12 0,
    Vector.replicate 12 0, false, Vector.replicate 24 (0, 0), [], 2⟩
theorem witness_auditedEffects :
    (let c : Chip := { runChip with inputs := ⟨some quietInputs, []⟩ }
     c.atZero = true ∧ c.inputs.latched = some quietInputs) ∧
    ((keyed 1 runChip).sec.sessions[1]).seat.toNat = 1 ∧ (6 : BitVec 7).getLsbD 1 = true ∧ (6 : BitVec 7).getLsbD 0 = false ∧
    (sTable stagedTable).sec.stage = some ⟨stagedTable, 1, false⟩ ∧ (challenged.sec.challenges[1]) = some ⟨55, 0, 3⟩ := by
  decide +kernel
/-! ### Witnesses: PUT -/

/-- A PUT of session 1 of KEEPER, its value in operand A. -/
def putBy (c : Chip) (f : Enc) (v : Word) : Issuer := keeperIssuer c 0 0x1D f v 0 0
/-- The device that finds it. -/
def putTo (c : Chip) (f : Enc) (v : Word) : State := sectionOf (keyed 0 c) 0 0x1D f v 0 0
theorem ready_put (c : Chip) (f : Enc) (v : Word) (h : f.d.toNat ≤ 3 ∧ f.a.toNat ≤ 3 ∧ c.dev.state = .run ∧
    c.dev.tripThisTick = false ∧ c.dev.hostStopped = false ∧ c.dev.hostCycles = 0 ∧ c.may .host = true) : Ready (putBy c f v) 0x1D f 4 (putTo c f v) :=
  ready_k 0 c 0x1D f 4 v 0 0 ⟨h.1, h.2.1, by decide, h.2.2⟩
/-- Thread 0 of a device with the value in W1. -/
def putFrom (c : Chip) (v : Word) : State := st ((thread0 c).modThread 0 fun x => { x with w := x.w.set 1 v })
/-- The PUT of W1 to channel ch of register i of block b. -/
def chan (b : BitVec 4) (i : BitVec 6) (ch : BitVec 16) : Enc := regImm ⟨1, 0, 2, ch⟩ b i

/-- ADMIT with a packet of KEEPER waiting. -/
def admitting : Chip := keyed 0 (runChip.modDev fun d => { d with state := .admitting })
theorem witness_go :
    let f := chan 0 0x08 0
    let p := signed admitting (plainPacket 0 0x100 0 0) 0x1D f
    let s := sent admitting p 0x1D f
    Ready (.host p) 0x1D f 4 s ∧ MayPut (.host p) f ⟨0, 0x08, 0⟩ s ∧ putValue (.host p) f s = 0x100 ∧ (whoOf (.host p) s).isSeat 0 = true ∧
      s.chip.dev.state = .admitting := by
  refine ⟨ready_sent (p := plainPacket 0 0x100 0 0) ?_ ?_ ?_ ?_ ?_ ?_, ?_⟩
  · decide +kernel
  · decide +kernel
  · decide +kernel
  · decide +kernel
  · decide +kernel
  · unfold Clear; decide +kernel
  · unfold MayPut Names; decide +kernel
theorem witness_islandreq :
    let f := chan 0xD 0x01 0
    let c := car0 .out runChip
    Ready (putBy runChip f 1) 0x1D f 4 (putTo runChip f 1) ∧ Ready (putBy c f 0) 0x1D f 4 (putTo c f 0) ∧
      (MayPut (putBy runChip f 1) f ⟨0xD, 0x01, 0⟩ (putTo runChip f 1) ∧ ((found (putBy runChip f 1) 4 (putTo runChip f 1)).cars[0]).on = false ∧
        (found (putBy runChip f 1) 4 (putTo runChip f 1)).noCredit (whoOf (putBy runChip f 1) (putTo runChip f 1)) = false ∧
        (putValue (putBy runChip f 1) f (putTo runChip f 1)).getLsbD 0 = true) ∧
      MayPut (putBy c f 0) f ⟨0xD, 0x01, 0⟩ (putTo c f 0) ∧ ((found (putBy c f 0) 4 (putTo c f 0)).cars[0]).service = .out ∧
        (putValue (putBy c f 0) f (putTo c f 0)).getLsbD 0 = false ∧ (found (putBy c f 0) 4 (putTo c f 0)).testRunning 0 = false :=
  ⟨ready_put _ _ _ (by decide +kernel), ready_put _ _ _ (by decide +kernel), by unfold MayPut Names; decide +kernel,
    by unfold MayPut Names; decide +kernel⟩
theorem witness_threadCommand :
    let f := chan 3 0x00 0
    let g := fun v => putTo (ready0 runChip) f v
    let i := fun v => putBy (ready0 runChip) f v
    (Ready (i 0x10000000) 0x1D f 4 (g 0x10000000) ∧ Ready (i 0x20000000) 0x1D f 4 (g 0x20000000)) ∧
      (MayPut (i 0x10000000) f ⟨3, 0x00, 0⟩ (g 0x10000000) ∧ (found (i 0x10000000) 4 (g 0x10000000)).restartWindow 0 < 3 ∧
        (slice (putValue (i 0x10000000) f (g 0x10000000)) 28 4).toNat = 1) ∧
      MayPut (i 0x20000000) f ⟨3, 0x00, 0⟩ (g 0x20000000) ∧ (found (i 0x20000000) 4 (g 0x20000000)).haltRefused 0 = false ∧
        (slice (putValue (i 0x20000000) f (g 0x20000000)) 28 4).toNat = 2 :=
  ⟨⟨ready_put _ _ _ (by decide +kernel), ready_put _ _ _ (by decide +kernel)⟩, by unfold MayPut Names; decide +kernel,
    by unfold MayPut Names; decide +kernel⟩

/-- What every audited PUT by KEEPER needs. -/
def Audited (c : Chip) (f : Enc) (r : RegRef) (v : Word) : Prop :=
  Ready (putBy c f v) 0x1D f 4 (putTo c f v) ∧ MayPut (putBy c f v) f r (putTo c f v) ∧
    Clear ((found (putBy c f v) 4 (putTo c f v)).auditRefusals (whoOf (putBy c f v) (putTo c f v)) 1) ∧
    (whoOf (putBy c f v) (putTo c f v)).isSeat 0 = true ∧ putValue (putBy c f v) f (putTo c f v) = v
theorem witness_readmit : Audited runChip (chan 0 0x08 0) ⟨0, 0x08, 0⟩ 0xA5D10000 :=
  ⟨ready_put _ _ _ (by decide +kernel), by unfold MayPut Names Clear; decide +kernel⟩
theorem witness_zeroize : Audited runChip (chan 2 0x17 0) ⟨2, 0x17, 0⟩ 0x9E0C0006 :=
  ⟨ready_put _ _ _ (by decide +kernel), by unfold MayPut Names Clear; decide +kernel⟩
theorem witness_unlock : Audited runChip (chan 2 0x00 0) ⟨2, 0x00, 0⟩ 1 :=
  ⟨ready_put _ _ _ (by decide +kernel), by unfold MayPut Names Clear; decide +kernel⟩
theorem witness_keeperSecWrite :
    Audited runChip (chan 2 0x0A 0) ⟨2, 0x0A, 0⟩ 0x2008 ∧ outside 1 32 (slice (0x2008 : Word) 8 6).toNat = false ∧
      outside 1 8 (slice (0x2008 : Word) 0 4).toNat = false ∧ Audited runChip (chan 2 0x0D 0) ⟨2, 0x0D, 0⟩ 256 ∧
      outside 256 1000000 (slice (256 : Word) 0 20).toNat = false ∧ Audited runChip (chan 2 0x10 0) ⟨2, 0x10, 0⟩ 1 ∧
      Audited runChip (chan 2 0x13 0) ⟨2, 0x13, 0⟩ 2047 ∧ outside 64 2047 (slice (2047 : Word) 0 11).toNat = false :=
  ⟨⟨ready_put _ _ _ (by decide +kernel), by unfold MayPut Names Clear; decide +kernel⟩, by decide, by decide,
    ⟨ready_put _ _ _ (by decide +kernel), by unfold MayPut Names Clear; decide +kernel⟩, by decide,
    ⟨ready_put _ _ _ (by decide +kernel), by unfold MayPut Names Clear; decide +kernel⟩,
    ⟨ready_put _ _ _ (by decide +kernel), by unfold MayPut Names Clear; decide +kernel⟩, by decide⟩
theorem witness_securemask : Audited runChip (chan 2 0x11 3) ⟨2, 0x11, 3⟩ 0xFFFFFFFF :=
  ⟨ready_put _ _ _ (by decide +kernel), by unfold MayPut Names Clear; decide +kernel⟩
theorem witness_tapctl :
    let f := chan 2 0x16 0
    let p := signed admitting (plainPacket 0 1 0 0) 0x1D f
    let s := sent admitting p 0x1D f
    Ready (.host p) 0x1D f 4 s ∧ MayPut (.host p) f ⟨2, 0x16, 0⟩ s ∧ (found (.host p) 4 s).running = false ∧
      Clear ((found (.host p) 4 s).auditRefusals (whoOf (.host p) s) 1) := by
  refine ⟨ready_sent (p := plainPacket 0 1 0 0) ?_ ?_ ?_ ?_ ?_ ?_, ?_⟩
  · decide +kernel
  · decide +kernel
  · decide +kernel
  · decide +kernel
  · decide +kernel
  · unfold Clear; decide +kernel
  · unfold MayPut Names Clear; decide +kernel
theorem witness_spsPut :
    let f := chan 4 0x0B 0
    let m : SpsId := .car 0 0
    Audited runChip f ⟨4, 0x0B, 0⟩ 17000000 ∧ isSps 4 0x0B = true ∧ spsId 4 0x0B 0 = some m ∧
      (found (putBy runChip f 17000000) 4 (putTo runChip f 17000000)).spsRange
        (found (putBy runChip f 17000000) 4 (putTo runChip f 17000000)).projected m (17000000 &&& spsMask m) = false :=
  ⟨⟨ready_put _ _ _ (by decide +kernel), by unfold MayPut Names Clear; decide +kernel⟩, by decide +kernel, by decide +kernel, by decide +kernel⟩

/-- A car whose every condition for IN holds (R250): limits set, feedback, loop and drive ready, homed, at rest. -/
def readyCar (v : Service) : Chip :=
  let c := car0 v runChip
  let c : Chip :=
    { c with
      sps := ⟨Vector.replicate 9 (Vector.replicate 12 (some 1)), Vector.replicate 6 (Vector.replicate 24 (some 1)),
        Vector.replicate 7 (Vector.replicate 12 (some 1))⟩ }
  let q : FbkCfg := { (c.fbks[0]).act with mode := .quad, scale := 1 }
  let c := (c.modFbk 0 fun y => { y with cfg := q, act := q }).modFbk 1 fun y => { y with cfg := q, act := q }
  let l : LoopCfg := { (c.loops[72]).act with run := true, satMax := 1, div := 8 }
  (c.modLoop 72 fun y => { y with cfg := l, act := l }).modCar 0 fun x =>
    { x with loadValid := true, dpGood := true, dpStatus := 1, pulseOk := true, dpcfg := { x.dpcfg with en := true, turnMax := 1 } }

theorem witness_carRequests :
    let f := chan 4 0x00 0
    let out := putFrom (car0 .in_ runChip) 0x10000000
    let in_ := putFrom (readyCar .out) 0x20000000
    let insp := putFrom (readyCar .out) 0x30000000
    let clear := putFrom (readyCar .stoppedFault) 0x40000000
    let unmet := putFrom (car0 .out runChip) 0x20000000
    let i : Issuer := .thread 0
    (∀ s ∈ [out, in_, insp, clear, unmet], MayPut i f ⟨4, 0x00, 0⟩ s) ∧ (∀ s ∈ [out, in_, insp, clear, unmet], Ready i 0x1D f 4 s) ∧
      (slice (putValue i f out) 28 4).toNat = 1 ∧ ((found i 4 out).cars[0]).service = .in_ ∧ ((found i 4 out).axes[0]).st = .idle ∧
      ((found i 4 out).axes[0]).queue = [] ∧
      (slice (putValue i f in_) 28 4).toNat = 2 ∧ (found i 4 in_).unmet 0 &&& 0x7FF = 0 ∧ (found i 4 in_).testRunning 0 = false ∧
      (slice (putValue i f insp) 28 4).toNat = 3 ∧ (found i 4 insp).unmet 0 &&& 0x7E7 = 0 ∧
      (slice (putValue i f clear) 28 4).toNat = 4 ∧ (found i 4 clear).unmet 0 &&& 0x600 = 0 ∧
      (found i 4 unmet).unmet 0 &&& 0x7FF ≠ 0 := by
  unfold Ready SlotFits MayPut Names; decide +kernel

theorem witness_hostCarRequest :
    let f := chan 4 0x00 0
    let c := car0 .out runChip
    let i := putBy c f 0x20000000
    let s := putTo c f 0x20000000
    Ready i 0x1D f 4 s ∧ MayPut i f ⟨4, 0x00, 0⟩ s ∧ (slice (putValue i f s) 28 4).toNat = 2 ∧ ((found i 4 s).cars[0]).service = .out ∧
      (found i 4 s).testRunning 0 = false ∧ (found i 4 s).unmet 0 &&& 0x7FF ≠ 0 :=
  ⟨ready_put _ _ _ (by decide +kernel), by unfold MayPut Names; decide +kernel⟩

/-- Memory with a landing table of two landings at 0, a schedule at word 64 and a coefficient block at 512. -/
def tableMem : Mems :=
  let r := State.reset.mem.ram
  let r := (((r.writeLE 8 0).writeLE 16 0xFFFFFFF0).writeLE 20 0x10)
  let r := (((r.writeLE 24 4000000).writeLE 28 1).writeLE 32 3999000).writeLE 36 4001000
  let r := ((r.writeLE 256 2).writeLE 260 0x4000).writeLE 264 (0x8000 + 600)
  { State.reset.mem with ram := r.writeLE 512 2 }
theorem witness_carTables :
    let f := chan 4 0x07 0
    let g := chan 4 0x1B 0
    let two := (car0 .out runChip).modCar 0 fun x => { x with count := 2 }
    let s : State := { putFrom two 0 with mem := tableMem }
    let t : State := { putFrom two 0x00400005 with mem := tableMem }
    let i : Issuer := .thread 0
    (Ready i 0x1D f 4 s ∧ MayPut i f ⟨4, 0x07, 0⟩ s ∧ ((found i 4 s).cars[0]).service = .out ∧
      (s.mem.landingTable (slice (putValue i f s) 0 18 : BitVec 18).toNat ((found i 4 s).cars[0]).count.toNat).isSome = true ∧
      s.chip.badWord 0 (wordsOf 0 40) = none) ∧
      Ready i 0x1D g 4 t ∧ MayPut i g ⟨4, 0x1B, 0⟩ t ∧
      (t.mem.schedule (slice (putValue i g t) 16 16 : BitVec 16).toNat).isSome = true ∧ t.chip.badWord 0 (wordsOf 256 12) = none := by
  unfold Ready SlotFits MayPut Names; decide +kernel

theorem witness_DoorRequestsAreAnswered :
    let f := chan 5 0x00 0
    let i : Issuer := .thread 0
    let s := fun w v => putFrom (door0 w (car0 .in_ runChip)) v
    (∀ x ∈ [s .closing 0x10000000, s .reversing 0x10000000, s .closing 0x20000000, s .fault 0x30000000],
      MayPut i f ⟨5, 0x00, 0⟩ x ∧ ((found i 4 x).doors[0]).inUse = true ∧ ((found i 4 x).axes[12]).engaged = none) ∧
    (∀ x ∈ [s .closing 0x10000000, s .reversing 0x10000000, s .closing 0x20000000, s .fault 0x30000000], Ready i 0x1D f 4 x) ∧
      (slice (putValue i f (s .closing 0x10000000)) 28 4).toNat = 1 ∧ (slice (putValue i f (s .closing 0x20000000)) 28 4).toNat = 2 ∧
      (slice (putValue i f (s .fault 0x30000000)) 28 4).toNat = 3 ∧ ((found i 4 (s .fault 0x30000000)).doors[0]).speed = 0 ∧
      ((found i 4 (s .fault 0x30000000)).doors[0]).tempBad = false := by
  unfold Ready SlotFits MayPut Names; decide +kernel

theorem witness_DoorTablesAndLearn :
    let f := chan 5 0x1B 0
    let g := chan 5 0x1F 0
    let i : Issuer := .thread 0
    let c := door0 .closed (car0 .out runChip)
    let s := fun v => putFrom c v
    let t := putFrom (c.modCar 0 fun x => { x with ilk := { x.ilk with out := 4 } }) (0x80000000 + (5 <<< 20) + (100 <<< 10) + 900)
    (∀ x ∈ [s 0x01000000, s 0x80000000], Ready i 0x1D f 4 x ∧ MayPut i f ⟨5, 0x1B, 0⟩ x ∧
      ((found i 4 x).cars[(carOfDoor 0).val]).service = .out) ∧
    (found i 4 (s 0x80000000)).sineHeld (slice (putValue i f (s 0x80000000)) 28 2) = false ∧
      0 ≤ (((found i 4 (s 0x80000000)).sineStored 0).getD 1 0).toNat ∧
    Ready i 0x1D g 4 t ∧ MayPut i g ⟨5, 0x1F, 0⟩ t ∧ (putValue i g t).getLsbD 31 = true ∧ ((found i 4 t).doors[0]).st = .closed ∧
      (slice (putValue i g t) 10 10 : BitVec 10) = 100 ∧ (slice (putValue i g t) 0 10 : BitVec 10) = 900 ∧
      (slice (putValue i g t) 20 8 : Byte) = 5 ∧ ((found i 4 t).axes[12]).homed = true ∧ ((found i 4 t).axes[12]).st = .idle ∧
      ((found i 4 t).axes[12]).queue = [] ∧ (found i 4 t).doorLow 0 = false := by
  unfold Ready SlotFits MayPut Names; decide +kernel

theorem witness_camsel :
    let f := chan 8 0x0C 0
    let i : Issuer := .thread 0
    let c := car0 .out runChip
    let s := putFrom c 0x02001234
    let t := putFrom (c.modAxis 0 fun x => { x with camStage := some (1, 0, 0x1234) }) 0x22005678
    (Ready i 0x1D f 4 s ∧ MayPut i f ⟨8, 0x0C, 0⟩ s ∧ (found i 4 s).tableEngaged (slice (putValue i f s) 25 4) = false ∧
      (putValue i f s).getLsbD 29 = false) ∧
    (Ready i 0x1D f 4 t ∧ MayPut i f ⟨8, 0x0C, 0⟩ t ∧ (found i 4 t).tableEngaged (slice (putValue i f t) 25 4) = false ∧
      (putValue i f t).getLsbD 29 = true ∧
      (t.chip.axes[0]).camStage = some (slice (putValue i f t) 25 4, slice (putValue i f t) 16 9, 0x1234)) := by
  unfold Ready SlotFits MayPut Names; decide +kernel
theorem witness_loopMode :
    let f := chan 7 0x00 8
    let g := regImm ⟨1, 0, 3, 8⟩ 7 0x00
    let i : Issuer := .thread 0
    let c := car0 .out runChip
    let s := putFrom c 0x100
    let t := putFrom (c.modLoop 72 fun x => { x with fault := 1 }) 1
    (Ready i 0x1D g 4 s ∧ MayPut i g ⟨7, 0x00, 72⟩ s ∧ (putValue i g s).getLsbD 8 = true ∧ (putValue i g s).getLsbD 0 = false) ∧
    (Ready i 0x1D g 4 t ∧ MayPut i g ⟨7, 0x00, 72⟩ t ∧ (putValue i g t).getLsbD 8 = false ∧ (putValue i g t).getLsbD 0 = true ∧
      t.chip.loopHeld 72 = false ∧ (t.chip.loops[72]).fault ≠ 0) ∧ f ≠ g := by
  unfold Ready SlotFits MayPut Names; decide +kernel
theorem witness_channels :
    let i : Issuer := .thread 0
    let c := car0 .out runChip
    let s : State := { putFrom c 512 with mem := tableMem }
    let t := putFrom c 0x12
    (Ready i 0x1D (chan 6 0x06 0) 4 s ∧ MayPut i (chan 6 0x06 0) ⟨6, 0x06, 0⟩ s) ∧
    (Ready i 0x1D (chan 9 0x09 0) 4 s ∧ MayPut i (chan 9 0x09 0) ⟨9, 0x09, 0⟩ s ∧
      (s.mem.coefBlock (slice (putValue i (chan 9 0x09 0) s) 0 18 : BitVec 18).toNat).isSome = true ∧
      ((found i 4 s).cars[(carOfFe 0).val]).service = .out ∧ (found i 4 s).calPending 0 = false) ∧
    (Ready i 0x1D (chan 0xB 0x03 0) 4 t ∧ MayPut i (chan 0xB 0x03 0) ⟨0xB, 0x03, 0⟩ t ∧
      ckMask ((found i 4 t).scan.cks[0]).cfg.sel (putValue i (chan 0xB 0x03 0) t) = putValue i (chan 0xB 0x03 0) t ∧
      (found i 4 t).ckPending 0 = false) ∧
    (Ready i 0x1D (chan 0xA 0x0C 0) 4 t ∧ MayPut i (chan 0xA 0x0C 0) ⟨0xA, 0x0C, 0⟩ t) := by
  unfold Ready SlotFits MayPut Names; decide +kernel

theorem witness_settings :
    let i : Issuer := .thread 0
    let c := door0 .closed (car0 .out runChip)
    (∀ x ∈ ([(chan 4 0x06 0, ⟨4, 0x06, 0⟩, 2), (chan 4 0x06 0, ⟨4, 0x06, 0⟩, 128), (chan 5 0x0D 0, ⟨5, 0x0D, 0⟩, 9),
        (chan 6 0x11 0, ⟨6, 0x11, 0⟩, 9), (chan 7 0x02 0, ⟨7, 0x02, 0⟩, 9), (chan 8 0x0B 0, ⟨8, 0x0B, 0⟩, 1000000),
        (chan 9 0x0C 0, ⟨9, 0x0C, 0⟩, 9), (chan 0xB 0x01 0, ⟨0xB, 0x01, 0⟩, 9)] : List (Enc × RegRef × Word)),
      Ready i 0x1D x.1 4 (putFrom c x.2.2) ∧ MayPut i x.1 x.2.1 (putFrom c x.2.2) ∧ putValue i x.1 (putFrom c x.2.2) = x.2.2) ∧
      ((found i 4 (putFrom c 9)).cars[(carOfFbk 0).val]).service = .out ∧ gainBad ((found i 4 (putFrom c 9)).loops[0]).cfg.bfp 9 = false ∧
      (found i 4 (putFrom c 9)).calPending 0 = false := by
  unfold Ready SlotFits MayPut Names; decide +kernel
/-- A PUT of KEEPER may write the register with the value. -/
def Settable (f : Enc) (r : RegRef) (v : Word) : Prop :=
  Ready (putBy runChip f v) 0x1D f 4 (putTo runChip f v) ∧ MayPut (putBy runChip f v) f r (putTo runChip f v) ∧
    putValue (putBy runChip f v) f (putTo runChip f v) = v
theorem witness_TwelveSettingsAreStored :
    Settable (chan 1 0x05 0) ⟨1, 0x05, 0⟩ 1 ∧ Settable (chan 1 0x05 0) ⟨1, 0x05, 0⟩ 16 ∧ Settable (chan 3 0x06 0) ⟨3, 0x06, 0⟩ 4 ∧
      Settable (chan 3 0x06 0) ⟨3, 0x06, 0⟩ 4096 ∧ Settable (chan 0xC 0x07 1) ⟨0xC, 0x07, 1⟩ 9 ∧
      Settable (chan 0xD 0x05 0) ⟨0xD, 0x05, 0⟩ 0x100 ∧ Settable (chan 0 0x00 0) ⟨0, 0x00, 0⟩ 1 :=
  ⟨⟨ready_put _ _ _ (by decide +kernel), by unfold MayPut Names; decide +kernel⟩,
    ⟨ready_put _ _ _ (by decide +kernel), by unfold MayPut Names; decide +kernel⟩,
    ⟨ready_put _ _ _ (by decide +kernel), by unfold MayPut Names; decide +kernel⟩,
    ⟨ready_put _ _ _ (by decide +kernel), by unfold MayPut Names; decide +kernel⟩,
    ⟨ready_put _ _ _ (by decide +kernel), by unfold MayPut Names; decide +kernel⟩,
    ⟨ready_put _ _ _ (by decide +kernel), by unfold MayPut Names; decide +kernel⟩,
    ⟨ready_put _ _ _ (by decide +kernel), by unfold MayPut Names; decide +kernel⟩⟩
/-! ### Witnesses: the machine as a whole -/

theorem witness_StepKeepsMemoryCanonical : s0.mem.wf = true ∧ ∃ t, step { s0 with pending := [.sckResume] } = .next t :=
  ⟨by decide +kernel, _, rfl⟩
/-- A device in DARK with nothing waiting. -/
def sDark : State := st (runChip.modDev fun d => { d with state := .dark })
theorem witness_DarkIsLeftByLeaveDarkAlone :
    sDark.chip.dev.state = .dark ∧ sDark.chip.lnk.section_ = [] ∧ sDark.chip.sec.audits = [] ∧ ∃ t, exec .sckResume sDark = .next t :=
  ⟨rfl, rfl, rfl, _, rfl⟩
theorem witness_MemoryChangesByStorersAlone : stores .sckResume = false ∧ ∃ t, exec .sckResume s0 = .next t := ⟨rfl, _, rfl⟩
theorem witness_RefusalIsFirstOfOrder :
    refusal [(false, .illegal), (true, .state), (true, .range)] = some .range ∧ refusal [(false, .illegal)] = none := by decide
/-- Session 1 with the entry of sequence 4 in effect. -/
def echoing : Chip := (keyed 1 runChip).modSession 1 fun x => { x with window := [⟨4, 9, .effect 77⟩] }
theorem witness_echo :
    echoing.sessionOf 1 = some 1 ∧ (echoing.sec.sessions[1]).entry 4 = some ⟨4, 9, .effect 77⟩ := by decide +kernel
theorem witness_HostOnlyInstructionsFaultInThreads : SlotFits 0 40 s0 := by unfold SlotFits; decide +kernel
theorem witness_hostAddresses :
    let f : Enc := ⟨1, 0, 0, 0xA000⟩
    let c := runChip.modSec fun x => { x with table := x.table.set 7 ((x.table[7]).set 0 0) }
    (hostMayAccess 0x9FFC = false ∧ hostMayAccess 0xA000 = true ∧ hostMayAccess 0xBFFC = true ∧ hostMayAccess 0xC000 = false ∧
      hostMayAccess 0xA002 = false ∧ hostMayAccess 0x30000 = false) ∧ c.classBit 7 6 0 = false ∧
    Ready (.host (openPacket 0 0 0)) 0x10 f 2 (sOpen c 0x10 f 0 0 0) ∧
    (∀ i : Issuer, i = keeperIssuer runChip 0 0x10 f 0 0 0 → Ready i 0x10 f 2 (sectionOf (keyed 0 runChip) 0 0x10 f 0 0 0)) :=
  ⟨by decide, by decide +kernel, ready_open _ _ _ _ _ _ _ (by decide) (by decide) (by decide) (by decide +kernel),
    fun _ h => h ▸ ready_k _ _ _ _ _ _ _ _ (by decide +kernel)⟩

/-! ### Witnesses: trips, supplies, the link -/

/-- Every ratio 1,001 ppm off. -/
def deviating : Vector (BitVec 20) 16 :=
  #v[1001, 1001, 1001, 1001, 1001, 1001, 1001, 1001, 1001, 1001, 1001, 1001, 1001, 1001, 1001, 1001]
theorem witness_deviating : ∀ d ∈ deviating.toList, 1000 < d.toNat := by
  intro d h
  exact of_decide_eq_true (List.all_eq_true.mp (by decide : (deviating.toList.all fun d => decide (1000 < d.toNat)) = true) d h)
theorem witness_TripEventsTrip :
    let c := runChip.modLnk fun l => { l with darkRun := l.act.darkMax, defRun := l.act.darkMax }
    let c := c.modDev fun d => { d with hotRun := 4 }
    c.lnk.sckRunning = true ∧ c.lnk.act.darkMax.toNat ≤ c.lnk.darkRun.toNat ∧ c.lnk.act.darkMax.toNat ≤ c.lnk.defRun.toNat ∧
      4 ≤ c.dev.hotRun.toNat ∧ 8000 ≤ (8000 : BitVec 32).toNat ∧ 16 ≤ (16 : BitVec 8).toNat ∧
      (10 * (0 : BitVec 16).toNat < (tripLevels c 1).1 ∧ 10 * (2999 : BitVec 16).toNat < (tripLevels c 1).1 ∧
        10 * (2999 : BitVec 16).toNat ≤ (tripLevels c 1).2 ∧ ¬ 10 * (3000 : BitVec 16).toNat < (tripLevels c 1).1) ∧
      ((tripLevels c 1).2 < 10 * (3601 : BitVec 16).toNat ∧ ¬ (tripLevels c 1).2 < 10 * (3600 : BitVec 16).toNat) := by decide +kernel
theorem witness_laterTrip :
    let c := runChip.modDev fun d => { d with state := .tripped, cause := 2, tripAt := some (4999, 0) }
    c.dev.state = .tripped ∧ c.dev.cause ≠ 4 ∧ c.dev.tripAt ≠ some (c.dev.tick, (100 : BitVec 14)) := by decide +kernel

theorem witness_SupplyAndResetEvents :
    50 ≤ (50 : BitVec 32).toNat ∧ runChip.dev.state ≠ .dark ∧ belowPor 0 699 = true ∧ belowPor 0 700 = false ∧
      sDark.chip.dev.state = .dark ∧ (∀ r : Fin 5, belowPor r (#v[1000, 3300, 3300, 5000, 1800] : Vector (BitVec 16) 5)[r.val] = false) ∧
      10 * (3099 : BitVec 16).toNat < warnLevel runChip 1 ∧ warnLevel runChip 1 ≤ 10 * (3100 : BitVec 16).toNat ∧
      (let c := runChip.modPwr fun p => { p with due := true }
       c.running = true ∧ c.pwr.due = true ∧ c.pwr.act.slackLo.toNat ≤ c.pwr.act.slackHi.toNat) ∧
      (let c : Chip := Chip.modSec admitting fun x => { x with tapEn := true }
       c.running = false ∧ c.dev.state ≠ .dark ∧ c.sec.tapEn = true ∧ c.sec.tap ≠ .shiftDr ∧ c.sec.tap ≠ .shiftIr) ∧
      belowPor 1 0 = true ∧ (#v[1000, 3300, 0, 5000, 1800] : Vector (BitVec 16) 5)[2] = 0 := by decide +kernel

/-- A header with its CRC. -/
def headerOf (n : BitVec 40) : Header :=
  let h : Header := ⟨downSync, n, 77, #v[0, 0, 0, 0], 0, 0⟩
  { h with crc := crc16 (headerBytes h) }
/-- Three such headers TICKLEN apart. -/
def huntOf (ticklen : BitVec 14) : HuntLock :=
  ⟨headerOf 1, headerOf 2, headerOf 3, ticklen, ticklen, 0, 0, 0, 0, 0, quietInputs⟩
theorem witness_LinkEventsTakeEffect :
    (let trial : EqTrial := ⟨.sck, 3, 100, 4744⟩
     let c := runChip.modLnk fun l => { l with eqTrial := some trial }
     c.linkUp = true ∧ c.lnk.adaptHold = false ∧ c.lnk.eqTrial = some trial ∧ 256 ≤ (c.dev.tick - trial.start).toNat ∧
       ((c.dev.tick - 1) - trial.start).toNat < 256) ∧
    (runChip.linkUp = true ∧ runChip.lnk.adaptHold = false ∧ runChip.lnk.eqTrial = none ∧ runChip.lnk.lastTrial = none ∧
      ¬ runChip.lnk.act.eqMax.toNat ≤ (runChip.lnk.boost .sck).toNat ∧ runChip.lnk.act.eqMin.toNat ≤ (runChip.lnk.boost .sck).toNat) ∧
    (State.reset.chip.dev.state = .hunt ∧ huntConsistent (huntOf 4000) = true ∧ huntConsistent (huntOf 12500) = true ∧
      State.reset.chip.dev.pendingTrips = [] ∧ ∀ v ∈ quietInputs.slack.toList, 4 < v.toNat) ∧
    (runChip.linkUp = true ∧ runChip.lnk.frameIn = false ∧ headerGood (headerOf 9) = true ∧ runChip.lnk.darkRun ≠ 31) ∧
    (let c := State.reset.chip.modDev fun d => { d with pendingTrips := [(9, 0x130)] }
     c.dev.state = .hunt ∧ c.dev.pendingTrips = [(9, 0x130)]) ∧
    runChip.lnk.noFit = false ∧ runChip.lnk.slot = none ∧ runChip.lnk.defRun ≠ 31 := by decide +kernel
theorem witness_SlotIsSentOrDeferred :
    let c := runChip.modLnk fun l => { l with defRun := l.act.darkMax }
    let d := runChip.modLnk fun l => { l with defRun := l.act.darkMax - 1 }
    runChip.linkUp = true ∧ runChip.lnk.noFit = false ∧ runChip.lnk.slot = none ∧ runChip.lnk.deferred = false ∧
      runChip.badWord 3 (fun _ => true) = none ∧ c.lnk.sckRunning = true ∧ c.dev.state = .run ∧
      c.lnk.act.darkMax.toNat ≤ c.lnk.defRun.toNat ∧ d.lnk.defRun.toNat < d.lnk.act.darkMax.toNat := by decide +kernel
theorem witness_TickStartAdvancesTime :
    runChip.linkUp = true ∧ runChip.lnk.frameIn = false ∧ (runChip.modLnk fun l => { l with frameIn := true }).linkUp = true ∧
    (let c := car0 .out runChip
     c.linkUp = true ∧ c.running = true ∧ (c.cars[0]).powerOff = false ∧ (c.cars[0]).on = true) ∧
    (let c := (car0 .out runChip).modCar 0 fun x => { x with goto := some .inspect }
     (c.cars[0]).goto = some .inspect ∧ (c.cars[0]).faultActive = false ∧ (c.cars[0]).powerOff = false) ∧
    (((car0 .out runChip).modCar 0 fun x => { x with powerOff := true }).cars[0]).powerOff = true ∧
      carOfAxis 13 = 0 ∧ carOfThread 12 = some 0 ∧ runChip.changeDue = false ∧ runChip.scanStop = some 6250 ∧
      runChip.scanFails 6250 = false ∧
      ({ runChip with
          flaws := [⟨0, 1, true⟩],
          scan := { runChip.scan with running := some ⟨⟨0, (runChip.scan.cks[0]).cfg, 0, 0, 5, none, none, 4998, 0⟩, 4999, 0, 0, []⟩ } } :
        Chip).scanFails 6250 = true := by
  decide +kernel
/-- Car 0 on a run, with a schedule, a hoistway switch, its second tap in use and a closing door. -/
def ticking : Chip :=
  let r : RunTime := ⟨true, 9⟩
  let sc : Schedule := ⟨60, [(7560, 0), (7650, 1)]⟩
  let c := (readyCar .in_).modCar 0 fun x => { x with run := r, schedule := some sc, modeHold := false }
  let c := c.modIlk 0 fun i => { i with permit := 5, missed := 4, skip := #v[0, 1, 0], test := none }
  let c := door0 .closing (c.modFbk 1 fun y => { y with cfg := { y.cfg with mode := .switch, codes := 0xFF, swTicks := 1, dzLine := 0 } })
  { c with sps := (((c.sps.put (.ilk 0 0) 0x0200).put (.ilk 1 0) 0xC0400A03).put (.car 6 0) 5).put (.door 0 0) 100 }
/-- Inputs of a tick in which its switch, its enables, its taps and its motor current change. -/
def busyInputs (slack : BitVec 6) : TickInputs :=
  let q := quietInputs
  { q with
    pads := Vector.replicate 12 3, readbacks := Vector.replicate 12 1, switches := Vector.replicate 12 1, slack := q.slack.set 3 slack,
    tapMv := (q.tapMv.set 0 5251).set 1 5150, current := Vector.replicate 24 (4095, 4095), temp := 8000 }
/-- The device after the boundary of that tick. -/
def ticked (slack : BitVec 6) : Chip :=
  match exec (.tickStart (busyInputs slack)) (st ticking) with
  | .next t => t.chip
  | _ => ticking
theorem witness_tickOfCar :
    let c := ticking
    let t := ticked 5
    let y := t.cars[0]
    (c.linkUp = true ∧ c.changeDue = false ∧ (c.cars[0]).powerOff = false ∧ (c.cars[0]).on = true ∧ (c.cars[0]).goto = none) ∧
    ((c.cars[0]).run.running = true ∧ (c.cars[0]).schedule = some ⟨60, [(7560, 0), (7650, 1)]⟩ ∧ (c.cars[0]).modeHold = false ∧
      (Schedule.select ⟨60, [(7560, 0), (7650, 1)]⟩ t.dev.wall).isSome = true ∧ ((readyCar .in_).cars[0]).run.running = false) ∧
    ((c.cars[0]).ilk.skip = #v[0, 1, 0] ∧ ((busyInputs 5).pads[0]).getLsbD 2 = false ∧ (c.cars[0]).ilk.permit.getLsbD 2 = true) ∧
    (∀ v ∈ (busyInputs 5).slack.toList, 4 < v.toNat) ∧ (∀ j : Fin 16, ((busyInputs 4).slack[3]).toNat ≤ ((busyInputs 4).slack[j.val]).toNat) ∧
    ((c.doors[0]).cfg.type ≠ .none ∧ (c.doors[0]).st ≠ .fault ∧ t.running = true ∧ c.sps.get (.door 0 0) = some 100 ∧
      3 * (100 : Word).toNat < 2 * (inputCurrent t.doors[0] 4095 (t.doors[0]).zeroU).toInt.natAbs) ∧
    ((c.fbks[1]).cfg.mode = .switch ∧ (c.cars[0]).service = .in_ ∧ c.sps.get (.car 6 0) = some 5 ∧ y.slipLast = 256 ∧ y.slipChecks = 1) ∧
    (5250 < ((busyInputs 5).tapMv[0]).toNat ∧ ((busyInputs 5).tapMv[1]).toNat ≤ 5150 ∧ c.tapUsed (carTap 0 1) = true ∧
      c.tapUsed (carTap 0 0) = false ∧ (c.thWin 0).isSome = true ∧ runChip.thWin 0 = none) := by decide +kernel

/-! ### Witnesses: admission, islands, self-tests, sessions, threads -/

/-- ADMIT at the start of step n + 1. -/
def atStep (n : Fin 5) : State :=
  st (runChip.modDev fun d => { d with state := .admitting, phase := BitVec.ofNat 4 (n.val + 1), steps := 0 })
theorem witness_admissionStep :
    (∀ n : Fin 5, (atStep n).chip.dev.state = .admitting ∧ (atStep n).chip.dev.phase.toNat = n.val + 1 ∧
      (atStep n).chip.dev.stepRun = false ∧ (atStep n).chip.dev.stepHold = false ∧ (atStep n).chip.lnk.sckRunning = true) ∧
      44 ∈ stepDomains 0 ∧ 53 ∈ stepDomains 4 ∧ runChip.badWord 5 (fun _ => true) = none ∧
      ({ runChip with flaws := [⟨5, 3, true⟩] } : Chip).badWord 5 (fun _ => true) = some 3 := by decide +kernel
/-- Step 3 with an image in the program store, a digest that sealed it and the state of the parameter set's seal. -/
def atDigest (sealed_ : Option (BitVec 256)) (v : Seal) : State :=
  { (atStep 2).act fun c => c.modSec fun x => { x with progSeal := sealed_, sealSt := v, spsDigest := c.sps.digest + 1 } with mem := imageMem }
theorem witness_stepThree :
    let words := fun (s : State) w => s.mem.lengthOk && decide (w < s.mem.imageLength)
    let s := fun d => atDigest (some d) .sealed_
    (∀ d, (s d).chip.sec.progSeal = some d ∧ (s d).mem.lengthOk = true ∧ (s d).chip.sec.sealSt = .sealed_ ∧
      (s d).chip.sps.digest ≠ (s d).chip.sec.spsDigest) ∧
    (atDigest none .open_).chip.sec.progSeal = none ∧ (atDigest none .open_).chip.sec.sealSt ≠ .sealed_ ∧
    (atStep 2).chip.badWord 1 (words (atStep 2)) = none ∧
    (let t := (atDigest none .open_).act fun c => { c with flaws := [⟨1, 299, true⟩, ⟨1, 300, true⟩] }
     t.chip.badWord 1 (words t) = some 299) := by
  refine ⟨fun d => ⟨rfl, show imageMem.lengthOk = true by decide +kernel, rfl, fun h => ?_⟩, rfl, by decide +kernel, by decide +kernel, by decide +kernel⟩
  have h2 : ∀ x : BitVec 256, x ≠ x + 1 := fun x h => absurd (congrArg BitVec.toNat h) (by simp; omega)
  exact h2 _ h
/-- Step 4 with a record of each area left in writing, one of them under a supply warning, and with a word that cannot be corrected. -/
theorem witness_stepFour :
    let torn : Mems := { State.reset.mem with journal := State.reset.mem.journal.writeBE 0 0x4F00008C }
    let s : State := { atStep 3 with mem := torn }
    s.chip.recoveryFault s.mem = none ∧ ((s.mem.slots 0 4096).filter fun v => decide (v.st = 0x4F)).length = 1 ∧ s.chip.warning = false ∧
      (s.chip.modPwr fun p => { p with live := 1 }).warning = true ∧
      (({ s.chip with flaws := [⟨3, 7, true⟩] } : Chip).recoveryFault s.mem).isSome = true := by decide +kernel
/-- The image with its magic word. -/
def sealedImage : Mems := { imageMem with prog := imageMem.prog.writeBE 0 0x7E1C0A55 }
/-- Step n + 1 at the end of the tick that is its given one. -/
def atStepEnd (n : Fin 5) (age : Nat) (f : Chip → Chip) : State :=
  (atStep n).act fun c => f (c.modDev fun d => { d with stepRun := true, stepStart := BitVec.ofNat 48 (5001 - age) })
theorem witness_stepEnds :
    (∀ n : Fin 5, ∀ f ∈ [id, fun c : Chip => c.modDev fun d => { d with steps := 0x10 }], let c := (atStepEnd n 512 f).chip
      c.linkUp = true ∧ c.changeDue = false ∧ c.dev.state = .admitting ∧ c.dev.stepRun = true ∧ c.dev.rerun = false ∧ c.scanStop = none) ∧
    (∀ x ∈ ([(0, 64), (1, 512), (2, 512), (3, 512), (4, 400)] : List (Fin 5 × Nat)),
      let age := fun (n : Nat) => ((atStepEnd x.1 n id).chip.dev.tick + 1 - (atStepEnd x.1 n id).chip.dev.stepStart).toNat
      age x.2 = x.2 ∧ age (x.2 - 1) = x.2 - 1) ∧
    (atStepEnd 2 512 id).chip.sec.progSeal = none ∧ imageMem.imageOk = false ∧ (sealedImage.imageOk = true) := by decide +kernel
/-- The health tests stand n bits into a window of bits that alternate, the last of them b. -/
def Swings (s : Sec) (n : Nat) (b : Bool) : Prop :=
  n < 1024 ∧ s.entropyLen = BitVec.ofNat 11 n ∧ s.entropyRun.toNat ≤ 1 ∧ (s.entropyRun ≠ 0 → s.entropyBit = b) ∧
    (n ≠ 0 → s.entropyCount = BitVec.ofNat 11 ((n + 1) / 2) ∧ s.entropyFirst = (b == (n % 2 == 1)))

/-- One more bit that differs from the last passes, and they still alternate. -/
theorem swings_rawBit {s : Sec} {n : Nat} {b : Bool} (h : Swings s n b) :
    (s.rawBit !b).2 = 0 ∧ Swings (s.rawBit !b).1 ((n + 1) % 1024) !b := by
  obtain ⟨h1, h2, h3, h4, h5⟩ := h
  have hn : (BitVec.ofNat 11 n).toNat = n := by simp; omega
  have hz : BitVec.ofNat 11 n = 0 ↔ n = 0 := by
    rw [← BitVec.toNat_inj, hn]; rfl
  have hr : (if s.entropyRun ≠ 0 && decide ((!b) = s.entropyBit) then satInc s.entropyRun else 1 : BitVec 6) = 1 := by
    by_cases h : s.entropyRun = 0
    · simp [h]
    · rw [h4 h]; cases b <;> simp
  have hc : (if s.entropyLen = 0 then 0 else s.entropyCount)
      + (if (!b) = (if s.entropyLen = 0 then !b else s.entropyFirst) then 1 else 0) = BitVec.ofNat 11 ((n + 2) / 2) := by
    rw [h2]
    by_cases h0 : n = 0
    · subst h0; simp
    · simp only [if_neg (mt hz.mp h0), (h5 h0).1, (h5 h0).2]
      rcases Nat.mod_two_eq_zero_or_one n with e | e
      · rw [if_pos (by simp [e])]
        rw [show (1 : BitVec 11) = BitVec.ofNat 11 1 from rfl, BitVec.ofNat_add_ofNat]; congr 1; omega
      · rw [if_neg (by simp [e])]
        exact (BitVec.add_zero _).trans (by congr 1; omega)
  have hl : (if s.entropyLen.toNat + 1 = 1024 then 0 else s.entropyLen + 1) = BitVec.ofNat 11 ((n + 1) % 1024) := by
    rw [h2, hn]
    split
    · rw [‹n + 1 = 1024›]; rfl
    · rw [Nat.mod_eq_of_lt (by omega), show (1 : BitVec 11) = BitVec.ofNat 11 1 from rfl, BitVec.ofNat_add_ofNat]
  refine ⟨?_, by omega, hl, ?_, fun _ => rfl, fun h => ⟨hc.trans ?_, ?_⟩⟩
  · show (if 41 ≤ BitVec.toNat _ then (1 : BitVec 2) else if 840 < BitVec.toNat _ then 2 else 0) = 0
    rw [hr, hc, if_neg (by decide), if_neg (by simp; omega)]
  · show BitVec.toNat (if _ then _ else _) ≤ 1
    rw [hr]; decide
  · rw [Nat.mod_eq_of_lt (by omega)]
  · show (if s.entropyLen = 0 then !b else s.entropyFirst) = _
    have hm : (n + 1) % 1024 = n + 1 := Nat.mod_eq_of_lt (by omega)
    rw [h2, hm]
    by_cases h0 : n = 0
    · subst h0; simp
    · rw [if_neg (mt hz.mp h0), (h5 h0).2]
      rcases Nat.mod_two_eq_zero_or_one n with e | e
      · rw [show (n + 1) % 2 = 1 by omega, e]; cases b <;> rfl
      · rw [show (n + 1) % 2 = 0 by omega, e]; cases b <;> rfl

/-- Bits that alternate from the last one. -/
def swing (b : Bool) : Nat → List Bool
  | 0 => []
  | n + 1 => (!b) :: swing (!b) n
theorem swing_passes (k : Nat) : ∀ {s : Sec} {n : Nat} {b : Bool}, Swings s n b → (s.rawBits (swing b k)).2 = 0 := by
  induction k with
  | zero => intros; rfl
  | succ k ih =>
    intro s n b h
    have hb := swings_rawBit h
    show (if (s.rawBit !b).2 = 0 then ((s.rawBit !b).1.rawBits (swing (!b) k)).2 else (s.rawBit !b).2) = 0
    rw [if_pos hb.1]
    exact ih hb.2
theorem swing_length (b : Bool) (n : Nat) : (swing b n).length = n := by
  induction n generalizing b with
  | zero => rfl
  | succ n ih => exact congrArg (· + 1) (ih _)
/-- A word whose bits alternate from 0 at its top. -/
def swingBits (n : Nat) : BitVec n := (BitVec.ofBoolListBE (swing true n)).setWidth n
theorem swing_bits (n : Nat) : (List.range n).map (fun i => (swingBits n).getLsbD (n - 1 - i)) = swing true n := by
  refine List.ext_getElem (by simp [swing_length]) fun i h1 h2 => ?_
  rw [swing_length] at h2
  have := @BitVec.getMsbD_ofBoolListBE (swing true n) i
  rw [BitVec.getMsbD_eq_getLsbD, show (swing true n).length - 1 - i = n - 1 - i by rw [swing_length],
    decide_eq_true (by rwa [swing_length]), Bool.true_and] at this
  simp only [List.getElem_map, List.getElem_range, swingBits, BitVec.getLsbD_setWidth, show n - 1 - i < n by omega, decide_true,
    Bool.true_and]
  rw [this, List.getD_eq_getElem _ _ (by rwa [swing_length])]
theorem witness_startUp : (runChip.sec.startUp 0).2 ≠ 0 ∧ (runChip.sec.startUp (swingBits 4096)).2 = 0 := by
  refine ⟨by decide +kernel, ?_⟩
  rw [Sec.startUp, swing_bits 4096]
  exact swing_passes 4096 (n := 0) (b := true) (by unfold Swings; decide +kernel)
theorem witness_enterRun :
    let c := runChip.modDev fun d => { d with state := .admitting, phase := 6, digest := 1, go := true, tick := 2000 }
    let d := c.modThread 36 fun x => { x with budgetAct := 200, st := .halted }
    c.mayRun = true ∧ (∀ n : Fin 4, c.unfit n = []) ∧ d.mayRun = true ∧ (∀ n : Fin 4, d.unfit n = []) ∧ (d.threads[36]).st = .halted := by
  decide +kernel
theorem witness_islandPowerup :
    let c := runChip.modCar 3 fun x => { x with powerPending := true }
    let d := runChip.modCar 3 fun x => { x with power := .up 4808 }
    (c.running = true ∧ c.pwr.islandHold = false ∧ (∀ j : CarId, (c.cars[j.val]).rising = false) ∧ (c.cars[3]).powerPending = true ∧
      (c.cars[3]).powerFresh = false ∧ (∀ j : CarId, j < 3 → (c.cars[j.val]).powerPending = false) ∧ c.lnk.sckRunning = true) ∧
    (64 ≤ (d.dev.tick - 4808).toNat ∧ (9 : BitVec 6).toNat / 3 = 3) ∧
    ((d.cars[3]).power = .up 4808 ∧ d.running = true ∧ d.latching = true ∧ 192 ≤ (d.dev.tick - 4808).toNat ∧ (d.cars[3]).service = .islandOff ∧
      (d.cars[3]).threadFaultPending = false ∧
      ∀ z ∈ (#v[1984, 2048, 2048, 2112] : Vector (BitVec 12) 4).toList, zeroBad z = false) := by decide +kernel
theorem witness_ploadSealDone :
    let c := runChip.modSec fun x => { x with load := some ⟨1, 208, some (5, none)⟩ }
    let d := c.modDev fun x => { x with state := .admitting }
    d.sec.load = some ⟨1, 208, some (5, none)⟩ ∧ d.dev.state = .admitting ∧ d.warning = false ∧
      d.badWord 1 (fun w => decide (w < 208)) = none ∧ d.journal.queue.length < d.journal.places := by decide +kernel

/-- RUN with one self-test of car 0 started 512 ticks ago. -/
def sTesting (code : Byte) (w : List (Fin 3 × BitVec 12 × Bool)) (p : Option PulseTest) : State :=
  st ((runChip.modDev fun d => { d with tests := [⟨code, 0, 4488, none, w⟩] }).modIlk 0 fun i => { i with test := p })
theorem witness_SelftestsEnd :
    (∀ x ∈ ([(4, []), (3, []), (0x10, []), (0x11, []), (0x12, []), (1, [(0, 3, true)])] : List (Byte × List (Fin 3 × BitVec 12 × Bool))),
      (sTesting x.1 x.2 none).chip.dev.tests = [⟨x.1, 0, 4488, none, x.2⟩]) ∧
      ((sTesting 0x10 [] (some ⟨0, 0, 0, 0, 0, some 7⟩)).chip.cars[0]).ilk.test = some ⟨0, 0, 0, 0, 0, some 7⟩ ∧
      512 ≤ ((sTesting 0x12 [] none).chip.dev.tick - 4488).toNat ∧
      (bridgeDetail #v[0, 2400, 4800, BitVec.ofInt 16 (-4800)] 0 0 = 0 ∧ bridgeDetail #v[50, 2400, 4800, 4800] 0 0 = 1 ∧
        bridgeDetail #v[0, 2400, 4800, 4800] 0 41944 = 5) ∧
      (let c := (sTesting 0x11 [] none).chip.modDoor 0 fun x => { x with act := { x.act with type := .bdc } }
       let alone : Vector (Vector (BitVec 6) 6) 2 := Vector.replicate 2 #v[1, 2, 4, 8, 16, 32]
       c.gateFailure 0 alone (Vector.replicate 2 (Vector.replicate 3 0)) = none ∧
         c.gateFailure 0 (alone.set 0 #v[1, 2, 4, 8, 16, 48]) (Vector.replicate 2 (Vector.replicate 3 0)) = some (0, 6)) ∧
      (100 * (((5000 : Int) - 5000).natAbs) ≤ 2 * 5000 ∧ ¬ 100 * (((5101 : Int) - 5000).natAbs) ≤ 2 * 5000) ∧
      (let c := (sTesting 3 [] none).chip
       1024 * 16384 ≤ ((c.modDev fun d => { d with tick := 8000 }).dev.tick - 4488).toNat * c.lnk.ticklen.toNat) := by decide +kernel

theorem witness_SessionEventsClose :
    let c := (keyed 1 runChip).modSec fun x => { x with sessTo := 256, witnessTo := 255 }
    let open_ := fun (idle : BitVec 20) (macs : List (BitVec 48)) => c.modSession 1 fun x => { x with idle := idle, macTicks := macs }
    (((open_ 256 []).sec.sessions[1]).isOpen = true ∧ (open_ 256 []).sec.sessTo.toNat ≤ ((open_ 256 []).sec.sessions[1]).idle.toNat) ∧
    ((open_ 255 []).sec.sessions[1]).idle.toNat < (open_ 255 []).sec.sessTo.toNat ∧
    (recent 1024 5000 ((open_ 0 (List.replicate 15 3976)).sec.sessions[1]).macTicks).length
      < (open_ 0 (List.replicate 15 3976)).sec.macMaxSession.toNat ∧
    ((open_ 0 []).linkUp = true ∧ (open_ 0 []).changeDue = false ∧ ((open_ 0 []).sec.sessions[1]).closing = none ∧
      (((open_ 0 []).modSession 1 fun x => { x with closing := some 2 }).sec.sessions[1]).closing ≠ none) ∧
    c.seatCount 1 < c.sec.macMaxSeat.toNat ∧
    (open_ 0 (List.replicate 15 5000)).sec.macMaxSession.toNat
      ≤ (recent 1024 5000 ((open_ 0 (List.replicate 15 5000)).sec.sessions[1]).macTicks).length ∧
    (let l := c.modSec fun x => { x with seatFails := upd x.seatFails 2 fun _ => List.replicate 63 5000 }
     l.sec.macMaxSeat.toNat ≤ l.seatCount 2 ∧ l.sec.locked.getLsbD 2 = false ∧ l.sec.lockDue.getLsbD 2 = false) ∧
    (let h := fun (age : BitVec 16) => c.modSec fun x => { x with challenges := upd x.challenges 1 fun _ => some ⟨5, 0, age.setWidth _⟩ }
     ((h 256).sec.challenges[1]).isSome = true ∧ ((h 255).sec.challenges[1]).isSome = true) ∧
    (c.sec.witnessTo.toNat < 256 ∧ 255 ≤ c.sec.witnessTo.toNat) := by decide +kernel

/-- Thread 0 outside its slot. -/
def threadWith (f : Thread → Thread) : State := st ((thread0 runChip).modThread 0 fun x => f { x with slotLeft := 0 })
theorem witness_ThreadEventsRun :
    (let s : State := { threadWith id with mem := imageMem }
     s.chip.running = true ∧ s.chip.may .thread = true ∧ s.chip.lit 0 = true ∧
       s.chip.inTurn 0 (s.chip.slotStart 0) = true ∧ s.chip.scanFails (s.chip.slotStart 0 + 1) = false ∧
       s.chip.badWord 1 (fun w => decide (w = (s.chip.threads[0]).pc.toNat)) = none ∧ (s.chip.threads[0]).st = .ready ∧ (s.chip.threads[0]).ran = false ∧ (s.chip.threads[0]).mustRestart = false ∧
       (s.chip.threads[0]).budgetAct ≠ 0 ∧ s.mem.inImage 208 = true ∧ s.mem.inImage 299 = true ∧ s.mem.inImage 300 = false) ∧
    (let s := threadWith fun x => { x with st := .waiting, mask := 2, pend := 3 }
     (s.chip.threads[0]).st = .waiting ∧ (s.chip.threads[0]).deadline = none ∧ (s.chip.threads[0]).pend &&& (s.chip.threads[0]).mask ≠ 0) ∧
    (let s := fun n => threadWith fun x => { x with st := .waiting, mask := 2, pend := 0, deadline := some n }
     ((s 5000).chip.threads[0]).pend &&& ((s 5000).chip.threads[0]).mask = 0 ∧ (s 5000).chip.elapsed ((s 5000).chip.threads[0]) = true ∧
       (s 5001).chip.elapsed ((s 5001).chip.threads[0]) = false) ∧
    (let s := threadWith fun x => { x with stallMaxAct := 4, stallCnt := 4 }
     (s.chip.threads[0]).stallMaxAct ≠ 0 ∧ (s.chip.threads[0]).stallMaxAct.toNat ≤ (s.chip.threads[0]).stallCnt.toNat) ∧
    (let s := threadWith fun x => { x with mustRestart := true, restarts := [4000] }
     let t := threadWith fun x => { x with mustRestart := true, restarts := [4500, 4000] }
     let r : ScanRun := ⟨⟨0, (runChip.scan.cks[0]).cfg, 0, 0, 5, none, none, 4998, 0⟩, 4999, 0, 0, []⟩
     let u : Chip := { s.chip with flaws := [⟨0, 1, true⟩], scan := { runChip.scan with running := some r, cycle := 0 } }
     s.chip.restartWindow 0 < 2 ∧ 2 ≤ t.chip.restartWindow 0 ∧ (t.chip.threads[0]).mustRestart = true ∧
       u.scanFails (u.slotStart 0 + 1) = true) := by decide +kernel

/-! ### Witnesses: faults, the drive port, the enables -/

/-- Car 0 IN with every fault condition of a car at its limit. -/
def sFaulty : State :=
  let c := readyCar .in_
  let c : Chip := { c with sps := (c.sps.put (.car 7 0) 9).put (.ilk 5 0) 1 }
  let c := (c.modFbk 0 fun y => { y with errTicks := List.replicate 1023 5000 }).modFbk 1 fun y => { y with errTicks := List.replicate 1023 5000 }
  let q : LoopCfg := { (c.loops[72]).act with resBand := 1, resMax := 3, satMax := 4 }
  let c := c.modLoop 72 fun y => { y with act := q, resRun := 3, satRun := 4, ran := true, judged := true }
  let g : FbkCfg := { (c.fbks[0]).act with thresh := 5 }
  let c := (c.modFbk 0 fun y => { y with act := g }).modFbk 1 fun y => { y with act := g }
  let c := c.modIlk 0 fun i => { i with twice := 2, rbWhich := 1, pulseRun := 2 }
  st (c.modCar 0 fun x => { x with run := ⟨true, 9⟩, miss := 3, spdRun := 3, dpcfg := { x.dpcfg with missMax := 2, spdCnt := 3 } })
theorem witness_CarFaultEventsStopTheCar :
    let c := sFaulty.chip
    let x := c.cars[0]
    let y := c.loops[72]
    c.running = true ∧ x.service = .in_ ∧ (c.sps.get (.car 7 0) = some 9 ∧ x.run.running = true ∧ 9 ≤ x.run.ticks.toNat) ∧
      (c.fbks[0]).act.thresh.toNat < c.errorWindow 0 ∧ (c.fbks[1]).act.thresh.toNat < c.errorWindow 1 ∧
      x.dpcfg.missMax.toNat < x.miss.toNat ∧ x.dpcfg.spdCnt.toNat ≤ x.spdRun.toNat ∧ (x.on = true ∧ x.ilk.twice ≠ 0) ∧
      (c.may (.loop 84) = true ∧ y.ran = true ∧ y.judged = true ∧ y.fault = 0 ∧ y.resRun = y.act.resMax ∧ y.act.satMax ≠ 0 ∧
        y.act.satMax.toNat ≤ y.satRun.toNat) ∧
      (c.pulseChecked 0 = true ∧ 2 ≤ x.ilk.pulseRun.toNat) ∧ ((c.cars[1]).ilk.pulseRun.toNat < 2) := by decide +kernel
theorem witness_laterCarFault :
    let n := sFaulty.chip.stamp 0
    let c := fun (cause : Byte) (at_ : Nat) => sFaulty.chip.modCar 0 fun x =>
      { x with service := .stoppedFault, faultActive := true, faultCause := cause, faultAt := some at_, missAt := n + 40 }
    ((c 7 3).cars[0]).service = .stoppedFault ∧ ((c 7 3).cars[0]).faultCause ≠ 4 ∧
      ((c 7 3).cars[0]).dpcfg.missMax.toNat < ((c 7 3).cars[0]).miss.toNat ∧ 3 < n ∧ ((c 7 3).cars[0]).faultAt ≠ some (n + 40) ∧
      (n ≤ n + 41 ∧ n + 40 < n + 41 ∧ ((c 2 (n + 41)).cars[0]).faultAt = some (n + 41)) ∧
      (((c 7 (n + 40)).cars[0]).missAt = n + 40 ∧ 4 < ((c 7 (n + 40)).cars[0]).faultCause.toNat) := by
  decide +kernel

/-- The front door of car 0 closing with every fault condition of a door at its limit. -/
def doorFaulty : Chip :=
  let c := door0 .closing (car0 .in_ runChip)
  let c : Chip := { c with sps := (c.sps.put (.door 3 0) 9).put (.door 4 0) 9 }
  let l : LoopCfg := { (c.loops[0]).act with resBand := 1, resMax := 3, satMax := 4 }
  let c := c.modLoop 0 fun y => { y with act := l, resRun := 3, satRun := 4, ran := true, judged := true }
  c.modDoor 0 fun x => { x with hallRun := 2, commAt := some 7, keRun := 4, openTimer := 9, closeTimer := 9 }
theorem witness_DoorFaultEventsStopTheDoor :
    let c := doorFaulty
    let x := c.doors[0]
    let y := c.loops[0]
    let d := (doorFaulty.modDoor 1 fun _ => { doorFaulty.doors[0] with st := .closed }).modAxis 13 fun a => { a with engaged := some (1, 12) }
    (c.running = true ∧ x.inUse = true ∧ (c.cars[0]).on = true ∧ x.st ≠ .fault ∧ c.coupled 0 = false ∧ x.commAt = some 7 ∧
      4 ≤ x.keRun.toNat ∧ (c.sps.get (.door 3 0) = some 9 ∧ 9 ≤ x.openTimer.toNat ∧ x.openTimer ≠ 0) ∧
      (c.sps.get (.door 4 0) = some 9 ∧ 9 ≤ x.closeTimer.toNat ∧ x.closeTimer ≠ 0) ∧
      (c.may (.loop 84) = true ∧ y.ran = true ∧ y.judged = true ∧ y.fault = 0 ∧ y.resRun = y.act.resMax ∧ y.act.satMax ≠ 0 ∧
        y.act.satMax.toNat ≤ y.satRun.toNat)) ∧
    (let n := c.stamp 0
     let e := fun (cause : Byte) (at_ : Nat) => c.modDoor 0 fun x => { x with st := .fault, faultCause := cause, faultAt := some at_ }
     ((e 1 (n + 1)).doors[0]).st = .fault ∧ ((e 1 (n + 1)).doors[0]).faultAt = some (n + 1) ∧ ((e 7 n).doors[0]).faultAt = some n ∧
       n < n + 1 ∧ 4 < ((e 7 n).doors[0]).faultCause.toNat) ∧
    (d.running = true ∧ d.coupled 0 = true ∧ (d.doors[1]).inUse = true ∧ (d.doors[1]).st ≠ .fault ∧ (d.doors[0]).commAt ≠ none) := by
  decide +kernel

/-- Bytes of a reply of drive 0 with status v, with its CRC. -/
def replyOf (seq v : Byte) : List Byte :=
  let l : List Byte := [0xE9, 0x20, seq, v, 0, 0, 0, 0, 0, 0]
  l ++ bytesBE (crc16 l) 2
/-- Its samples on the pair: each character a start bit, eight bits from the lowest, and a stop bit. -/
def samplesOf (l : List Byte) : Vector (BitVec 3) 120 :=
  let bits := l.flatMap fun b => false :: ((List.range 8).map fun i => b.getLsbD i) ++ [true]
  Vector.ofFn fun n => if bits.getD n.val true then 7 else 0
theorem witness_DrivePortExchange :
    let c := (readyCar .in_).modDev fun d => { d with tick := 5000 }
    let w := c.modCar 0 fun x => { x with dpAwait := some 9 }
    (c.portRuns 0 = true ∧ c.lnk.sckRunning = true ∧ c.may .output = true ∧ c.frameDue 0 = true ∧ (c.cars[0]).dpAwait = none ∧
      (c.cars[0]).dpStart ≠ some c.dev.tick) ∧
    (w.portRuns 0 = true ∧ w.frameDue 0 = true ∧ (w.cars[0]).dpAwait = some 9 ∧ (w.cars[0]).dpStart ≠ some w.dev.tick ∧
      w.replyInTime 0 ⟨50, samplesOf (replyOf 9 1)⟩ = true ∧ w.replyInTime 0 ⟨49, samplesOf (replyOf 9 1)⟩ = false ∧
      w.replyInTime 0 ⟨51, samplesOf (replyOf 9 1)⟩ = false ∧ replyError 0 9 (replyOf 9 1) = 0 ∧ ((replyOf 9 1).getD 3 0).getLsbD 3 = false ∧
      replyError 0 9 (replyOf 9 8) = 0 ∧ ((replyOf 9 8).getD 3 0).getLsbD 3 = true ∧ replyError 0 9 (replyOf 8 1) = 4 ∧
      replyError 0 9 ((replyOf 9 1).set 11 0) = 2 ∧ replyError 1 9 (replyOf 9 1) = 3 ∧ (w.cars[0]).service = .in_) := by decide +kernel
/-- R265: a frame is read from its samples, with one sample of three wrong as well; a start bit that reads 1 is a framing error. -/
theorem test_frames :
    frameBytes (samplesOf (replyOf 9 1)) = some (replyOf 9 1) ∧ frameBytes ((samplesOf (replyOf 9 1)).set 11 4) = some (replyOf 9 1) ∧
      frameBytes ((samplesOf (replyOf 9 1)).set 10 7) = none := by decide +kernel

theorem witness_MatricesAndEnables :
    let c := readyCar .in_
    let d := c.modIlk 0 fun i => { i with rbFault := true }
    let e := c.modIlk 0 fun i => { i with test := some ⟨4, 2, 0, 0, 0, none⟩, zgrant := 1 }
    (c.cars[0]).on = true ∧ c.may (.close 0) = true ∧ (c.cars[0]).ilk.test = none ∧ (d.cars[0]).ilk.rbFault = true ∧ (runChip.sps.get (.ilk 1 0)) = none ∧
      (∀ n : Fin 7, (c.sps.get (.ilk n 0)).isSome = true) ∧ c.running = true ∧ c.scanFails c.closeCycle = false ∧
      (e.cars[0]).ilk.test = some ⟨4, 2, 0, 0, 0, none⟩ ∧ (⟨4, 2, 0, 0, 0, none⟩ : PulseTest).raises = 3 ∧
      ((e.cars[0]).ilk.zgrant.getLsbD 0 = true ∧ (e.cars[0]).zone = false) ∧
      c.lnk.sckRunning = true ∧ (c.modLnk fun l => { l with sckRunning := false }).lnk.sckRunning = false := by decide +kernel
theorem witness_matrixAfterBadWord :
    let r : ScanRun := ⟨⟨0, (runChip.scan.cks[0]).cfg, 0, 0, 5, none, none, 4998, 0⟩, 4999, 0, 0, []⟩
    let c : Chip := { (readyCar .in_) with flaws := [⟨0, 1, true⟩], scan := { runChip.scan with running := some r } }
    (c.cars[0]).on = true ∧ c.may (.close 0) = true ∧ c.running = true ∧ c.stage.place < 300 ∧ c.scanFails c.closeCycle = true ∧
      (readyCar .in_).scanFails (readyCar .in_).closeCycle = false := by decide +kernel
theorem witness_StepKeepsPumpingPermitted :
    enablesPermitted State.reset ∧
      enablesPermitted (st ((readyCar .in_).modIlk 0 fun i => { i with permit := 7, pump := 7 })) := by unfold enablesPermitted; decide +kernel

/-! ### Witnesses: motion and feedback -/

/-- Car 0 IN with its drive enables high and its drive ready, its axis at rest. -/
def driven (f : Axis → Axis) : Chip :=
  ((readyCar .in_).modCar 0 fun x => { x with dpStatus := 1, ilk := { x.ilk with out := 7 } }).modAxis 0 f
theorem witness_MotionEventsMoveTheAxis :
    let moving := driven fun a => { a with st := .moving, e := genPos 8000000 }
    let idle := driven fun a => { a with queue := [⟨.move, 4000000, none, none⟩] }
    let h : Homing := ⟨2, true, 0, 100, 100, 5000, 0⟩
    let homing := driven fun a => { a with st := .homing, homing := some (h, .event 77) }
    let faulted := driven fun a => { a with st := .moving, e := genPos 8000000, cmds := [.purge, .stop] }
    let low := moving.modIlk 0 fun i => { i with out := 5 }
    (moving.may (.profile 0) = true ∧ moving.axisRuns 0 = true ∧ (moving.startProfile.axes[0]).cmds = [] ∧ moving.driveLow 0 = false ∧
      (moving.startProfile.axes[0]).st = .moving) ∧
    (idle.axisRuns 0 = true ∧ (idle.startProfile.axes[0]).cmds = [] ∧ (idle.startProfile.axes[0]).st = .idle ∧
      (idle.startProfile.axes[0]).queue = [⟨.move, 4000000, none, none⟩] ∧
      (idle.cars[0]).relev = false ∧ idle.inRange 0 4000000 = true ∧ idle.startProfile.startHeld 0 false = false) ∧
    (homing.axisRuns 0 = true ∧ (homing.startProfile.axes[0]).cmds = [] ∧ (homing.startProfile.axes[0]).homing = some (h, .event 77)) ∧
    (low.driveLow 0 = true ∧ (low.startProfile.axes[0]).cmds = [] ∧ (low.startProfile.axes[0]).st = .moving ∧ low.axisRuns 0 = true) ∧
    (faulted.axisRuns 0 = true ∧ (faulted.startProfile.axes[0]).cmds = [.purge, .stop] ∧ (faulted.startProfile.axes[0]).st = .moving ∧
      (faulted.startProfile.axes[0]).engaged = none) := by decide +kernel
/-- The front door of car 0 opening, with its enable and its axis as given. -/
def doorMoving (out : BitVec 3) (f : Axis → Axis) : Chip :=
  ((door0 .opening (car0 .in_ runChip)).modIlk 0 fun i => { i with out := out }).modAxis 12 fun a => f { a with st := .moving, e := genPos 800000 }
theorem witness_doorMotion :
    let run := (doorMoving 7 id).startProfile
    let seam := (doorMoving 7 fun a =>
      { a with p := genPos 790000, seam := true, seamTol := 10000, queue := [⟨.moveq, 100000, none, none⟩] }).startProfile
    let cam := (doorMoving 7 fun a => { a with st := .cam, engaged := some (1, 13) }).startProfile
    let low := (doorMoving 3 id).startProfile
    let purged := (doorMoving 7 fun a => { a with cmds := [.purge] }).startProfile
    let idle := ((doorMoving 7 fun a => { a with st := .idle, queue := [⟨.moveq, 100000, none, none⟩] }).modDoor 0 fun x =>
      { x with tempSeen := true }).startProfile
    ((doorMoving 7 id).may (.profile 12) = true ∧ (doorMoving 7 id).axisRuns 12 = true) ∧
    ((run.axes[12]).cmds = [] ∧ run.doorLow 0 = false ∧ (run.doors[0]).learn = none ∧ (run.axes[12]).st = .moving ∧ (run.axes[12]).queue = []) ∧
    ((seam.axes[12]).cmds = [] ∧ (seam.axes[12]).seam = true ∧ (seam.axes[12]).taken = false ∧ (seam.axes[12]).st = .moving ∧
      (((seam.axes[12]).e.toInt - (seam.axes[12]).p.toInt).natAbs : Int) ≤ (seam.axes[12]).seamTol.toNat * unit ∧
      (seam.axes[12]).queue = [⟨.moveq, 100000, none, none⟩] ∧ seam.inRange 12 100000 = true ∧ seam.inRange 12 800001 = false) ∧
    ((cam.axes[12]).cmds = [] ∧ (cam.axes[12]).st = .cam ∧ (cam.axes[12]).engaged = some (1, 13) ∧ (cam.axes[12]).taken = false ∧
      cam.badWord 2 (State.reset.mem.camReads 1 (cam.axes[13]).pPrev.toInt) = none ∧
      (((door0 .closed (car0 .in_ runChip)).modAxis 13 fun a => { a with st := .idle }).axes[13]).st ≠ .off) ∧
    (low.doorLow 0 = true ∧ (low.axes[12]).cmds = [] ∧ (low.axes[12]).st = .moving) ∧ (purged.axes[12]).cmds = [.purge] ∧
    ((idle.axes[12]).cmds = [] ∧ (idle.axes[12]).st = .idle ∧ (idle.axes[12]).queue = [⟨.moveq, 100000, none, none⟩] ∧
      idle.doorHeld 0 = false ∧ idle.inRange 12 100000 = true) := by decide +kernel
theorem witness_carArrival :
    let c := (driven id).modCar 0 fun x =>
      { x with arriving := some 1, level := true, landing := 1, calls := [⟨1, 0, false⟩, ⟨1, 1, false⟩, ⟨2, 0, false⟩] }
    c.running = true ∧ c.lnk.sckRunning = true ∧ (c.cars[0]).arriving = some 1 ∧ (c.cars[0]).level = true ∧ (c.cars[0]).landing.toNat = (1 : BitVec 7).toNat ∧
      c.restStop 0 (((c.cars[0]).calls).filter fun z => z.landing ≠ 1) ≠ none ∧ c.restStop 0 [] = none := by decide +kernel
theorem witness_FeedbackEventsCount :
    let c := car0 .in_ (runChip.modFbk 0 fun y => { y with act := { y.act with mode := .quad, cycles := 16, hyst := true } })
    let r := c.modFbk 0 fun y => { y with dir := some true, held := some 4 }
    let h := c.modAxis 0 fun a => { a with homing := some (⟨2, true, 0, 100, 100, 0, 0⟩, .search) }
    let s := (car0 .in_ runChip).modFbk 1 fun y => { y with act := { y.act with mode := .ssi, ssi := 0x01970001 } }
    let q : SsiRead := ⟨4999, 0x01970001, 0⟩
    ((c.cars[(carOfFbk 0).val]).on = true ∧ (c.fbks[0]).act.mode = .quad ∧ (c.fbks[0]).act.cycles.toNat ≤ (16 : BitVec 8).toNat ∧
      (c.fbks[0]).held = none ∧ (r.fbks[0]).held.isSome = true ∧ (c.axes[0]).homing = none ∧
      (h.axes[0]).homing = some (⟨2, true, 0, 100, 100, 0, 0⟩, .search)) ∧
    (∀ ab : BitVec 2, ab = 0 ∨ ab = ~~~0 ∨ quadNext 0 = ab ∨ quadNext ab = 0) ∧
    ((s.cars[(carOfFbk 1).val]).on = true ∧ (s.fbks[1]).act.mode = .ssi ∧ ssiDiv (s.fbks[1]).act.ssi ≠ 0 ∧ s.may .host = true ∧ s.running = true ∧
      s.latching = true ∧ s.dev.tick.toNat % ssiDiv (s.fbks[1]).act.ssi = 0 ∧
      (1 : FbkId) = hoistway (carOfFbk 1) ∧ ((s.cars[0]).landing? (s.cars[0]).landing.toNat).isSome = true ∧ (runChip.cars[0]).table = none ∧ (s.fbks[1]).ssiRead = none ∧ (s.fbks[1]).ssiFree ≤ s.stamp 0 ∧
      ssiErr q.ssi = false ∧ ssiCrc q.ssi = 0 ∧ q.ssi.getLsbD 15 = false ∧
      q.start.toNat * s.lnk.ticklen.toNat + ssiClocks q.ssi * ssiPeriod q.ssi ≤ s.stamp 0 ∧
      ((s.modFbk 1 fun y => { y with ssiRead := some q }).fbks[1]).ssiRead = some q) := by decide +kernel
theorem witness_comparatorAndDivision :
    let c := car0 .in_ (runChip.modFbk 0 fun y =>
      { y with act := { y.act with mode := .quad, cycles := 16, divNum := 1, divDen := 4 }, cmpNext := 1, cmpStep := 1, divAcc := 3 })
    let f := c.fbks[0]
    (f.cmpOld = none ∧ 0 < f.cmpStep.toInt ∧ (f.cmpNext - f.count).toInt = 1) ∧
      ({ f with cmpOld := some 1 } : Fbk).cmpOld = some 1 ∧ ((1 : Word) - f.count).toInt = 1 ∧
      (f.act.divDen.toNat ≤ f.divAcc.toNat + f.act.divNum.toNat ∧ f.reps = [] ∧ c.dev.state ≠ .tripped) ∧
      (({ f with divAcc := 0 } : Fbk).divAcc.toNat < f.act.divNum.toNat) := by decide +kernel
theorem witness_switchDecoder :
    let f : Fbk := { runChip.fbks[1] with act := { (runChip.fbks[1]).act with codes := 0x0B, swTicks := 2, adj := true }, code := 0, raw := 1, rawRun := 1 }
    ((1 : BitVec 3) ≠ f.code ∧ f.act.swTicks.toNat ≤ (satInc f.rawRun).toNat ∧ f.act.codes.getLsbD 1 = true) ∧
      f.act.codes.getLsbD 2 = false ∧ (f.act.codes.getLsbD 3 = true ∧
        ((List.range 3).filter fun j => (3 : BitVec 3).getLsbD j != f.code.getLsbD j).length = 2) := by decide +kernel
theorem witness_DoorEncoderEvents :
    let c := door0 .closing (car0 .in_ runChip)
    let e := c.modDoor 0 fun x => { x with act := { x.act with type := .bdc }, hallRun := 0, illegalRun := 1, zCount := some 10, turns := 100 }
    let p := c.modDoor 0 fun x => { x with act := { x.act with type := .pmsm, hallCodes := 0x7E }, hall := 1, hallRaw := 1 }
    let s := (c.modDoor 0 fun x => { x with stallRun := 4, act := { x.act with stallT := 4 }, learn := some ⟨false, none⟩, learnResult := 1 })
    let h := s.modAxis 12 fun a => { a with homing := some (⟨3, true, 0, 100, 100, 0, 0⟩, .search) }
    ((e.cars[0]).on = true ∧ (e.doors[0]).encoder = true ∧ (e.doors[0]).act.hallCycles.toNat ≤ (255 : BitVec 8).toNat ∧
      quadMove false 0 3 = .illegal ∧ quadMove (e.doors[0]).act.hallInv 0 1 ≠ .illegal ∧ (e.axes[12]).homed = true ∧
      2 < ((e.doors[0]).turns - 10) % ((e.doors[0]).act.cpr.toNat : Int) ∧
      ((e.doors[0]).turns - 10) % ((e.doors[0]).act.cpr.toNat : Int) < (e.doors[0]).act.cpr.toNat - 2) ∧
    ((p.doors[0]).act.type = .pmsm ∧ (p.doors[0]).arrived = [] ∧
      (∀ e ∈ [((4 : Nat), (3 : BitVec 3))], e.1 < 5) ∧ (3 : BitVec 3) ≠ (p.doors[0]).hall ∧ (p.doors[0]).act.hallCodes.getLsbD 3 = true ∧
      (0 : BitVec 3) ≠ (p.doors[0]).hallRaw ∧ (p.doors[0]).act.hallCodes.getLsbD 0 = false ∧
      hallPlace 1 ≠ none ∧ hallPlace 3 ≠ none ∧ hallPlace 0 = none) ∧
    (s.running = true ∧ (s.doors[0]).act.stallT.toNat ≤ (s.doors[0]).stallRun.toNat ∧ (s.doors[0]).stallRun ≠ 0 ∧
      (s.axes[12]).homing = none ∧ (s.doors[0]).learn = some ⟨false, none⟩ ∧ (s.doors[0]).learnResult = 1 ∧
      (h.axes[12]).homing = some (⟨3, true, 0, 100, 100, 0, 0⟩, .search)) := by decide +kernel

/-! ### Witnesses: loops, front ends, engines, journal -/

theorem witness_LoopRunFollowsLaw :
    let c := driven id
    let x := c.loops[72]
    let y : Loop := { x with starting := true, act := { x.act with omin := 0xFFFFFFF6, omax := 10, kff := 0 } }
    (c.may (.loop (loopSlot 72)) = true ∧ c.loopForced 72 = false ∧ c.loopDue 72 = true ∧ (readyCar .in_).loopForced 72 = true ∧
      (c.modDev fun d => { d with tick := 5001 }).loopDue 72 = false) ∧ (c.wiring 72).lo ≤ (c.wiring 72).hi ∧
    (y.starting = true ∧ y.act.omin.toInt ≤ 0 ∧ 0 ≤ y.act.omax.toInt ∧ y.act.omin.toInt ≤ y.act.omax.toInt ∧
      y.act.imin.toInt ≤ y.act.imax.toInt) ∧ ({ x with starting := false } : Loop).starting = false := by decide +kernel
/-- The front door of car 0 in use, its three loops running with the given output. -/
def doorLoops (v : DoorState) (w : MotorType) : Chip :=
  let c := doorMoving 7 id
  let l : LoopCfg := { (c.loops[0]).act with run := true, div := 1 }
  let on := fun (c : Chip) (i : Fin 3) => c.modLoop (doorLoop 0 i) fun y => { y with cfg := l, act := l, u := 1000 }
  (on (on (on c 0) 1) 2).modDoor 0 fun x => { x with st := v, act := { x.act with type := w } }
theorem witness_doorLoops :
    let c := doorLoops .opening .bdc
    (∀ i : Fin 3, c.may (.loop (loopSlot (doorLoop 0 i))) = true ∧ c.loopForced (doorLoop 0 i) = false ∧ c.loopDue (doorLoop 0 i) = true) ∧
    (c.doors[0]).act.kt ≠ 0 ∧ (c.doors[0]).st ≠ .homing ∧ c.running = true ∧ (c.doors[0]).inUse = true ∧ (c.doors[0]).act.type = .bdc ∧
    ((doorLoops .reversing .pmsm).doors[0]).st = .reversing ∧ ((doorLoops .reversing .pmsm).doors[0]).act.type = .pmsm ∧
    ((doorLoops .fault .stepper).doors[0]).st = .fault ∧ (doorLoops .fault .stepper).loopForced (doorLoop 0 0) = true ∧
    (let x := c.loops[0]
     let at_ := fun (r : Int) => x.run ⟨r, 0, 0, -32768, 32767⟩
     (at_ 0).sat = false ∧ (x.act.omin.toInt ≤ 0 ∧ 0 ≤ x.act.omax.toInt) ∧
       (let y : Loop := { x with starting := false, act := { x.act with kp := 0x7FFF, ki := 1, omin := 0xFFFFFFF6, omax := 10, bfp := true, gexp := 0 } }
        let z := y.run ⟨1000, 0, 0, -32768, 32767⟩
        z.sat = true ∧ (y.act.ki.toInt * 1000).sign = (32767000 - z.up).sign ∧
          (y.run ⟨1000, 0, 0, -5, 32767⟩).up = 10 ∧ (y.run ⟨1000, 0, 0, 11, 32767⟩).up = 11 ∧ (y.run ⟨1000, 0, 0, -32768, -11⟩).up = -11)) := by
  decide +kernel

/-- Car 0 OUT with a bridge channel that has k samples of value d. -/
def bridged (k : Nat) (d : Int) (clamp : BitVec 4) : Chip :=
  (sBridge.chip.enter .host).modFe 0 fun y => { y with samples := List.replicate k (d, clamp, 4000 * 6250), resultAt := none }
theorem witness_FrontEndsConvert :
    let c := bridged 3053 1000 0
    (c.converts 0 = true ∧ c.latching = true ∧ (c.fes[0]).resultAt ≠ some c.dev.tick ∧ (c.fes[0]).act.type = .bridge ∧ (c.fes[0]).act.period ≠ 0 ∧
      c.dev.tick.toNat % (c.fes[0]).act.period = 0 ∧ (c.fes[0]).act.zset = true ∧ (c.fes[0]).act.span ≠ 0 ∧ (c.fes[0]).act.curve = 0 ∧
      c.exciteTest 0 = false ∧ (c.cars[0]).service = .out ∧
      ((c.usable (c.fes[0])).take (2 * c.filterN 0 - 1)).length = 2 * c.filterN 0 - 1) ∧
    (c.chopEnd = none ∧ (c.modDev fun d => { d with tick := 5001 }).chopEnd = some (16384 * 1908) ∧ (c.fes[0]).chopAt ≠ 16384 * 1908) := by
  decide +kernel
/-- The same with another configuration, a coefficient block and a valid source. -/
def sensing (f : FeCfg → FeCfg) (form : BitVec 4) (n : Nat) : Chip :=
  ((((bridged 3053 1000 0).modFe 0 fun y => { y with act := f y.act, form := form, coefs := List.replicate n ⟨1, 0⟩ }).modFe 1 fun y =>
    { y with act := { y.act with type := .ntc }, prevValid := true, prevValue := 2500 })).modDev fun d => { d with tempPrev := 2500 }
theorem witness_curves :
    (∀ q ∈ ([fun q => { q with curve := 7, src := 7 }, fun q => { q with curve := 7, src := 4 }, fun q => { q with type := .rtd, curve := 1, ix := 2 },
        fun q => { q with type := .rtd, curve := 2, ix := 3 }, fun q => { q with type := .tc, curve := 3, src := 1 },
        fun q => { q with type := .tc, curve := 4, src := 0 }, fun q => { q with type := .ntc, curve := 6, ix := 1 }] : List (FeCfg → FeCfg)),
      let c := sensing q 1 12
      c.converts 0 = true ∧ c.latching = true ∧ (c.fes[0]).resultAt ≠ some c.dev.tick ∧ (c.fes[0]).act.period ≠ 0) ∧
    (let q : FeCfg := ((sensing (fun q => { q with type := .rtd, curve := 1, rate := 1 }) 1 0).fes[0]).act
     q.period = 64 ∧ 4992 % q.period = 0) ∧
    ((sensing id 2 3).fes[0]).coefs = [⟨1, 0⟩, ⟨1, 0⟩, ⟨1, 0⟩] ∧
    carFe 0 1 ≠ 0 ∧ ((sensing id 2 3).fes[(carFe 0 1).val]).act.type = .ntc ∧ ((sensing id 2 3).fes[(carFe 0 1).val]).prevValid = true ∧
    ((sensing id 2 3).fes[(carFe 0 1).val]).prevValue.toInt = 2500 ∧ (sensing id 2 3).dev.tempPrev.toInt = 2500 ∧
    (Coef.scaled ⟨1, 0⟩ * 2 ^ 768 + Coef.scaled ⟨1, 0⟩ * lnExact 64 5 * 2 ^ 512 + Coef.scaled ⟨1, 0⟩ * lnExact 64 5 ^ 3 ≠ 0) := by
  decide +kernel
/-- Table 15-3: 100.00 Ω at 0 °C and 138.5055 Ω at 100 °C for PT100; 4.096 mV at 100 °C for type K, 5.269 mV for J, 2.774 mV for N, to the
microvolt. -/
theorem test_curves :
    platinum 0 = 10 ^ 23 ∧ platinum 10000 = 1385055 * 10 ^ 17 ∧
      [3, 4, 5].map (fun k : Fin 16 => (2 * thermoEmf (BitVec.ofFin k) 10000 + 2 ^ 38) / 2 ^ 39) = [4096, 5269, 2774] := by decide +kernel
theorem witness_CalibrationsRun :
    let i : CalItem := ⟨0, false, 0, none, none⟩
    let c := (sBridge.chip.enter .host).modCal 0 fun _ => ⟨[i], true, none⟩
    let d := fun (start : BitVec 48) (l : List (Option (BitVec 24))) => (sBridge.chip.enter .host).modCal 0 fun _ => ⟨[], false, some ⟨i, start, l⟩⟩
    (c.running = true ∧ c.may .host = true ∧ (c.cals[0]).ready = true ∧ (c.cals[0]).queue = [i] ∧ (c.cals[0]).running = none ∧ (c.cars[0]).on = true) ∧
    ((d 4000 [some 5, some 5, some 5, some 5]).cals[0]).running = some ⟨i, 4000, [some 5, some 5, some 5, some 5]⟩ ∧
      ((d 0 []).fes[0]).act.win.toNat = 4 ∧ (((d 0 []).fes[0]).act.win.toNat + 8) * ((d 0 []).fes[0]).act.period ≤ (5000 - 0) ∧
      calDecision ((d 0 []).fes[0]).act i [none, none, none, none] = .error 3 ∧
      calDecision { ((d 0 []).fes[0]).act with zset := false } i [some 5, some 5, some 5, some 5] = .ok 5 := by decide +kernel

/-- A scan job of channel 0 over the first five bytes of data RAM in a mode. -/
def jobOf (mode : BitVec 2) : ScanJob := ⟨0, { (runChip.scan.cks[0]).cfg with mode := mode }, 0, 0, 5, none, none, 4998, 0⟩
/-- A capture of channel 0 with its trigger word. -/
def captureOf (trigger : Word) (taken : Nat) (trig : Option Nat) (samples : List Word) : Capture :=
  ⟨⟨0, 0, trigger, none, 0, true, none⟩, BitVec.ofNat 48 (5000 - taken), samples, taken, trig, false, false⟩
theorem witness_ScanAndTraceEnginesRun :
    let c : Chip := { runChip with scan := { runChip.scan with queue := [jobOf 0] } }
    let run := fun m => (⟨jobOf m, 4999, 0, 0, []⟩ : ScanRun)
    let d := fun m => ({ runChip with scan := { runChip.scan with running := some (run m) } } : Chip)
    let words := fun w : Nat => decide (4 * w < 5)
    (s0.mem.wf = true ∧ c.scan.queue = [jobOf 0] ∧ c.running = true ∧ c.scan.running = none ∧ c.scanStartCycle (jobOf 0) < c.lnk.ticklen.toNat) ∧
    (∀ m : BitVec 2, (d m).scan.running = some (run m) ∧ (d m).running = true ∧ (d m).scanEnd (run m) < (d m).lnk.ticklen.toNat ∧
      (d m).firstBad (spaceMemory 0) words = none ∧ ({ d m with flaws := [⟨0, 1, true⟩] } : Chip).firstBad (spaceMemory 0) words = some 1 ∧
      (d m).ramLog = [] ∧
      (jobOf m).start.toNat + (jobOf m).len.toNat + (jobOf m).cfg.appended ≤ 0x30000) ∧
    (((jobOf 0).reads + 3) / 4 + 1 + c.scanCycles - 1) / c.scanCycles + 1 ≤ (5000 - 4998) ∧
    ¬ (((jobOf 0).reads + 3) / 4 + 1 + c.scanCycles - 1) / c.scanCycles + 1 ≤ (5000 - 4999) ∧
    (∀ m : Fin 3, runChip.scrubRuns m = true ∧ runChip.may (.loop 84) = true ∧ (runChip.scan.scrub[m.val]).visited = false ∧
      runChip.doubleIn ⟨m.val, by omega⟩ [0, 1] ⟨[], none, none⟩ = none ∧
      runChip.doubleIn ⟨m.val, by omega⟩ [0, 1] ⟨[], some 1, none⟩ = some 1) := by decide +kernel
theorem witness_captures :
    let item := (captureOf 0 0 none []).item
    let q := (runChip.modDev id)
    let c : Chip := { q with traceQueue := [item] }
    let sampled := captureOf 0 9 (some 0) []
    let done := captureOf 0 4096 (some 0) (List.replicate 4096 0)
    (c.running = true ∧ c.may (.loop 84) = true ∧ c.captures[0] = none ∧ c.traceQueue.find? (fun t => t.channel.toNat = 0) = some item) ∧
    (runChip.sampleDue (captureOf 0 9 none []) = true ∧ (captureOf 0 9 none []).complete = false ∧ trigMode (0 : Word) = 0 ∧
      preSamples (0 : Word) = 0) ∧ (runChip.sampleDue sampled = true ∧ sampled.complete = false ∧ sampled.trig.isSome = true) ∧
    runChip.sampleDue { sampled with taken := 10 } = false ∧ done.complete = true ∧ done.trig = some 0 ∧
    1048576 ≤ ((2000000 : BitVec 48) - 951424).toNat := by decide +kernel

/-- An operational record, waiting and in its write. -/
def recordItem : JRecord := ⟨4, 140, 0xFF, 0, [1, 2], none, none⟩
theorem witness_JournalAndEntropyRun :
    let c := runChip.modJournal fun j => { j with queue := [recordItem], ready := true, tornWaits := false }
    let d := runChip.modJournal fun j =>
      { j with queue := [recordItem], writing := some ⟨recordItem, 160, 7, 9, List.replicate 16 3, true, none⟩ }
    (c.journal.scrubbed = false ∧ c.may (.loop 84) = true ∧ c.doubleIn 3 [0, 1] ⟨[], none, none⟩ = none ∧
      c.doubleIn 3 [0, 1] ⟨[], some 1, none⟩ = some 1 ∧ 1 ∈ c.singles 3 [0, 1] ⟨[1], none, some 1⟩ ∧
      c.doubleIn 3 [0, 1] ⟨[1], none, some 1⟩ = none) ∧
    (s0.mem.wf = true ∧ c.journalFree = true ∧ c.journal.tripDue = false ∧ c.journal.ready = true ∧ c.journal.tornWaits = false ∧ c.journal.queue = [recordItem] ∧ recordItem.type ≠ 128) ∧
    (d.journal.writing = some ⟨recordItem, 160, 7, 9, List.replicate 16 3, true, none⟩ ∧ d.brownedOut = false ∧ d.journal.fault = false ∧
      d.dev.state = .run) ∧ (d.modLnk fun l => { l with sckRunning := false }).lnk.sckRunning = false ∧
      runChip.warning = false ∧ runChip.entropyFailed = false ∧
      (runChip.sec.entropyTaken = 0 ∧ 32768 + 4096 * (0 + 1) ≤ runChip.dev.tick.toNat * runChip.lnk.ticklen.toNat + runChip.lnk.ticklen.toNat ∧
        runChip.lnk.section_ = [] ∧ runChip.changeDue = false ∧ runChip.dev.state ≠ .admitting ∧
        (runChip.modDev fun d => { d with tick := 4 }).dev.tick.toNat * runChip.lnk.ticklen.toNat + runChip.lnk.ticklen.toNat < 32768 + 4096 * (0 + 1) ∧
        (let a := sIllegal.chip.modDev fun d => { d with tick := 5 }
         a.stage = .host ∧ a.dev.tick.toNat * a.lnk.ticklen.toNat + a.dev.hostCycles.toNat < 32768 + 4096 * (0 + 1) ∧ a.lnk.section_ ≠ [] ∧
           a.dev.hostStopped = false)) ∧
      (runChip.modSec fun x => { x with entropyCause := 1 }).entropyFailed = true := by decide +kernel
theorem witness_entropy :
    (runChip.sec.rawBits ((List.range 512).map fun i => (0 : BitVec 512).getLsbD (511 - i))).2 ≠ 0 ∧
      (runChip.sec.rawBits ((List.range 512).map fun i => (BitVec.ofNat 512 ((2 ^ 512 - 1) / 3)).getLsbD (511 - i))).2 = 0 := by
  decide +kernel
/-! ### Commands that no sender may form -/

/-- An instruction whose D, A, M and IMM are all 0. -/
def f0 : Enc := ⟨0, 0, 0, 0⟩
theorem wf_cycleStamps :
    Instr.wf (.linkDarkTrip 12500) = false ∧ Instr.wf (.slotDeferTrip 12500) = false ∧ Instr.wf (.sckGapTrip 12500 9000) = false ∧
      Instr.wf (.brownoutTrip 0 0 16 12500) = false ∧ Instr.wf (.overtempTrip 12500) = false ∧ Instr.wf (.lockstepTrip 0 0 12500) = false ∧
      Instr.wf (.quadEdge (.fbk 0) 0 9 12500) = false ∧ Instr.wf (.zIndex (.fbk 0) 9 12500) = false ∧
      Instr.wf (.hallEdge 0 0 9 12500) = false ∧ Instr.wf (.referenceTrip ⟨Vector.replicate 16 0, 12500⟩) = false ∧ Instr.wf (.linkDarkTrip 12499) = true := by
  decide
theorem wf_fixedFields :
    Instr.wf (.ldih 0 f0) = false ∧ Instr.wf (.camsetEngage (.thread 0) f0) = false ∧
      Instr.wf (.camsetRelease (.thread 0) ⟨0, 0, 0, 0x1000⟩) = false ∧ Instr.wf (.islandOn (.thread 0) f0) = false ∧
      Instr.wf (.islandOff (.thread 0) ⟨0, 0, 0, 0x100⟩) = false ∧ Instr.wf (.selftestEntropy (.thread 0) f0) = false ∧
      Instr.wf (.selftestReference (.thread 0) ⟨0, 0, 0, 0x04⟩) = false ∧ Instr.wf (.calZero (.thread 0) ⟨0, 0, 0, 0x100⟩) = false ∧
      Instr.wf (.calSpan (.thread 0) f0) = false ∧ Instr.wf (.streamJournal (.thread 0) f0) = false ∧
      Instr.wf (.sessionOpen (.thread 0) ⟨0, 0, 0, 0x8000⟩) = false ∧ Instr.wf (.sessionClose (.thread 0) f0) = false ∧
      Instr.wf (.ploadSeal (.thread 0) ⟨0, 0, 0, 0x4000⟩) = false := by decide
theorem wf_addresses :
    Instr.wf (.devAdmitGo (.thread 0) ⟨0, 0, 0, 0x0240⟩) = false ∧ Instr.wf (.devAdmitGo (.thread 0) ⟨0, 0, 0, 0x1200⟩) = false ∧
      Instr.wf (.devAdmitGo (.thread 0) ⟨0, 0, 0, 0x0200⟩) = true ∧ Instr.wf (.scheduleLoad (.thread 0) ⟨0, 0, 0, 0x41C0⟩) = false := by
  decide
theorem wf_outcomes :
    Instr.wf (.scrubVisit 0 ⟨[49152], none, none⟩) = false ∧ Instr.wf (.scrubVisit 1 ⟨[], some 65536, none⟩) = false ∧
      Instr.wf (.scrubVisit 2 ⟨[], none, some 8192⟩) = false ∧ Instr.wf (.scrubVisit 2 ⟨[8191], none, none⟩) = true ∧
      Instr.wf (.journalScrub ⟨[262144], none, none⟩) = false ∧ Instr.wf (.journalCommit (.verifyFail 17 0 false)) = false ∧
      Instr.wf (.journalCommit (.interrupted 17)) = false ∧ Instr.wf (.admissionStep 3 ⟨.islandTest 0 0, 0⟩) = false ∧
      Instr.wf (.admissionStep 4 ⟨.eccDouble 0 0, 0⟩) = false ∧ Instr.wf (.admissionStep 0 ⟨.journalFault 0 0 0 0, 0⟩) = false ∧
      Instr.wf (.admissionStep 0 ⟨.passed, 0⟩) = true := by decide

/-! ### The spec's tables and worked examples -/

/-- The six words of the example after R196. -/
theorem test_words :
    encWord 0x18 ⟨0, 0, 0, 2⟩ = 0x60000002 ∧ encWord 0x10 ⟨2, 0, 0, 0xA100⟩ = 0x4080A100 ∧ encWord 0x20 ⟨2, 0, 0, 2⟩ = 0x80800002 ∧
      encWord 0x0C ⟨0, 15, 1, 0x10⟩ = 0x303D0010 ∧ encWord 0x1C ⟨0, 0, 2, 0x4042⟩ = 0x70024042 ∧
      encWord 0x36 ⟨0, 0, 0, 0x0405⟩ = 0xD8000405 := by decide
/-- "123456789" in ASCII. -/
def digits : List Byte := [0x31, 0x32, 0x33, 0x34, 0x35, 0x36, 0x37, 0x38, 0x39]
/-- The settings of Table 16-1. -/
def setting (sel : BitVec 2) (refl : Bool) (init xorOut : Word) : CkCfg := ⟨refl, refl, sel, init, xorOut, 0, false⟩
/-- Table 16-1 and Table 3-8. -/
theorem test_checkValues :
    (∀ x ∈ ([(setting 0 false 0xFF 0xFF, 0xDF), (setting 1 false 0xFFFF 0, 0x29B1), (setting 2 true 0xFFFFFFFF 0xFFFFFFFF, 0xCBF43926),
        (setting 3 true 0xFFFFFFFF 0xFFFFFFFF, 0xE3069283)] : List (CkCfg × Word)),
      x.1.finish (x.1.feed (x.1.start 0) digits) = x.2) ∧ crc16 digits = 0x29B1 := by decide +kernel
/-- The permit example after R312: the condition words and masks of car C4. -/
theorem test_permits :
    let drv : Word := 0x008703FF
    let door : Word := 0x00011401
    maskHolds 0x0FFF (mainMask drv) = true ∧ maskHolds 0x0FFF (mainMask door) = false ∧ zoneMask door = 0x0C01 ∧
      maskHolds 0x0FFF (zoneMask door) = true ∧ maskHolds 0x0EE7 (mainMask drv) = false ∧ zoneMask drv = 0x0C87 ∧
      maskHolds 0x0EE7 (zoneMask drv) = true := by decide
/-- The load bridge example after R328: the span calibration and the value of 750 kg. -/
theorem test_bridge :
    let q : FeCfg := { (runChip.fes[0]).act with zero := 536871, zset := true, span := 0, pp := 1074 }
    calDecision q ⟨0, true, 10000, none, none⟩ (List.replicate 4 (some 1073742)) = .ok 312500 ∧
      bridgeValue { q with span := 312500 } 939524 = 7500 := by decide +kernel
/-- The schedule example after R270. -/
theorem test_schedule :
    Schedule.select ⟨60, [(7560, 0), (7650, 1)]⟩ 800000000000 = some (7560, 0) ∧
      Schedule.select ⟨60, [(7560, 0), (7650, 1)]⟩ (800000000000 + 17 * 60000) = some (7650, 1) := by decide
/-- The tag input of the example after R107: 29 bytes, beginning 02 01 00 00 01 2C 01 00 01 for drop 2. -/
theorem test_tagInput :
    (tagInput 2 1 300 1 1 0).length = 29 ∧ (tagInput 2 1 300 1 1 0).take 13 = [2, 1, 0, 0, 1, 0x2C, 1, 0, 1, 0, 0, 1, 0x2C] := by decide
/-- The tick units of the reference group's car axes (example after R200). -/
theorem test_limits :
    let c := (car0 .in_ runChip).modAxis 0 fun a => { a with vlim := 2500000, alim := 900000, dlim := 900000, jlim := 1200000 }
    c.limitsOf 0 = ⟨35184372088832000, 633318697599, 633318697599, 42221247⟩ := by decide +kernel
/-- Full jerk from rest (the same example): a after one advance is Jt, and after the advance that would exceed At it is At. -/
theorem test_jerk :
    let l : Limits := ⟨35184372088832000, 633318697599, 633318697599, 42221247⟩
    (advanceFrame l 35184372088832000 (1000000 * 2 ^ 48) 0 0).2.1 = 42221247 := by decide +kernel

/-- What thread 0 shows after a command: D (W8), the PC and the flags. -/
def after (i : Instr) (s : State) : Option (Word × BitVec 16 × Flags) :=
  match exec i s with
  | .next t => some ((t.chip.threads[0]).w[8], (t.chip.threads[0]).pc, (t.chip.threads[0]).flags)
  | _ => none
/-- Table 8-3: 7FFFFFFFh + 5 overflows without a carry. -/
theorem test_add : after (.add 0 ⟨8, 4, 0, 1⟩) s0 = some (0x80000004, 301, ⟨false, true, false, true, false⟩) := by decide +kernel
/-- Table 8-3: 5 - (-3) = 8 with a borrow. -/
theorem test_sub : after (.sub 0 ⟨8, 1, 0, 2⟩) s0 = some (8, 301, ⟨false, false, true, false, false⟩) := by decide +kernel
/-- Table 8-3: -3 shifted right by 5 with sign fill; the last bit out is bit 4. -/
theorem test_sar : after (.sar 0 ⟨8, 2, 0, 1⟩) s0 = some (0xFFFFFFFF, 301, ⟨false, true, true, false, false⟩) := by decide +kernel
/-- R177: 80000000h squared is outside the 32-bit range. -/
theorem test_mul : after (.mul 0 ⟨8, 3, 0, 3⟩) s0 = some (0x7FFFFFFF, 301, ⟨false, false, false, false, true⟩) := by decide +kernel
/-- R177: ACC 7 + 5 × (-3) = -8. -/
theorem test_mac : after (.mac 0 ⟨8, 1, 0, 2⟩) s0 = some (0xFFFFFFF8, 301, ⟨false, true, false, false, false⟩) := by decide +kernel
/-- R177: ACC 7 at a scale of 2^1 rounds 3.5 upward. -/
theorem test_sat : after (.sat 0 ⟨8, 0, 1, 1⟩) s0 = some (4, 301, ⟨false, false, false, false, false⟩) := by decide +kernel

/-! ### The package -/

/-- R366: the worked examples of finding balls: D05_UH at G19, F15_SSIDT at AN18, X41_IX at AF9, and V33 is C04_DP_N. -/
theorem test_balls : ballUse 7 19 = some (.door 5 .uh) ∧ ballUse 32 18 = some (.fbk 15 .ssiDt) ∧ ballUse 25 9 = some (.fe 41 .ix) ∧
    ballUse 17 33 = some (.car 4 .dpN) ∧ carBall 10 9 1 = (25, 9) := by decide +kernel

/-- The balls of a net. -/
def netBalls (n : Net) : Nat :=
  (List.range 34).foldl (fun a i => a + (List.range 34).countP fun j => ballUse (i + 1) (j + 1) = some (.net n)) 0

/-- Table 19-7: the totals of the supplies and the ground. -/
theorem test_net_totals : [Net.vss, .vio, .vana, .vlnk, .vnv, .vcore].map netBalls = [178, 56, 26, 9, 14, 84] := by decide +kernel

end Sys2Proof.Tests
end

section
/-! SUPPORT. What every command leaves: the queue of waiting commands, and the memories but for word writes and the clearing of admission
step 2. -/

namespace Sys2Proof.Machine

/-! ### Work at its place in the tick -/

theorem kept_clock (s : State) (f : Chip → Chip) : Kept s (s.clock f) := by
  unfold State.clock
  split
  · exact kept_act ..
  · exact kept_refl s

theorem kept_reading (s : State) (m : Fin 6) (words : Nat → Bool) (cycle : Nat) (go : State → State) (h : ∀ x, Kept x (go x)) :
    Kept s (s.reading m words cycle go) := by
  unfold State.reading
  split
  · exact kept_act ..
  · exact kept_trans (kept_act ..) (h _)

theorem kept_threadNow (s : State) (t : ThreadId) (go : State → State) (h : Kept s (go s)) : Kept s (s.threadNow t go) := by
  unfold State.threadNow
  split
  · exact kept_behindScan _ _ _ h
  · exact kept_refl s

theorem kept_atSlotStart (s : State) (t : ThreadId) (holds : Bool) (f : Chip → Chip) : Kept s (s.atSlotStart t holds f) := by
  unfold State.atSlotStart
  split
  · exact kept_behindScan _ _ _ (kept_act ..)
  · exact kept_refl s

/-! ### Loads, stores and instruction words -/

theorem kept_threadLd (t : ThreadId) (f : Enc) (s : State) : Kept s (threadLd t f s) :=
  kept_threadRun _ _ _ _ fun x => by
    dsimp only
    split
    · split
      · exact kept_act ..
      · exact kept_reading _ _ _ _ _ fun y => kept_act ..
    · split
      · split
        · exact kept_reading _ _ _ _ _ fun y => kept_act ..
        · exact kept_act ..
      · exact kept_act ..

theorem kept_threadSt (t : ThreadId) (f : Enc) (s : State) : Kept s (threadSt t f s) :=
  kept_threadRun _ _ _ _ fun x => by
    dsimp only
    split
    · exact kept_chip ..
    · split
      · exact kept_chip ..
      · exact kept_with ..

theorem kept_runLd (i : Issuer) (f : Enc) (s : State) : Kept s (runLd i f s) := by
  cases i with
  | thread t => exact kept_threadLd t f s
  | host p => exact kept_hostIssue ..

theorem kept_runSt (i : Issuer) (f : Enc) (s : State) : Kept s (runSt i f s) := by
  cases i with
  | thread t => exact kept_threadSt t f s
  | host p => exact kept_hostIssue ..

theorem kept_threadOnly (i : Issuer) (op : BitVec 6) (f : Enc) (run : ThreadId → Enc → State → State) (s : State)
    (h : ∀ t, Kept s (run t f s)) : Kept s (threadOnly i op f run s) := by
  cases i with
  | thread t => exact h t
  | host p => exact kept_issue ..

theorem kept_opLdi (t : ThreadId) (f : Enc) (s : State) : Kept s (opLdi t f s) := by
  unfold opLdi
  split <;> exact kept_threadPlain ..

theorem kept_opCamset (i : Issuer) (f : Enc) (s : State) : Kept s (opCamset i f s) := by
  unfold opCamset
  split <;> exact kept_issue ..

theorem kept_opIsland (i : Issuer) (f : Enc) (s : State) : Kept s (opIsland i f s) := by
  unfold opIsland
  split <;> exact kept_issue ..

theorem kept_opSelftest (i : Issuer) (f : Enc) (s : State) : Kept s (opSelftest i f s) := by
  unfold opSelftest
  dsimp only
  split <;> exact kept_issue ..

theorem kept_opStream (i : Issuer) (f : Enc) (s : State) : Kept s (opStream i f s) := by
  unfold opStream
  split <;> exact kept_issue ..

theorem kept_opPload (i : Issuer) (f : Enc) (s : State) : Kept s (opPload i f s) := by
  unfold opPload
  split <;> exact kept_issue ..

theorem kept_runLow (i : Issuer) (op : BitVec 6) (f : Enc) (s : State) : Kept s (runLow i op f s) := by
  unfold runLow
  split
  case h_13 => exact kept_threadOnly _ _ _ _ _ fun t => kept_opLdi t f s
  case h_14 => exact kept_runLd i f s
  case h_15 => exact kept_runSt i f s
  case h_22 | h_23 | h_24 => exact kept_issue ..
  all_goals exact kept_threadOnly _ _ _ _ _ fun t => kept_threadPlain ..

theorem kept_runHigh (i : Issuer) (op : BitVec 6) (f : Enc) (s : State) : Kept s (runHigh i op f s) := by
  unfold runHigh
  split
  case h_8 => exact kept_opCamset i f s
  case h_10 => exact kept_opIsland i f s
  case h_11 => exact kept_opSelftest i f s
  case h_21 => exact kept_opStream i f s
  case h_23 | h_26 => split <;> exact kept_issue ..
  case h_29 => exact kept_opPload i f s
  all_goals exact kept_issue ..

theorem kept_runWord (i : Issuer) (w : Word) (s : State) : Kept s (runWord i w s) := by
  unfold runWord
  split
  · exact kept_runHigh ..
  · exact kept_runLow ..

/-! ### A thread's slot -/

theorem kept_fetchRun (s : State) (t : ThreadId) : Kept s (s.fetchRun t) := by
  refine kept_threadNow _ _ _ ?_
  dsimp only
  split
  · exact kept_reading _ _ _ _ _ fun x => kept_runWord ..
  · exact kept_chip ..

theorem kept_fetchLoop (t : ThreadId) (n : Nat) (s : State) : Kept s (fetchLoop t n s) := by
  induction n generalizing s with
  | zero => exact kept_refl s
  | succ n ih => exact kept_trans (kept_fetchRun s t) (ih _)

theorem kept_runThreadSlot (t : ThreadId) (n : BitVec 14) (s : State) : Kept s (runThreadSlot t n s) := by
  unfold runThreadSlot
  split
  · exact kept_trans (kept_chip s _) (kept_fetchLoop ..)
  · exact kept_refl s

/-! ### The journal and the scan engine -/

theorem kept_cutRecord (s : State) (whole : Bool) : Kept s (s.cutRecord whole) := by
  unfold State.cutRecord
  split
  · exact kept_refl s
  · split
    · exact kept_act ..
    · exact kept_with ..

theorem kept_recoverJournal (s : State) (previous : BitVec 16) : Kept s (s.recoverJournal previous) := by
  unfold State.recoverJournal
  split
  · exact kept_act ..
  · dsimp only
    split
    · exact kept_chip ..
    · exact kept_trans (kept_with ..) (kept_chip s.tearOpen _)

theorem kept_journalReady (s : State) : Kept s s.journalReady := by
  unfold State.journalReady
  split
  · split
    · exact kept_with ..
    · exact kept_refl s
  · split
    · exact kept_recoverJournal ..
    · exact kept_refl s

theorem kept_runJournalRecordStart (s : State) : Kept s (runJournalRecordStart s) := by
  unfold runJournalRecordStart
  split
  · exact kept_refl s
  · exact kept_trans (kept_journalReady s) (kept_act ..)

theorem kept_runJournalCommit (w : RecordWrite) (s : State) : Kept s (runJournalCommit w s) := by
  unfold runJournalCommit
  split
  · exact kept_refl s
  · dsimp only
    split
    case h_1 =>
      split
      · exact kept_with ..
      · exact kept_refl s
    case h_2 =>
      split
      · exact kept_refl s
      · exact kept_with ..
    case h_3 =>
      split
      · split <;> exact kept_with ..
      · split
        · exact kept_refl s
        · exact kept_with ..

theorem kept_runScanJobDone (s : State) : Kept s (runScanJobDone s) := by
  unfold runScanJobDone
  split
  · exact kept_refl s
  · dsimp only
    split
    · exact kept_refl s
    · split
      · exact kept_refl s
      · split
        · exact kept_chip ..
        · exact kept_with ..

/-! ### Resets, audited changes and admission -/

theorem kept_runRstNAssert (lowNs : BitVec 32) (s : State) : Kept s (runRstNAssert lowNs s) := by
  have drawn : Kept s (if lowNs.toNat < 50 then s.act Chip.draw else s) := by
    split
    · exact kept_act ..
    · exact kept_refl s
  unfold runRstNAssert
  split
  · exact kept_refl s
  · dsimp only
    split
    · exact drawn
    · exact kept_trans drawn (kept_trans (kept_cutRecord ..) (kept_act ..))

theorem kept_runSupplyPorLoss (rail : Fin 5) (mv : BitVec 16) (s : State) : Kept s (runSupplyPorLoss rail mv s) := by
  unfold runSupplyPorLoss
  split
  · exact kept_refl s
  · exact kept_trans (kept_cutRecord ..) (kept_act ..)

theorem kept_runAuditedChangeEffect (s : State) : Kept s (runAuditedChangeEffect s) := by
  unfold runAuditedChangeEffect
  split
  · exact kept_refl s
  · split
    · exact kept_refl s
    · dsimp only
      split
      case h_2 => exact kept_with ..
      all_goals exact kept_chip ..

/-- The queue stands, and data RAM and cam tables are empty (Table 4-3, step 2). -/
def Cleared (s t : State) : Prop := t.pending = s.pending ∧ t.mem = { s.mem with ram := [], cam := [] }

/-- What a command may do to the queue and the memories: the queue stands, and the memories differ by word writes, or by the clearing of
admission step 2. -/
def Followed (s t : State) : Prop := Kept s t ∨ Cleared s t

theorem followed_pending {s t : State} (h : Followed s t) : t.pending = s.pending := h.elim And.left And.left

theorem followed_stepEffect (s : State) (n : Fin 5) (bits : BitVec 4096) : Followed s (s.stepEffect n bits) := by
  unfold State.stepEffect
  split
  · exact .inl (kept_reading _ _ _ _ _ fun x => kept_act ..)
  · exact .inr ⟨rfl, rfl⟩
  · exact .inl (kept_reading _ _ _ _ _ fun x => kept_act ..)
  · exact .inl (kept_recoverJournal ..)
  · exact .inl (kept_refl s)

theorem followed_runAdmissionStep (n : Fin 5) (test : StepTest) (bits : BitVec 4096) (s : State) :
    Followed s (runAdmissionStep n test bits s) := by
  unfold runAdmissionStep
  dsimp only
  split
  · exact .inl (kept_refl s)
  · split
    · exact .inl (kept_trans (kept_act s _) (kept_act ..))
    · exact followed_stepEffect (s.act fun c => c.modDev fun d => { d with stepRun := true }) n bits

/-! ### Every command -/

/-- Every command is answered with a next state, which follows the state before it. -/
theorem exec_followed (i : Instr) (s : State) : ∃ t, exec i s = .next t ∧ Followed s t := by
  cases i with
  | add | sub | and | or | xor | shl | shr | sar | mul | mac | sat | cmp | ldi | ldih | br | call | ret | yield | wait | assert =>
    exact ⟨_, rfl, .inl (kept_threadPlain ..)⟩
  | ld => exact ⟨_, rfl, .inl (kept_runLd ..)⟩
  | st => exact ⟨_, rfl, .inl (kept_runSt ..)⟩
  | get | put | move | moveq | stop | stopat | resume | flush | limit | camsetEngage | camsetRelease | home | islandOn | islandOff
  | selftestRamScrub | selftestProgScrub | selftestReference | selftestEntropy | selftestEnablePulse | selftestGateDriver
  | selftestBridgeExcitation | callset | callclr | nextstop | reach | deoreq | crcjob | calZero | calSpan | trace | log | streamNone
  | streamReplay | streamTrace | streamJournal | chal | sessionOpen | sessionClose | tbledit | tblpress | keysetPart0 | keysetPart1
  | starch | unstarch | ploadBegin | ploadData | ploadSeal | darn | devAdmitGo | keeperReadmit | pwrIslandreqWrite | secZeroize
  | seatUnlock | keeperSecWrite | securemaskWrite | tapctlWrite | spsPut | threadRestartCmd | threadHaltCmd | carReqOut | carReqIn
  | carReqInspect | carReqClear | landingTableLoad | scheduleLoad | doorReqReopen | doorReqNudge | doorReqClear | sintabWrite | learnGo
  | camselHalf0 | camselHalf1 | loopIreset | loopFaultClear | cmpbaseArm | polybaseLoad | crcValWrite | stickyClear
  | registerWrite =>
    exact ⟨_, rfl, .inl (kept_issue ..)⟩
  | illegalPacket => exact ⟨_, rfl, .inl (kept_runWord ..)⟩
  | tickStart | downFrame | huntSyncLock | upSlot | linkDarkTrip | slotDeferTrip | eqTrial | sckGapTrip | sckResume | enableDecay
  | leaveDark | scrubVisit | journalScrub | traceCaptureStart | traceSample | tapTck =>
    exact ⟨_, rfl, .inl (kept_act ..)⟩
  | supplyWarning | supplyWarningClear | brownoutTrip | overtempTrip | avsDecision | lockstepTrip | entropyInterval | enterRun
  | islandPowerupStart | islandPowerupDone | sessionIdleTimeout | sessionMaclimit | seatLockout | challengeExpiry | witnessExpiry
  | profileAdvance | moveTake | homeReference | quadEdge | zIndex | ssiReadStart | ssiReadDone | feedbackFault | loopRun
  | loopModelFault | loopSatFault | driveCommand | driveReply | driveReplyMissing | driveportFault | drivespeedFault | carArrival
  | runlimExpiry | hallEdge | commutationFault | doorKeFault | opentExpiry | closetExpiry | doorStall | matrixEval | readbackFault
  | safePulseReadbackFault | chopSample | offsetTrim | feResult | referenceTrip | calStart | calDecide | calTimeout | scanJobStart
  | scanJobTimeout | scrubPassEnd | selftestComplete | traceComplete | traceTimeout | ploadSealDone =>
    exact ⟨_, rfl, .inl (kept_clock ..)⟩
  | threadSlot => exact ⟨_, rfl, .inl (kept_runThreadSlot ..)⟩
  | threadWake | threadStall | threadRestart | threadHaltLimit => exact ⟨_, rfl, .inl (kept_atSlotStart ..)⟩
  | rstNAssert => exact ⟨_, rfl, .inl (kept_runRstNAssert ..)⟩
  | supplyPorLoss => exact ⟨_, rfl, .inl (kept_runSupplyPorLoss ..)⟩
  | admissionStep => exact ⟨_, rfl, followed_runAdmissionStep ..⟩
  | auditedChangeEffect => exact ⟨_, rfl, .inl (kept_runAuditedChangeEffect ..)⟩
  | scanJobDone => exact ⟨_, rfl, .inl (kept_runScanJobDone ..)⟩
  | journalRecordStart => exact ⟨_, rfl, .inl (kept_runJournalRecordStart ..)⟩
  | journalCommit => exact ⟨_, rfl, .inl (kept_runJournalCommit ..)⟩

end Sys2Proof.Machine
end

section
/-! The statements about the machine as a whole. -/

namespace Sys2Proof.Machine

/-- Settles O4: every arm of exec answers a next state, and none reaches the queue. -/
theorem commandsCompleteAndKeepQueue : Obligations.CommandsCompleteAndKeepQueue := by
  intro i s
  obtain ⟨t, h, followed⟩ := exec_followed i s
  exact ⟨t, h, followed_pending followed⟩

/-- Settles O1, by the two equations of step. -/
theorem stepRunsFrontCommand : Obligations.StepRunsFrontCommand := fun _ _ _ => ⟨rfl, rfl⟩

end Sys2Proof.Machine
end

section
/-! SUPPORT. Which refusal R11 reports, and what R110 answers to a duplicate. -/

namespace Sys2Proof.Machine

/-! ### The order of R11 -/

/-- The refusals in the order of R11. -/
def refusalOrder : List Status :=
  [.mac, .noSession, .replay, .illegal, .denied, .sealed_, .veiled, .range, .state, .unreach, .refused, .busy, .full, .fault]

/-- Every status in the order of its rank. -/
def statusOrder : List Status := refusalOrder ++ [.done, .echo, .queued]

theorem Status.mem_statusOrder (s : Status) : s ∈ statusOrder := by cases s <;> decide

theorem Status.rank_eq_idxOf (s : Status) : s.rank = statusOrder.idxOf s := by cases s <;> rfl

theorem refusalOrder_idxOf {s : Status} (h : s ∈ refusalOrder) : refusalOrder.idxOf s = s.rank := by
  rw [Status.rank_eq_idxOf, statusOrder, List.idxOf_append_of_mem h]

theorem Status.rank_injective : Function.Injective Status.rank := by
  intro a b h
  rw [Status.rank_eq_idxOf, Status.rank_eq_idxOf] at h
  exact (List.idxOf_inj a.mem_statusOrder).1 h

/-- Of an earlier refusal and a new one the first in the order stands. -/
theorem Status.first_spec (a : Option Status) (b : Status) :
    ∃ s, Status.first a b = some s ∧ (s = b ∨ a = some s) ∧ s.rank ≤ b.rank ∧ ∀ r, a = some r → s.rank ≤ r.rank := by
  cases a with
  | none => exact ⟨b, rfl, .inl rfl, le_rfl, by simp⟩
  | some x =>
    by_cases h : b.rank < x.rank
    · exact ⟨b, if_pos h, .inl rfl, le_rfl, by rintro r ⟨⟩; exact h.le⟩
    · exact ⟨x, if_neg h, .inr rfl, not_lt.1 h, by rintro r ⟨⟩; exact le_rfl⟩

theorem refusal_concat (l : List (Bool × Status)) (x : Bool × Status) :
    refusal (l ++ [x]) = if x.1 then Status.first (refusal l) x.2 else refusal l := by
  simp [refusal]

/-- The refusal reported is one whose condition holds, and none whose condition holds comes before it (R11). -/
theorem refusal_least (l : List (Bool × Status)) (s : Status) (h : refusal l = some s) :
    (∃ x ∈ l, x.1 = true ∧ x.2 = s) ∧ ∀ x ∈ l, x.1 = true → s.rank ≤ x.2.rank := by
  induction l using List.reverseRecOn generalizing s with
  | nil => cases h
  | append_singleton l x ih =>
    rw [refusal_concat] at h
    split at h
    · next hx =>
      obtain ⟨r, hr, origin, hle, hold⟩ := Status.first_spec (refusal l) x.2
      obtain rfl : r = s := by rw [hr] at h; exact Option.some.inj h
      refine ⟨?_, fun y hy hy1 => ?_⟩
      · rcases origin with e | e
        · exact ⟨x, by simp, hx, e.symm⟩
        · obtain ⟨y, hy, hy1⟩ := (ih r e).1
          exact ⟨y, by simp [hy], hy1⟩
      · rcases List.mem_append.1 hy with hl | he
        · cases hq : refusal l with
          | none => exact absurd hy1 (by simp [(refusal_none l).1 hq y hl])
          | some q => exact (hold q hq).trans ((ih q hq).2 y hl hy1)
        · rw [List.mem_singleton.1 he]; exact hle
    · next hx =>
      obtain ⟨⟨y, hy, hy1⟩, hmin⟩ := ih s h
      refine ⟨⟨y, by simp [hy], hy1⟩, fun z hz hz1 => ?_⟩
      rcases List.mem_append.1 hz with hl | he
      · exact hmin z hl hz1
      · exact absurd (List.mem_singleton.1 he ▸ hz1) hx

/-- A condition that holds is reported where no other that holds comes before it (R11). -/
theorem refusal_eq_of_first {l : List (Bool × Status)} {s : Status} (h : (true, s) ∈ l)
    (first : ∀ x ∈ l, x.1 = true → s.rank ≤ x.2.rank) : refusal l = some s := by
  cases hr : refusal l with
  | none => exact absurd ((refusal_none l).1 hr _ h) (by simp)
  | some r =>
    obtain ⟨⟨x, hx, hx1, rfl⟩, hmin⟩ := refusal_least l r hr
    rw [Status.rank_injective (le_antisymm (hmin _ h rfl) (first x hx hx1))]

/-! ### A duplicate (R110) -/

/-- A packet whose sequence and tag are those of an effect in its session's window is answered ECHO with the kept bytes. -/
theorem gate_echo {c : Chip} {p : Packet} {body answer : Block} {n : SessionId} {e : WinEntry} (h0 : p.sid ≠ 0)
    (hs : c.sessionOf p.sid = some n) (he : (c.sec.sessions[n.val]).entry p.seq = some e) (ha : e.st = .effect answer)
    (ht : e.tag = p.tag) : c.gate p body = .echo answer := by
  unfold Chip.gate
  simp only [if_neg h0, hs, he, ha, ht, if_true]

/-- Settles O7: ranks are places in the order, and the least rank whose condition holds is reported. -/
theorem refusalIsFirstOfOrder : Obligations.RefusalIsFirstOfOrder := by
  refine ⟨fun l inOrder => ⟨fun s h => ?_, (refusal_none l).1⟩, fun _ _ _ _ _ _ h0 hs he ha ht => gate_echo h0 hs he ha ht⟩
  obtain ⟨⟨y, hy, hy1, rfl⟩, least⟩ := refusal_least l s h
  refine ⟨⟨y, hy, hy1, rfl⟩, fun x hx hx1 => ?_⟩
  have places : refusalOrder.idxOf y.2 ≤ refusalOrder.idxOf x.2 := by
    rw [refusalOrder_idxOf (inOrder y hy), refusalOrder_idxOf (inOrder x hx)]
    exact least x hx hx1
  exact places

end Sys2Proof.Machine
end

section
/-! SUPPORT. A status instruction of a thread that is refused, and the refusals that a PUT and a motion instruction can meet before RANGE. -/

namespace Sys2Proof.Machine

/-! ### A refused instruction of a thread -/

/-- What a refused status instruction leaves of its thread: the status in W15, Z clear and the next PC (R10, R142). -/
def Thread.refused (x : Thread) (st : Status) : Thread :=
  { x with w := setReg x.w 15 (st.code.setWidth 32), flags := { x.flags with z := false }, pc := x.pc + 1 }

/-- A refusal other than FULL changes only the status, Z and the PC of the thread, unless its plan says otherwise (R10, R142). -/
theorem threadIssue_refused {t : ThreadId} {f : Enc} {cycles : Nat} {body : Body} {s : State} {st : Status} {plan : Plan}
    (hf : SlotFits t cycles s) (hd : f.d ≠ 15) (hp : body (ctxOf (.thread t) f s) s.mem (found (.thread t) cycles s) = plan)
    (hi : plan.illegal = false) (hr : refusal plan.checks = some st) (hok : st.ok = false) (hfull : st ≠ .full)
    (hleft : plan.onRefusal st (found (.thread t) cycles s) = found (.thread t) cycles s) :
    threadIssue t f cycles body s = ranThread t cycles (fun x => x.refused st) s := by
  have hw : ((s.chip.starts t cycles).threads[t.val]).w = (s.chip.threads[t.val]).w := by
    simp [Chip.starts, Chip.takeTurn, Thread.charge]
  simp only [ctxOf, whoOf, operandsOf, found] at hp hleft
  unfold threadIssue
  rw [threadRun_fits _ hf]
  simp only [hw, hp, hi, Bool.or_false, decide_eq_true_eq, if_neg hd, Plan.answer, List.nil_append, hr, reply, hok, hleft,
    Bool.false_eq_true, if_false]
  split
  · exact absurd rfl hfull
  · simp only [State.with, Mems.apply_nil, Chip.written_nil, ranThread, Thread.setStatus, hok, Thread.refused]

/-! ### Plans whose refusals begin at a status -/

/-- No check of the plan comes before status a in R11's order, and no refusal but REFUSED leaves a trace. -/
def Plan.RefusesFrom (a : Status) (p : Plan) : Prop :=
  (∀ x ∈ p.checks, a.rank ≤ x.2.rank) ∧ ∀ (st : Status) (c : Chip), st ≠ .refused → p.onRefusal st c = c

theorem Plan.RefusesFrom.mono {a b : Status} {p : Plan} (h : p.RefusesFrom b) (hab : a.rank ≤ b.rank) : p.RefusesFrom a :=
  ⟨fun x hx => hab.trans (h.1 x hx), h.2⟩

theorem putPlan_refusesFrom {a : Status} {checks : Checks} {g : Chip → Chip} (h : ∀ x ∈ checks, a.rank ≤ x.2.rank) :
    (putPlan checks g).RefusesFrom a :=
  ⟨h, fun _ _ _ => rfl⟩

theorem putNone_refusesFrom (a : Status) : putNone.RefusesFrom a := putPlan_refusesFrom (by simp)

theorem Plan.RefusesFrom.reads {a : Status} {p : Plan} (h : p.RefusesFrom a) (c : Chip) (who : Who) (cycles : Nat) (m : Fin 6)
    (words : Nat → Bool) {content : List (Bool × Status)} (hc : ∀ x ∈ content, a.rank ≤ x.2.rank) :
    (p.reads c who cycles m words content).RefusesFrom a := by
  unfold Plan.reads
  split
  · exact h
  · exact ⟨fun x hx => (List.mem_append.1 hx).elim (h.1 x) (hc x), h.2⟩

@[simp] theorem notOut_status (c : Chip) (k : CarId) : (c.notOut k).2 = .state := rfl

/-! ### PUT to the registers that a thread may write: blocks 4 to B -/

/-- A request for a service state is refused with RANGE or a later status (R249, R250, R253). -/
theorem request_from_range (c : Chip) (k : CarId) (req : BitVec 4) (st : Status) (h : (c.request k req).1 = some st) :
    Status.range.rank ≤ st.rank := by
  have named : st = .range ∨ st = .state ∨ st = .refused ∨ st = .busy := by
    unfold Chip.request at h
    grind
  rcases named with rfl | rfl | rfl | rfl <;> decide

theorem putService_refusesFrom (c : Chip) (k : CarId) (v : Word) : (putService c k v).RefusesFrom .range := by
  refine ⟨fun x hx => ?_, fun st d h => if_neg h⟩
  obtain rfl := List.mem_singleton.1 hx
  cases h : (c.request k (slice v 28 4)).1 with
  | none => simp [Status.rank]
  | some st => simpa [h] using request_from_range c k _ st h

theorem putCar_refusesFrom (who : Who) (m : Mems) (c : Chip) (i : Nat) (k : CarId) (v : Word) :
    (putCar who m c i k v).RefusesFrom .range := by
  unfold putCar putLandingTable putMode
  dsimp only
  split
  case h_1 => exact putService_refusesFrom c k v
  case h_3 => exact (putPlan_refusesFrom (by simp [Status.rank])).reads _ _ _ _ _ (by simp [Status.rank])
  case h_5 =>
    split
    · exact putPlan_refusesFrom (by simp)
    · exact (putPlan_refusesFrom (by simp)).reads _ _ _ _ _ (by simp [Status.rank])
  case h_8 => exact putNone_refusesFrom _
  all_goals exact putPlan_refusesFrom (by simp [Status.rank])

theorem putDoorReq_refusesFrom (c : Chip) (d : DoorId) (v : Word) : (putDoorReq c d v).RefusesFrom .range := by
  unfold putDoorReq
  dsimp only
  split <;> exact putPlan_refusesFrom (by simp [Status.rank])

theorem putLearn_refusesFrom (c : Chip) (d : DoorId) (v : Word) : (putLearn c d v).RefusesFrom .range := by
  unfold putLearn
  dsimp only
  split <;> exact putPlan_refusesFrom (by simp [Status.rank])

theorem putDoor_refusesFrom (c : Chip) (i : Nat) (d : DoorId) (v : Word) : (putDoor c i d v).RefusesFrom .range := by
  unfold putDoor
  dsimp only
  split
  case h_1 => exact putDoorReq_refusesFrom c d v
  case h_18 => exact putLearn_refusesFrom c d v
  all_goals exact putPlan_refusesFrom (by simp [Status.rank])

theorem putFbk_refusesFrom (c : Chip) (i : Nat) (f : FbkId) (v : Word) : (putFbk c i f v).RefusesFrom .range := by
  unfold putFbk
  dsimp only
  split
  case h_7 => split <;> exact putPlan_refusesFrom (by simp [Status.rank])
  all_goals exact putPlan_refusesFrom (by simp [Status.rank])

theorem putLoop_refusesFrom (c : Chip) (i : Nat) (l : LoopId) (v : Word) : (putLoop c i l v).RefusesFrom .range := by
  unfold putLoop
  dsimp only
  split
  case h_12 => split <;> exact putPlan_refusesFrom (by simp [Status.rank])
  all_goals exact putPlan_refusesFrom (by simp [Status.rank])

theorem putCamsel_refusesFrom (who : Who) (m : Mems) (c : Chip) (a : AxisId) (v : Word) :
    (putCamsel who m c a v).RefusesFrom .range := by
  unfold putCamsel
  dsimp only
  split
  · split
    · exact putPlan_refusesFrom (by simp [Status.rank])
    · exact ⟨by simp [Status.rank], fun _ _ _ => rfl⟩
  · exact putPlan_refusesFrom (by simp [Status.rank])

theorem putPrf_refusesFrom (who : Who) (m : Mems) (c : Chip) (i : Nat) (a : AxisId) (v : Word) :
    (putPrf who m c i a v).RefusesFrom .range := by
  unfold putPrf
  dsimp only
  split
  case h_7 => exact putCamsel_refusesFrom who m c a v
  all_goals exact putPlan_refusesFrom (by simp [Status.rank])

theorem putFe_refusesFrom (who : Who) (m : Mems) (c : Chip) (i : Nat) (y : FeId) (v : Word) :
    (putFe who m c i y v).RefusesFrom .range := by
  unfold putFe
  extract_lets q held set
  have heldFrom : ∀ x ∈ held, Status.range.rank ≤ x.2.rank := by simp [held, Status.rank]
  clear_value held
  split
  case h_8 => exact (putPlan_refusesFrom heldFrom).reads _ _ _ _ _ (by simp)
  case h_3 | h_10 | h_11 => exact putPlan_refusesFrom heldFrom
  case h_7 | h_14 | h_15 => exact putPlan_refusesFrom (by simp)
  all_goals exact putPlan_refusesFrom (List.forall_mem_cons.2 ⟨le_rfl, heldFrom⟩)

theorem putIlk_refusesFrom (a : Status) (i : Nat) (k : CarId) (v : Word) : (putIlk i k v).RefusesFrom a := by
  unfold putIlk
  split <;> exact putPlan_refusesFrom (by simp)

theorem putCrc_refusesFrom (c : Chip) (r : RegRef) (v : Word) : (putCrc c r v).RefusesFrom .range := by
  unfold putCrc
  dsimp only
  split
  · split <;> exact putPlan_refusesFrom (by simp [Status.rank])
  · split
    · exact putNone_refusesFrom _
    · split <;> exact putPlan_refusesFrom (by simp [Status.rank])

/-- A PUT outside the safety parameter set to a register of blocks 4 to B meets no refusal before RANGE. -/
theorem putAt_refusesFrom_range (who : Who) (m : Mems) (c : Chip) (r : RegRef) (v : Word) (low : 4 ≤ r.b) (high : r.b < 0xC)
    (hs : isSps r.b r.i = false) : (putAt who m c r v).RefusesFrom .range := by
  unfold putAt
  simp only [hs, Bool.false_eq_true, if_false]
  split
  case h_5 => split; exacts [putNone_refusesFrom _, putCar_refusesFrom ..]
  case h_6 => exact putDoor_refusesFrom ..
  case h_7 => exact putFbk_refusesFrom ..
  case h_8 => exact putLoop_refusesFrom ..
  case h_9 => exact putPrf_refusesFrom ..
  case h_10 => exact putFe_refusesFrom ..
  case h_11 => split; exacts [putNone_refusesFrom _, putIlk_refusesFrom ..]
  case h_12 => exact putCrc_refusesFrom ..
  case h_14 => simp only [imp_false] at *; omega
  all_goals omega

/-! ### PUT to any register -/

theorem auditRefusals_from_denied (c : Chip) (who : Who) (n : Nat) :
    ∀ x ∈ c.auditRefusals who n, Status.denied.rank ≤ x.2.rank := by
  simp [Chip.auditRefusals, Chip.auditChecks, Status.rank]

/-- An audited plan meets its own refusals and those of R128. -/
theorem audited_refusesFrom {who : Who} {c : Chip} {n : Nat} {checks : Checks} {act : Chip → Reply}
    (h : ∀ x ∈ checks, Status.denied.rank ≤ x.2.rank) :
    Plan.RefusesFrom .denied { illegal := false, checks := checks ++ c.auditRefusals who n, queue := none, act := act } :=
  ⟨fun x hx => (List.mem_append.1 hx).elim (h x) (auditRefusals_from_denied c who n x), fun _ _ _ => rfl⟩

theorem putAdmit_refusesFrom (who : Who) (c : Chip) (v : Word) : (putAdmit who c v).RefusesFrom .denied := by
  unfold putAdmit
  dsimp only
  split
  · exact putPlan_refusesFrom (by simp [Status.rank])
  · exact audited_refusesFrom (by simp [Status.rank])

theorem putLnk_refusesFrom (c : Chip) (i : Nat) (v : Word) : (putLnk c i v).RefusesFrom .denied := by
  unfold putLnk
  dsimp only
  split <;> exact putPlan_refusesFrom (by simp [Status.rank])

theorem putSec_refusesFrom (who : Who) (c : Chip) (r : RegRef) (v : Word) : (putSec who c r v).RefusesFrom .denied := by
  unfold putSec
  dsimp only
  split
  case h_9 => exact putNone_refusesFrom _
  all_goals exact audited_refusesFrom (by simp [Status.rank])

theorem putThr_refusesFrom (c : Chip) (i : Nat) (t : ThreadId) (v : Word) : (putThr c i t v).RefusesFrom .denied := by
  unfold putThr
  dsimp only
  split
  case h_4 => split <;> exact putPlan_refusesFrom (by simp)
  all_goals exact putPlan_refusesFrom (by simp [Status.rank])

theorem putJnl_refusesFrom (who : Who) (r : RegRef) (v : Word) : (putJnl who r v).RefusesFrom .denied := by
  unfold putJnl
  dsimp only
  split <;> exact putPlan_refusesFrom (by simp [Status.rank])

theorem putPwr_refusesFrom (who : Who) (c : Chip) (r : RegRef) (v : Word) : (putPwr who c r v).RefusesFrom .denied := by
  unfold putPwr
  dsimp only
  split
  case h_1 =>
    split
    · exact putNone_refusesFrom _
    · split
      · exact ⟨by simp [islandOnPlan, Status.rank], fun _ _ _ => rfl⟩
      · exact ⟨by simp [islandOffPlan, Status.rank], fun _ _ _ => rfl⟩
  all_goals exact putPlan_refusesFrom (by simp [Status.rank])

theorem putSps_refusesFrom (who : Who) (c : Chip) (r : RegRef) (i : SpsId) (v : Word) : (putSps who c r i v).RefusesFrom .denied :=
  audited_refusesFrom (by simp [Status.rank])

/-- A PUT to any register meets no refusal before DENIED. -/
theorem putAt_refusesFrom_denied (who : Who) (m : Mems) (c : Chip) (r : RegRef) (v : Word) :
    (putAt who m c r v).RefusesFrom .denied := by
  have later : Status.denied.rank ≤ Status.range.rank := by decide
  unfold putAt
  split
  · exact putSps_refusesFrom ..
  · split
    case h_1 => split; exacts [putAdmit_refusesFrom .., putNone_refusesFrom _]
    case h_2 => exact putLnk_refusesFrom ..
    case h_3 => exact putSec_refusesFrom ..
    case h_4 => exact putThr_refusesFrom ..
    case h_5 => split; exacts [putNone_refusesFrom _, (putCar_refusesFrom ..).mono later]
    case h_6 => exact (putDoor_refusesFrom ..).mono later
    case h_7 => exact (putFbk_refusesFrom ..).mono later
    case h_8 => exact (putLoop_refusesFrom ..).mono later
    case h_9 => exact (putPrf_refusesFrom ..).mono later
    case h_10 => exact (putFe_refusesFrom ..).mono later
    case h_11 => split; exacts [putNone_refusesFrom _, putIlk_refusesFrom ..]
    case h_12 => exact (putCrc_refusesFrom ..).mono later
    case h_13 => exact putJnl_refusesFrom ..
    case h_14 => exact putPwr_refusesFrom ..

/-! ### GET and PUT of an unnamed or strayed register, and motion of an unnamed axis -/

/-- No register is veiled from a thread: threads receive exact results (R188). -/
theorem thread_unveiled (t : ThreadId) (c : Chip) (r : RegRef) :
    r.veiled (c.whoLevel (.thread t)) (c.whoSecured (.thread t)) = false := by
  simp only [Chip.whoLevel, Chip.whoSecured]
  unfold RegRef.veiled
  split
  · rfl
  · split <;> simp

/-- A GET or PUT of a thread that names no register is refused with RANGE (R181). -/
theorem register_unnamed {t : ThreadId} {f : Enc} {s : State} {body : Body} (hbody : body = bodyGet ∨ body = bodyPut)
    (hf : SlotFits t 4 s) (hd : f.d ≠ 15) (hi : regIllegal f = false)
    (hn : regRef (.thread t) (s.chip.threads[t.val]).w f = none) :
    threadIssue t f 4 body s = ranThread t 4 (fun x => x.refused .range) s := by
  refine threadIssue_refused (plan := { refuse .range with illegal := regIllegal f }) hf hd ?_ hi rfl rfl (by decide) rfl
  rcases hbody with rfl | rfl <;> simp only [bodyGet, bodyPut, ctxOf, whoOf, operandsOf, hn]

/-- A GET of a thread with a stray field is refused with RANGE, unless the register is not the thread's to see (R11, R172). -/
theorem get_stray {t : ThreadId} {f : Enc} {s : State} {r : RegRef} (hf : SlotFits t 4 s) (hd : f.d ≠ 15)
    (hi : regIllegal f = false) (hr : regRef (.thread t) (s.chip.threads[t.val]).w f = some r)
    (stray : regStray (s.chip.threads[t.val]).w f = true) :
    threadIssue t f 4 bodyGet s =
      ranThread t 4 (fun x => x.refused (if (found (.thread t) 4 s).regDenied (.thread t) r false then .denied else .range)) s := by
  refine threadIssue_refused (plan := bodyGet (ctxOf (.thread t) f s) s.mem (found (.thread t) 4 s)) hf hd rfl ?_ ?_ ?_ ?_ ?_
  · simp only [bodyGet, ctxOf, whoOf, operandsOf, hr, hi]
  · simp only [bodyGet, ctxOf, whoOf, operandsOf, hr, thread_unveiled, stray]
    split
    · next h => exact refusal_eq_of_first (by simp [h]) (by simp [Status.rank])
    · next h => exact refusal_eq_of_first (by simp) (by simp [h, Status.rank])
  · split <;> rfl
  · split <;> decide
  · simp only [bodyGet, ctxOf, whoOf, operandsOf, hr]

/-- A register that a thread may write lies in blocks 4 to B, outside the safety parameter set (R144). -/
theorem thread_may_put {t : ThreadId} {c : Chip} {r : RegRef} (h : c.putDenied (.thread t) r = false) :
    4 ≤ r.b ∧ r.b < 0xC ∧ isSps r.b r.i = false := by
  simp only [Chip.putDenied, Bool.or_eq_false_iff, decide_eq_false_iff_not, not_lt, not_le] at h
  obtain ⟨⟨⟨low, high⟩, hs⟩, -⟩ := h
  exact ⟨low, high, hs⟩

/-- A PUT of a thread with a stray field is refused with RANGE, unless the register is not the thread's to write (R11, R172). -/
theorem put_stray {t : ThreadId} {f : Enc} {s : State} {r : RegRef} (hf : SlotFits t 4 s) (hd : f.d ≠ 15)
    (hi : regIllegal f = false) (hr : regRef (.thread t) (s.chip.threads[t.val]).w f = some r)
    (stray : regStray (s.chip.threads[t.val]).w f = true) :
    threadIssue t f 4 bodyPut s =
      ranThread t 4 (fun x => x.refused (if (found (.thread t) 4 s).putDenied (.thread t) r then .denied else .range)) s := by
  refine threadIssue_refused (plan := bodyPut (ctxOf (.thread t) f s) s.mem (found (.thread t) 4 s)) hf hd rfl ?_ ?_ ?_ ?_ ?_
  · simp only [bodyPut, ctxOf, whoOf, operandsOf, hr, hi]
  · simp only [bodyPut, ctxOf, whoOf, operandsOf, hr, stray]
    split
    · next h =>
      refine refusal_eq_of_first (by simp [h]) ?_
      have own := (putAt_refusesFrom_denied (.thread t) s.mem (found (.thread t) 4 s) r (regOf (s.chip.threads[t.val]).w f.d)).1
      simpa [Status.rank] using fun st hst => own (true, st) hst
    · next h =>
      rw [Bool.not_eq_true] at h
      obtain ⟨low, high, hs⟩ := thread_may_put h
      refine refusal_eq_of_first (by simp) ?_
      have own := (putAt_refusesFrom_range (.thread t) s.mem (found (.thread t) 4 s) r (regOf (s.chip.threads[t.val]).w f.d)
        low high hs).1
      simpa [h, Status.rank] using fun st hst => own (true, st) hst
  · split <;> rfl
  · split <;> decide
  · simp only [bodyPut, ctxOf, whoOf, operandsOf, hr]
    exact (putAt_refusesFrom_denied ..).2 _ _ (by split <;> decide)

/-- A motion instruction of a thread that names no axis is refused with RANGE, where its own checks before that are clear (R184). -/
theorem motion_unnamed {t : ThreadId} {f : Enc} {cycles : Nat} {s : State} {body : Body} {illegal : Bool} {reserved : BitVec 16}
    {g : AxisId → Plan} {pre : Checks} (hf : SlotFits t cycles s) (hd : f.d = 0) (hn : axisOperand (.thread t) f.imm = none)
    (hbody : body (ctxOf (.thread t) f s) s.mem (found (.thread t) cycles s) =
      onAxis (ctxOf (.thread t) f s) (found (.thread t) cycles s) illegal reserved g pre)
    (hi : illegal = false) (clear : Clear pre) :
    threadIssue t f cycles body s = ranThread t cycles (fun x => x.refused .range) s := by
  have plan : onAxis (ctxOf (.thread t) f s) (found (.thread t) cycles s) illegal reserved g pre =
      { illegal := illegal, checks := pre ++ [(false, .denied), (true, .range)], queue := none, act := fun c => reply .range c } := by
    simp only [onAxis, ctxOf, whoOf, hn, Chip.lacks]
  refine threadIssue_refused hf (by rw [hd]; decide) (hbody.trans plan) hi ?_ rfl (by decide) rfl
  refine refusal_eq_of_first (by simp) fun x hx hx1 => ?_
  rcases List.mem_append.1 hx with h | h
  · exact absurd hx1 (by simp [clear x h])
  · rcases List.mem_pair.1 h with rfl | rfl
    · cases hx1
    · exact le_rfl

/-- Settles O17: with no register or axis named RANGE is the first refusal, and with a field astray DENIED alone comes before it. -/
theorem unnamedOperandIsRange : Obligations.UnnamedOperandIsRange := by
  refine ⟨fun t f s hf hd hi hn => ?_, fun t f s r hf hd hi hr astray => ?_, fun t f s hd ha hm hn => ?_⟩
  · exact ⟨congrArg _ (register_unnamed (.inl rfl) hf hd hi hn), congrArg _ (register_unnamed (.inr rfl) hf hd hi hn)⟩
  · have stray : regStray (s.chip.threads[t.val]).w f = true := by simpa [regStray] using astray
    exact ⟨congrArg _ (get_stray hf hd hi hr stray), congrArg _ (put_stray hf hd hi hr stray)⟩
  · have nothing : Clear [] := by simp [Clear]
    refine ⟨fun h => ⟨?_, ?_, ?_⟩, fun h => ⟨?_, ?_, ?_⟩, fun h => ?_⟩
    · exact congrArg _ (motion_unnamed h hd hn rfl (by simp [ctxOf, ha, hm]) nothing)
    · exact congrArg _ (motion_unnamed h hd hn rfl (by simp [ctxOf, hd, ha, hm]) nothing)
    · exact congrArg _ (motion_unnamed h hd hn rfl (by simp [ctxOf, ha, hm]) nothing)
    · exact congrArg _ (motion_unnamed h hd hn rfl (by simp [ctxOf, hd, ha, hm]) nothing)
    · exact congrArg _ (motion_unnamed h hd hn rfl (by simp [ctxOf, hd, ha, hm]) nothing)
    · exact congrArg _ (motion_unnamed h hd hn rfl (by simp [ctxOf, ha, hm]) nothing)
    · exact congrArg _ (motion_unnamed h hd hn rfl (by simp [ctxOf, ha, hm])
        (by simp [Clear, ctxOf, whoOf, Chip.whoSecured]))

end Sys2Proof.Machine
end

section
/-! SUPPORT. The write of a thread window that stands, the doorbells, and a packet that is refused. -/

namespace Sys2Proof.Machine

/-! ### The write that stands (R20, R148) -/

/-- A write that a later one of its word does not leave behind: of an earlier cycle, or of its cycle and no higher cluster. -/
def RamWrite.yields (b w : RamWrite) : Prop := b.cycle < w.cycle ∨ (b.cycle = w.cycle ∧ b.cluster ≤ w.cluster)

/-- A write that comes before another: of an earlier cycle, or of its cycle and a lower cluster. -/
def RamWrite.comesBefore (b w : RamWrite) : Prop := b.cycle < w.cycle ∨ (b.cycle = w.cycle ∧ b.cluster < w.cluster)

theorem RamWrite.yields_refl (w : RamWrite) : w.yields w := .inr ⟨rfl, le_rfl⟩

theorem RamWrite.comesBefore.yields {b w : RamWrite} (h : b.comesBefore w) : b.yields w :=
  h.imp_right fun ⟨hc, hk⟩ => ⟨hc, hk.le⟩

theorem RamWrite.comesBefore.not_yields {b w : RamWrite} (h : b.comesBefore w) : ¬ w.yields b := by
  unfold RamWrite.comesBefore at h
  unfold RamWrite.yields
  omega

/-- One more write stands where the one that stood yields to it. -/
theorem standing_concat_of_yields {l : List RamWrite} {w : RamWrite} (h : ∀ b, standing l = some b → b.yields w) :
    standing (l ++ [w]) = some w := by
  unfold standing at h ⊢
  rw [List.foldl_concat]
  split
  · rfl
  · next b hb => exact if_pos (by simpa [RamWrite.yields] using h b hb)

/-- One more write leaves the one that stood where that does not yield. -/
theorem standing_concat_of_not_yields {l : List RamWrite} {b w : RamWrite} (hb : standing l = some b) (h : ¬ b.yields w) :
    standing (l ++ [w]) = some b := by
  unfold standing at hb ⊢
  rw [List.foldl_concat, hb]
  exact if_neg (by simpa [RamWrite.yields] using h)

/-- The write that stands is one of the list. -/
theorem standing_mem {l : List RamWrite} {b : RamWrite} (h : standing l = some b) : b ∈ l := by
  induction l using List.reverseRecOn with
  | nil => cases h
  | append_singleton l w ih =>
    by_cases hy : ∀ x, standing l = some x → x.yields w
    · rw [standing_concat_of_yields hy] at h
      simp [Option.some.inj h]
    · push Not at hy
      obtain ⟨x, hx, hn⟩ := hy
      rw [standing_concat_of_not_yields hx hn] at h
      exact List.mem_append_left _ (ih (hx.trans h))

/-- A write that every other one of the list comes before stands. -/
theorem standing_latest {l : List RamWrite} {w : RamWrite} (hw : w ∈ l) (h : ∀ x ∈ l, x = w ∨ x.comesBefore w) :
    standing l = some w := by
  induction l using List.reverseRecOn with
  | nil => cases hw
  | append_singleton l y ih =>
    rcases h y (by simp) with rfl | hy
    · refine standing_concat_of_yields fun b hb => ?_
      rcases h b (List.mem_append_left _ (standing_mem hb)) with rfl | hb'
      · exact b.yields_refl
      · exact hb'.yields
    · have inside : w ∈ l := by
        rcases List.mem_append.1 hw with hl | he
        · exact hl
        · rw [List.mem_singleton.1 he] at hy ⊢
          exact absurd y.yields_refl hy.not_yields
      exact standing_concat_of_not_yields (ih inside fun x hx => h x (List.mem_append_left _ hx)) hy.not_yields

/-- A word that the window has not written reads as it stands in data RAM (R148). -/
theorem ramSeen_unwritten {c : Chip} {m : Mems} {a cycle : Nat} (h : ∀ x ∈ c.ramLog, x.addr ≠ a) :
    c.ramSeen m a cycle = m.ram.readLE a := by
  have none_of_it : (c.ramLog.filter fun w => decide (w.addr = a) && decide (w.cycle < cycle)) = [] := by
    rw [List.filter_eq_nil_iff]
    intro x hx
    simp [h x hx]
  unfold Chip.ramSeen
  rw [none_of_it]
  rfl

/-- A read sees the latest write before its cycle (R20, R148). -/
theorem ramSeen_latest {c : Chip} {m : Mems} {a cycle : Nat} {w : RamWrite} (hw : w ∈ c.ramLog) (ha : w.addr = a)
    (hc : w.cycle < cycle) (h : ∀ x ∈ c.ramLog, x.addr = a → x.cycle < cycle → x = w ∨ x.comesBefore w) :
    c.ramSeen m a cycle = w.word := by
  have stands : standing (c.ramLog.filter fun w => decide (w.addr = a) && decide (w.cycle < cycle)) = some w := by
    refine standing_latest (List.mem_filter.2 ⟨hw, by simp [ha, hc]⟩) fun x hx => ?_
    obtain ⟨hx, hp⟩ := List.mem_filter.1 hx
    simp only [Bool.and_eq_true, decide_eq_true_eq] at hp
    exact h x hx hp.1 hp.2
  unfold Chip.ramSeen
  rw [stands]

/-- Where the window has written a word already, the log of its writes gains the new one alone (R148). -/
theorem logRam_of_written {c : Chip} {m : Mems} {w : RamWrite} (h : ∃ x ∈ c.ramLog, x.addr = w.addr) :
    (c.logRam m w).ramLog = c.ramLog ++ [w] := by
  have written : (c.ramLog.any fun x => decide (x.addr = w.addr)) = true := by simpa using h
  simp [Chip.logRam, written]

/-- The log of the window's writes gains the new one, behind the word as it stood or behind nothing (R148). -/
theorem logRam_ramLog (c : Chip) (m : Mems) (w : RamWrite) :
    ∃ l, (c.logRam m w).ramLog = c.ramLog ++ l ++ [w] ∧ ∀ x ∈ l, x.cycle = 0 ∧ x.cluster = 0 := by
  unfold Chip.logRam
  dsimp only
  split
  · exact ⟨[], rfl, by simp⟩
  · exact ⟨_, rfl, by simp⟩

/-- A store stands where no write of a later cycle, or of a higher cluster in its cycle, stands there (R20, R148). -/
theorem ramStands_logRam_own {c : Chip} {m : Mems} {w : RamWrite} (h : ∀ x ∈ c.ramLog, x.addr = w.addr → x.yields w) :
    (c.logRam m w).ramStands m w.addr = w.word := by
  obtain ⟨l, hl, zero⟩ := logRam_ramLog c m w
  have stands : standing ((c.logRam m w).ramLog.filter fun x => decide (x.addr = w.addr)) = some w := by
    have own : [w].filter (fun x => decide (x.addr = w.addr)) = [w] := by simp
    rw [hl, List.filter_append, own]
    refine standing_concat_of_yields fun b hb => ?_
    obtain ⟨hb, ha⟩ := List.mem_filter.1 (standing_mem hb)
    rcases List.mem_append.1 hb with hb | hb
    · exact h b hb (by simpa using ha)
    · obtain ⟨h0, h1⟩ := zero b hb
      unfold RamWrite.yields
      omega
  unfold Chip.ramStands
  rw [stands]

/-- A write of a later cycle, or of a higher cluster in the same one, stands over a store (R20, R148). -/
theorem ramStands_logRam_other {c : Chip} {m : Mems} {v w : RamWrite} (hw : w ∈ c.ramLog) (ha : w.addr = v.addr)
    (hv : v.comesBefore w) (h : ∀ x ∈ c.ramLog, x.addr = v.addr → x = w ∨ x.comesBefore w) :
    (c.logRam m v).ramStands m v.addr = w.word := by
  have stands : standing ((c.logRam m v).ramLog.filter fun x => decide (x.addr = v.addr)) = some w := by
    rw [logRam_of_written ⟨w, hw, ha⟩]
    refine standing_latest (List.mem_filter.2 ⟨List.mem_append_left _ hw, by simp [ha]⟩) fun x hx => ?_
    obtain ⟨hx, hp⟩ := List.mem_filter.1 hx
    rcases List.mem_append.1 hx with hx | hx
    · exact h x hx (by simpa using hp)
    · rw [List.mem_singleton.1 hx]
      exact .inr hv
  unfold Chip.ramStands
  rw [stands]

/-! ### Words of a memory -/

/-- A byte outside a word is no byte that the write of the word changes. -/
theorem Mem.read_writeLE_other (m : Mem) (a b : Nat) (w : Word) (h : b < a ∨ a + 4 ≤ b) : (m.writeLE a w).read b = m.read b := by
  unfold Mem.writeLE
  rw [Mem.read_write_other _ _ _ _ (by omega), Mem.read_write_other _ _ _ _ (by omega), Mem.read_write_other _ _ _ _ (by omega),
    Mem.read_write_other _ _ _ _ (by omega)]

/-- The bytes of a word written little-endian are read back (R5). -/
theorem Mem.read_writeLE_same (m : Mem) (a n : Nat) (w : Word) (h : m.wf = true) (hn : n < 4) :
    (m.writeLE a w).read (a + n) = w.extractLsb' (8 * n) 8 := by
  have h0 := Mem.write_wf m a (w.extractLsb' 0 8) h
  have h1 := Mem.write_wf _ (a + 1) (w.extractLsb' 8 8) h0
  have h2 := Mem.write_wf _ (a + 2) (w.extractLsb' 16 8) h1
  unfold Mem.writeLE
  match n, hn with
  | 0, _ =>
    rw [Mem.read_write_other _ _ _ _ (by omega), Mem.read_write_other _ _ _ _ (by omega), Mem.read_write_other _ _ _ _ (by omega)]
    exact Mem.read_write_same _ 0 _ _ h
  | 1, _ =>
    rw [Mem.read_write_other _ _ _ _ (by omega), Mem.read_write_other _ _ _ _ (by omega)]
    exact Mem.read_write_same _ 0 _ _ h0
  | 2, _ =>
    rw [Mem.read_write_other _ _ _ _ (by omega)]
    exact Mem.read_write_same _ 0 _ _ h1
  | 3, _ => exact Mem.read_write_same _ 0 _ _ h2

/-! ### Doorbells -/

/-- Which event a doorbell raises depends on the threads alone (R149). -/
theorem Chip.ring_threads_congr {c d : Chip} (a : Nat) (h : c.threads = d.threads) : (c.ring a).threads = (d.ring a).threads := by
  unfold Chip.ring
  split
  · split
    · simp only [Chip.raise, Chip.modThread_threads, h]
    · exact h
  · exact h

/-- What the scan engine has read by a cycle changes nothing but the input record. -/
theorem Chip.noteScanned_eq (c : Chip) (m : Fin 6) (w cycle : Nat) :
    c.noteScanned m w cycle = { c with inputs := (c.noteScanned m w cycle).inputs } := by
  unfold Chip.noteScanned
  split
  · rfl
  · split
    · exact Chip.noteReads_eq ..
    · rfl

/-- The words that the host may access: those of the doorbell and mailbox regions (R149, Table 7-1). -/
theorem hostMayAccess_iff (a : Nat) : hostMayAccess a = true ↔ a < 0x30000 ∧ a % 4 = 0 ∧ 0xA000 ≤ a % 0xC000 := by
  have region : (match (regionOf a).2 with
      | .privateOf _ | .shared => false
      | .doorbell _ | .mailbox => true) = decide (0xA000 ≤ a % 0xC000) := by
    unfold regionOf
    dsimp only
    by_cases h1 : a % 0xC000 < 0x6000
    · simp [h1, show ¬ 0xA000 ≤ a % 0xC000 by omega]
    · by_cases h2 : a % 0xC000 < 0xA000
      · simp [h1, h2]
      · by_cases h3 : a % 0xC000 < 0xA030
        · simp [h1, h2, h3, show 0xA000 ≤ a % 0xC000 by omega]
        · simp [h1, h2, h3, show 0xA000 ≤ a % 0xC000 by omega]
  unfold hostMayAccess
  simp only [Bool.and_eq_true, decide_eq_true_eq]
  rw [and_assoc]
  refine and_congr_right fun _ => and_congr_right fun _ => ?_
  exact (Bool.eq_iff_iff.1 region).trans decide_eq_true_iff

/-! ### A refused packet -/

/-- Checks that hold nothing refuse nothing in front of others (R11). -/
theorem refusal_clear_append {l : List (Bool × Status)} (h : Clear l) (r : List (Bool × Status)) : refusal (l ++ r) = refusal r := by
  have start := (refusal_none l).2 h
  unfold refusal at start ⊢
  rw [List.foldl_append, start]

/-- A packet that is ready is evaluated, its cycles counted on the packet rung (R18, R59, R110, R173). -/
theorem hostIssue_ready {p : Packet} {op : BitVec 6} {f : Enc} {cycles : Nat} {body : Body} {s : State} {plan : Plan}
    (hr : Ready (.host p) op f cycles s) (hp : body (ctxOf (.host p) f s) s.mem (found (.host p) cycles s) = plan)
    (hi : plan.illegal = false) :
    hostIssue p op f cycles body s =
      s.with (((found (.host p) cycles s).rung cycles).evaluate p op f false plan).1
        (((found (.host p) cycles s).rung cycles).evaluate p op f false plan).2 := by
  obtain ⟨first, host, -, -, kind, flags, conf, hd, hA, gate, -, -⟩ := hr
  obtain ⟨rest, hs⟩ : ∃ rest, s.chip.lnk.section_ = wirePacket p (s.chip.wireBody p (encWord op f)) :: rest := by
    cases hx : s.chip.lnk.section_ with
    | nil => rw [hx] at first; cases first
    | cons a r => rw [hx] at first; exact ⟨r, by rw [Option.some.inj first]⟩
  have taken : (s.chip.modLnk fun l => { l with section_ := rest }) = found (.host p) cycles s := by
    simp [found, Chip.modLnk, hs]
  have evaluated : (found (.host p) cycles s).gate p (s.chip.wireBody p (encWord op f)) = .evaluate := gate
  have sees : (⟨.host (p.sid.setWidth 4) ((found (.host p) cycles s).packetSeat p) (p.flags.getLsbD 0), f, packetOperands p⟩ : Ctx)
      = ctxOf (.host p) f s := rfl
  have legal : packetIllegal p f plan = false := by
    have open_ : (decide (p.sid = 0) && p.flags.getLsbD 0) = false := by
      by_cases hp : p.sid = 0
      · rw [conf hp, Bool.and_false]
      · rw [decide_eq_false hp, Bool.false_and]
    simp only [packetIllegal, hi, open_, kind, flags, decide_eq_false (Nat.not_lt.2 hd), decide_eq_false (Nat.not_lt.2 hA)]
    rfl
  simp only [hostIssue, hs, host, ne_eq, not_true_eq_false, decide_false, Bool.not_true, Bool.or_self, Bool.false_eq_true, if_false,
    taken, evaluated, sees, hp, legal]

/-- A packet that is ready and whose answer is no success is answered with that status and zero result bytes, and its sequence is
spent (R11, R58, R110, R117). -/
theorem hostIssue_refused {p : Packet} {op : BitVec 6} {f : Enc} {cycles : Nat} {body : Body} {s : State} {plan : Plan} {st : Status}
    {d : Chip} (hr : Ready (.host p) op f cycles s) (hp : body (ctxOf (.host p) f s) s.mem (found (.host p) cycles s) = plan)
    (hi : plan.illegal = false) (ha : plan.answer [] (begun (.host p) cycles s) = reply st d) (hok : st.ok = false) :
    hostIssue p op f cycles body s = refusedPacket p st d s := by
  rw [hostIssue_ready hr hp hi]
  obtain ⟨-, -, trip, rung, -, -, -, -, -, -, fits, device⟩ := hr
  have clear : Clear (s.chip.rungChecks ++ s.chip.deviceChecks op f) := by
    refine (clear_append _ _).2 ⟨?_, device⟩
    simp [Clear, Chip.rungChecks, trip, rung]
  have answer : plan.answer ((begun (.host p) cycles s).rungChecks ++ (begun (.host p) cycles s).deviceChecks op f)
      (begun (.host p) cycles s) = reply st d := by
    rw [begun_checks, ← ha]
    simp only [Plan.answer, refusal_clear_append clear, List.nil_append]
  have session : ((found (.host p) cycles s).rung cycles).sessionOf p.sid = s.chip.sessionOf p.sid := rfl
  simp only [Chip.evaluate, rung_begun rung fits, answer, reply, hok, Bool.false_eq_true, if_false, Bool.and_false, session,
    State.with, Mems.apply_nil, Chip.written_nil, refusedPacket]
  cases s.chip.sessionOf p.sid <;> rfl

end Sys2Proof.Machine
end

section
/-! LD and ST of either issuer (R147 to R149, R179). -/

namespace Sys2Proof.Machine

theorem State.with_ram (s : State) (a : Nat) (v : Word) (c : Chip) : (s.with [.ram a v] c).mem.ram = s.mem.ram.writeLE a v := rfl

/-! ### Reads that meet a bit error -/

theorem State.reading_bad {s : State} {m : Fin 6} {words : Nat → Bool} {n : Nat} (cycle : Nat) (go : State → State)
    (h : s.chip.badWord m words = some n) : s.reading m words cycle go = s.act fun c => c.eccFail m n (BitVec.ofNat 14 cycle) := by
  unfold State.reading
  rw [h]

theorem State.reading_good {s : State} {m : Fin 6} {words : Nat → Bool} (cycle : Nat) (go : State → State)
    (h : s.chip.badWord m words = none) : s.reading m words cycle go = go (s.act fun c => c.noteReads m words) := by
  unfold State.reading
  rw [h]

/-! ### LD and ST of a thread -/

/-- What an instruction of a thread that fits its slot finds: its cycles counted in its turn (R20, R152). -/
def State.startedBy (s : State) (t : ThreadId) (cycles : Nat) : State := { s with chip := s.chip.starts t cycles }

@[simp] theorem starts_w (c : Chip) (t : ThreadId) (cycles : Nat) : ((c.starts t cycles).threads[t.val]).w = (c.threads[t.val]).w := by
  simp [Chip.starts, Chip.takeTurn, Thread.charge]

@[simp] theorem starts_flaws (c : Chip) (t : ThreadId) (cycles : Nat) : (c.starts t cycles).flaws = c.flaws := rfl
@[simp] theorem starts_ramLog (c : Chip) (t : ThreadId) (cycles : Nat) : (c.starts t cycles).ramLog = c.ramLog := rfl

/-- The registers after a load: the word in D, and the next instruction (R179). -/
def Thread.loaded (x : Thread) (d : BitVec 4) (v : Word) : Thread := { x with w := setReg x.w d v, pc := x.pc + 1 }

/-- LD of a data RAM word (R148, R149). -/
theorem threadLd_ram {t : ThreadId} {f : Enc} {s : State} (h : SlotFits t 2 s) (hm : f.m = 0)
    (ha : memAddress (s.chip.threads[t.val]).w f < 0x30000) (h4 : memAddress (s.chip.threads[t.val]).w f % 4 = 0) :
    threadLd t f s = (s.startedBy t 2).reading 0 (fun w => decide (w = memAddress (s.chip.threads[t.val]).w f / 4))
      ((s.chip.starts t 2).cycleOf t 2) (fun u => u.act fun c => c.modThread t fun x => x.loaded f.d
        ((s.chip.starts t 2).ramSeen s.mem (memAddress (s.chip.threads[t.val]).w f) ((s.chip.starts t 2).cycleOf t 2))) := by
  unfold threadLd
  rw [threadRun_fits _ h]
  simp only [starts_w, hm, if_true]
  rw [if_neg (by simp [h4]; omega)]
  rfl

/-- LD of a program store word (R179). -/
theorem threadLd_prog {t : ThreadId} {f : Enc} {s : State} (h : SlotFits t 2 s) (hm : f.m = 1)
    (hi : s.mem.inImage (memAddress (s.chip.threads[t.val]).w f) = true) :
    threadLd t f s = (s.startedBy t 2).reading 1 (fun w => decide (w = memAddress (s.chip.threads[t.val]).w f))
      ((s.chip.starts t 2).cycleOf t 2) (fun u => u.act fun c => c.modThread t fun x => x.loaded f.d
        (s.mem.progWord (memAddress (s.chip.threads[t.val]).w f))) := by
  unfold threadLd
  rw [threadRun_fits _ h]
  have one : ¬ ((1 : BitVec 2) = 0) := by decide
  simp only [starts_w, hm, one, if_false, if_true, hi]
  rfl

/-- LD from an address that the thread may not read (R147, R179). -/
theorem threadLd_bounds {t : ThreadId} {f : Enc} {s : State} (h : SlotFits t 2 s)
    (bad : (f.m = 0 ∧ (0x30000 ≤ memAddress (s.chip.threads[t.val]).w f ∨ memAddress (s.chip.threads[t.val]).w f % 4 ≠ 0)) ∨
      (f.m = 1 ∧ s.mem.inImage (memAddress (s.chip.threads[t.val]).w f) = false)) :
    threadLd t f s = ranThread t 2 (fun x => x.fault 4) s := by
  unfold threadLd
  rw [threadRun_fits _ h]
  rcases bad with ⟨hm, ha⟩ | ⟨hm, hi⟩
  · simp only [starts_w, hm, if_true]
    rw [if_pos (by simpa using ha)]
    rfl
  · have one : ¬ ((1 : BitVec 2) = 0) := by decide
    simp only [starts_w, hm, one, if_false, if_true, hi, Bool.false_eq_true]
    rfl

/-- ST to an address that the thread may not write (R147, R179). -/
theorem threadSt_bounds {t : ThreadId} {f : Enc} {s : State} (h : SlotFits t 2 s) (hm : f.m = 0)
    (bad : 0x30000 ≤ memAddress (s.chip.threads[t.val]).w f ∨ memAddress (s.chip.threads[t.val]).w f % 4 ≠ 0 ∨
      threadMayWrite t (memAddress (s.chip.threads[t.val]).w f) = false) :
    threadSt t f s = ranThread t 2 (fun x => x.fault 4) s := by
  unfold threadSt
  rw [threadRun_fits _ h]
  simp only [starts_w, hm, ne_eq, not_true_eq_false, if_false]
  rw [if_pos (by simpa [or_assoc] using bad)]
  rfl

/-- The device after a store of a thread: the scan engine's reads noted, and the store in the window's log (R148, R338). -/
def Chip.storedBy (c : Chip) (m : Mems) (t : ThreadId) (a : Nat) (v : Word) : Chip :=
  (c.noteScanned 0 (a / 4) (c.cycleOf t 2)).logRam m ⟨a, c.cycleOf t 2, (clusterOf t).1 + 1, v⟩

/-- ST of a thread: the word that stands after its write is in data RAM, and a doorbell rings (R147, R148, R179). -/
theorem threadSt_stores {t : ThreadId} {f : Enc} {s : State} (h : SlotFits t 2 s) (hm : f.m = 0)
    (ha : memAddress (s.chip.threads[t.val]).w f < 0x30000) (h4 : memAddress (s.chip.threads[t.val]).w f % 4 = 0)
    (hw : threadMayWrite t (memAddress (s.chip.threads[t.val]).w f) = true) :
    threadSt t f s =
      let a := memAddress (s.chip.threads[t.val]).w f
      let c := (s.chip.starts t 2).storedBy s.mem t a (regOf (s.chip.threads[t.val]).w f.d)
      s.with [.ram a (c.ramStands s.mem a)] ((c.modThread t fun x => { x with pc := x.pc + 1 }).ring a) := by
  unfold threadSt
  rw [threadRun_fits _ h]
  simp only [starts_w, hm, ne_eq, not_true_eq_false, if_false]
  rw [if_neg (by simp [h4, hw]; omega)]
  rfl

theorem storedBy_threads (c : Chip) (m : Mems) (t : ThreadId) (a : Nat) (v : Word) : (c.storedBy m t a v).threads = c.threads := by
  unfold Chip.storedBy
  rw [Chip.logRam_threads, Chip.noteScanned_eq]

theorem storedBy_dev (c : Chip) (m : Mems) (t : ThreadId) (a : Nat) (v : Word) : (c.storedBy m t a v).dev = c.dev := by
  unfold Chip.storedBy
  rw [Chip.logRam_dev, Chip.noteScanned_eq]

/-- The store enters the log as if the scan engine had read nothing. -/
theorem storedBy_ramLog (c : Chip) (m : Mems) (t : ThreadId) (a : Nat) (v : Word) :
    (c.storedBy m t a v).ramLog = (c.logRam m ⟨a, c.cycleOf t 2, (clusterOf t).1 + 1, v⟩).ramLog := by
  unfold Chip.storedBy
  rw [Chip.noteScanned_eq]
  rfl

/-- The store stands where no write of a later cycle, or of a higher cluster in its cycle, stands there (R20, R148). -/
theorem storedBy_stands_own {c : Chip} {m : Mems} {t : ThreadId} {a : Nat} {v : Word}
    (h : ∀ x ∈ c.ramLog, x.addr = a → x.yields ⟨a, c.cycleOf t 2, (clusterOf t).1 + 1, v⟩) :
    (c.storedBy m t a v).ramStands m a = v := by
  unfold Chip.storedBy
  rw [Chip.noteScanned_eq]
  exact ramStands_logRam_own (w := ⟨a, c.cycleOf t 2, (clusterOf t).1 + 1, v⟩) h

/-- A write of a later cycle, or of a higher cluster in the same one, stands over the store (R20, R148). -/
theorem storedBy_stands_other {c : Chip} {m : Mems} {t : ThreadId} {a : Nat} {v : Word} {w : RamWrite} (hw : w ∈ c.ramLog)
    (ha : w.addr = a) (hv : (RamWrite.mk a (c.cycleOf t 2) ((clusterOf t).1 + 1) v).comesBefore w)
    (h : ∀ x ∈ c.ramLog, x.addr = a → x = w ∨ x.comesBefore w) : (c.storedBy m t a v).ramStands m a = w.word := by
  unfold Chip.storedBy
  rw [Chip.noteScanned_eq]
  exact ramStands_logRam_other (v := ⟨a, c.cycleOf t 2, (clusterOf t).1 + 1, v⟩) hw ha hv h

/-! ### LD and ST of the host -/

/-- A packet whose first refusal is a status is answered with it and changes nothing else (R11). -/
theorem hostIssue_refused_by {p : Packet} {op : BitVec 6} {f : Enc} {cycles : Nat} {body : Body} {s : State} {plan : Plan} {st : Status}
    (hr : Ready (.host p) op f cycles s) (hp : body (ctxOf (.host p) f s) s.mem (found (.host p) cycles s) = plan)
    (hi : plan.illegal = false) (hc : refusal plan.checks = some st) (hok : st.ok = false)
    (hleft : ∀ c, plan.onRefusal st c = c) :
    hostIssue p op f cycles body s = refusedPacket p st (begun (.host p) cycles s) s := by
  refine hostIssue_refused hr hp hi ?_ hok
  simp only [Plan.answer, List.nil_append, hc, hleft]

theorem refusal_denied {a b : Bool} (h : a = true) : refusal [(a, .denied), (b, .range)] = some .denied := by
  cases b <;> simp [h, refusal, Status.first, Status.rank]

theorem refusal_range {a b : Bool} (h : a = false) (hb : b = true) : refusal [(a, .denied), (b, .range)] = some .range := by
  simp [h, hb, refusal, Status.first]

/-- What LD of the host may be refused for: the THR read bit missing, or an address outside doorbells and mailboxes (R149). -/
def ldChecks (f : Enc) (a : Nat) (s : State) (p : Packet) : Checks :=
  [(!s.chip.classBit (whoOf (.host p) s).seat 6 0, .denied), (f.m = 1 || !hostMayAccess a, .range)]

/-- The plan of LD of the host, of a word that SECDED can read (R149). -/
theorem bodyLd_good {p : Packet} {f : Enc} {s : State}
    (h : s.chip.badWord 0 (fun n => decide (n = memAddress (operandsOf (.host p) s) f / 4)) = none) :
    bodyLd (ctxOf (.host p) f s) s.mem (found (.host p) 2 s) =
      { illegal := 1 < f.m.toNat, checks := ldChecks f (memAddress (operandsOf (.host p) s) f) s p, queue := none,
        act := fun c => ⟨.done, [(f.d, s.mem.ram.readLE (memAddress (operandsOf (.host p) s) f))], [],
          c.noteReads 0 fun n => decide (n = memAddress (operandsOf (.host p) s) f / 4)⟩ } := by
  have good : (found (.host p) 2 s).badWord 0 (fun n => decide (n = memAddress (ctxOf (.host p) f s).w (ctxOf (.host p) f s).f / 4)) =
      none := h
  unfold bodyLd Plan.reads
  dsimp only
  rw [good]
  simp only [List.append_nil]
  rfl

/-- The plan of LD of the host, of a word that SECDED cannot correct (R25, R149). -/
theorem bodyLd_bad {p : Packet} {f : Enc} {s : State} {n : Nat}
    (h : s.chip.badWord 0 (fun n => decide (n = memAddress (operandsOf (.host p) s) f / 4)) = some n) :
    bodyLd (ctxOf (.host p) f s) s.mem (found (.host p) 2 s) =
      { illegal := 1 < f.m.toNat, checks := ldChecks f (memAddress (operandsOf (.host p) s) f) s p, queue := none,
        act := fun c => reply .state (c.eccFail 0 n (BitVec.ofNat 14 (c.startedAt (whoOf (.host p) s) 2))) } := by
  have bad : (found (.host p) 2 s).badWord 0 (fun n => decide (n = memAddress (ctxOf (.host p) f s).w (ctxOf (.host p) f s).f / 4)) =
      some n := h
  unfold bodyLd Plan.reads
  dsimp only
  rw [bad]
  rfl

/-- LD of the host is refused as its checks say, whatever the word holds. -/
theorem hostLd_refused {p : Packet} {f : Enc} {s : State} {st : Status} (hr : Ready (.host p) 0x10 f 2 s) (hm : f.m.toNat ≤ 1)
    (hc : refusal (ldChecks f (memAddress (operandsOf (.host p) s) f) s p) = some st) (hok : st.ok = false) :
    runLd (.host p) f s = refusedPacket p st (begun (.host p) 2 s) s := by
  have legal : decide (1 < f.m.toNat) = false := decide_eq_false (Nat.not_lt.2 hm)
  cases h : s.chip.badWord 0 (fun n => decide (n = memAddress (operandsOf (.host p) s) f / 4)) with
  | none => exact hostIssue_refused_by hr (bodyLd_good h) legal hc hok fun _ => rfl
  | some n => exact hostIssue_refused_by hr (bodyLd_bad h) legal hc hok fun _ => rfl

/-- LD of the host with nothing in its way answers with the word, or trips where SECDED cannot correct it (R25, R149). -/
theorem hostLd_accepted {p : Packet} {f : Enc} {s : State} (hr : Ready (.host p) 0x10 f 2 s) (hm : f.m = 0)
    (hbit : s.chip.classBit (whoOf (.host p) s).seat 6 0 = true) (ha : hostMayAccess (memAddress (operandsOf (.host p) s) f) = true) :
    (s.chip.badWord 0 (fun n => decide (n = memAddress (operandsOf (.host p) s) f / 4)) = none →
      runLd (.host p) f s = answered (.host p) ⟨.done, [(f.d, s.mem.ram.readLE (memAddress (operandsOf (.host p) s) f))], [],
        (begun (.host p) 2 s).noteReads 0 fun n => decide (n = memAddress (operandsOf (.host p) s) f / 4)⟩ s) ∧
    (∀ n, s.chip.badWord 0 (fun n => decide (n = memAddress (operandsOf (.host p) s) f / 4)) = some n →
      runLd (.host p) f s = refusedPacket p .state ((begun (.host p) 2 s).eccFail 0 n
        (BitVec.ofNat 14 ((begun (.host p) 2 s).startedAt (whoOf (.host p) s) 2))) s) := by
  have legal : decide (1 < f.m.toNat) = false := by simp [hm]
  have clear : Clear (ldChecks f (memAddress (operandsOf (.host p) s) f) s p) := by simp [Clear, ldChecks, hbit, ha, hm]
  refine ⟨fun h => issue_plan (i := .host p) hr (bodyLd_good h) legal clear rfl rfl, fun n h => ?_⟩
  refine hostIssue_refused hr (bodyLd_bad h) legal ?_ rfl
  simp only [Plan.answer, List.nil_append, (refusal_none _).2 clear]

/-- ST of the host is refused as its checks say (R149). -/
theorem hostSt_refused {p : Packet} {f : Enc} {s : State} {st : Status} (hr : Ready (.host p) 0x11 f 2 s) (hm : f.m = 0)
    (hc : refusal [(!s.chip.classBit (whoOf (.host p) s).seat 6 1, .denied),
      (!hostMayAccess (memAddress (operandsOf (.host p) s) f), .range)] = some st) (hok : st.ok = false) :
    runSt (.host p) f s = refusedPacket p st (begun (.host p) 2 s) s :=
  hostIssue_refused_by hr rfl (by simp [bodySt, ctxOf, hm]) hc hok fun _ => rfl

/-- ST of the host with nothing in its way writes the word and rings (R149). -/
theorem hostSt_accepted {p : Packet} {f : Enc} {s : State} (hr : Ready (.host p) 0x11 f 2 s) (hm : f.m = 0)
    (hbit : s.chip.classBit (whoOf (.host p) s).seat 6 1 = true) (ha : hostMayAccess (memAddress (operandsOf (.host p) s) f) = true) :
    runSt (.host p) f s = answered (.host p) ⟨.done, [],
      [.ram (memAddress (operandsOf (.host p) s) f) (regOf (operandsOf (.host p) s) f.d)],
      (begun (.host p) 2 s).ring (memAddress (operandsOf (.host p) s) f)⟩ s := by
  have clear : Clear [(!s.chip.classBit (whoOf (.host p) s).seat 6 1, Status.denied),
      (!hostMayAccess (memAddress (operandsOf (.host p) s) f), .range)] := by simp [Clear, hbit, ha]
  exact issue_plan (i := .host p) hr rfl (by simp [bodySt, ctxOf, hm]) clear rfl rfl

/-! ### The obligation -/

/-- What a store of a thread leaves: its word or the one that stands over it in data RAM, every other byte, and the log (R20, R148). -/
theorem threadSt_leaves {t : ThreadId} {f : Enc} {s : State} (h : SlotFits t 2 s) (wf : s.mem.wf = true) (hm : f.m = 0) :
    let c := found (.thread t) 2 s
    let at_ := c.cycleOf t 2
    let a := memAddress (s.chip.threads[t.val]).w f
    let v := regOf (s.chip.threads[t.val]).w f.d
    let mine : RamWrite := ⟨a, at_, (clusterOf t).1 + 1, v⟩
    a < 0x30000 → a % 4 = 0 → threadMayWrite t a = true →
      let u := threadSt t f s
      u.chip.threads = ((c.modThread t fun x => { x with pc := x.pc + 1 }).ring a).threads ∧ u.chip.dev = s.chip.dev ∧
        u.chip.ramLog = (c.logRam s.mem mine).ramLog ∧
        ((∀ x ∈ s.chip.ramLog, x.addr = a → x.yields mine) → ∀ n < 4, u.mem.ram.read (a + n) = v.extractLsb' (8 * n) 8) ∧
        (∀ w ∈ s.chip.ramLog, w.addr = a → mine.comesBefore w → (∀ x ∈ s.chip.ramLog, x.addr = a → x = w ∨ x.comesBefore w) →
          ∀ n < 4, u.mem.ram.read (a + n) = w.word.extractLsb' (8 * n) 8) ∧
        (∀ b, b < a ∨ a + 4 ≤ b → u.mem.ram.read b = s.mem.ram.read b) ∧
        u.mem.prog = s.mem.prog ∧ u.mem.cam = s.mem.cam ∧ u.mem.journal = s.mem.journal := by
  intro c at_ a v mine ha h4 hw u
  have hu : u = _ := threadSt_stores h hm ha h4 hw
  have hram : s.mem.ram.wf = true := by
    simp only [Mems.wf, Bool.and_eq_true] at wf
    exact wf.1.1.1
  rw [hu]
  dsimp only
  refine ⟨?_, ?_, ?_, fun later n hn => ?_, fun w hw hwa before latest n hn => ?_, fun b hb => ?_, rfl, rfl, rfl⟩
  · exact Chip.ring_threads_congr a (by simp only [Chip.modThread_threads, storedBy_threads]; rfl)
  · simp only [State.with_chip, Chip.written_dev, Chip.ring_dev, Chip.modThread_dev, storedBy_dev]
    rfl
  · simp only [State.with_chip, Chip.written_ramLog, Chip.ring_ramLog, Chip.modThread_ramLog, storedBy_ramLog]
    rfl
  · rw [storedBy_stands_own (c := s.chip.starts t 2) later, State.with_ram]
    exact Mem.read_writeLE_same _ _ _ _ hram hn
  · rw [storedBy_stands_other (c := s.chip.starts t 2) hw hwa before latest, State.with_ram]
    exact Mem.read_writeLE_same _ _ _ _ hram hn
  · rw [State.with_ram]
    exact Mem.read_writeLE_other _ _ _ _ hb

/-- Settles O15: the write that stands in the window's log decides what a load sees and a store leaves; of a packet its checks decide. -/
theorem loadsAndStores : Obligations.LoadsAndStores := by
  refine ⟨⟨fun t f s h => ?_, fun t f s h wf hm => ?_⟩, fun p f s => ?_, fun w f => hostMayAccess_iff _⟩
  · refine ⟨fun hm ha h4 => ⟨fun n bad => ?_, fun good => ⟨fun unwritten => ?_, fun w hw hwa before latest => ?_⟩⟩,
      fun hm inside => ⟨fun n bad => ?_, fun good => ?_⟩, fun bad => congrArg _ (threadLd_bounds h bad)⟩
    · exact congrArg _ ((threadLd_ram h hm ha h4).trans (State.reading_bad _ _ bad))
    · refine congrArg _ ((threadLd_ram h hm ha h4).trans ((State.reading_good _ _ good).trans ?_))
      rw [ramSeen_unwritten (c := s.chip.starts t 2) (a := memAddress _ f) unwritten]
      rfl
    · refine congrArg _ ((threadLd_ram h hm ha h4).trans ((State.reading_good _ _ good).trans ?_))
      rw [ramSeen_latest (c := s.chip.starts t 2) (a := memAddress _ f) (cycle := (s.chip.starts t 2).cycleOf t 2) hw hwa before
        fun x hx hxa hxc => (latest x hx hxa hxc).imp_right .inl]
      rfl
    · exact congrArg _ ((threadLd_prog h hm inside).trans (State.reading_bad _ _ bad))
    · exact congrArg _ ((threadLd_prog h hm inside).trans (State.reading_good _ _ good))
  · refine ⟨fun ha h4 hw => ⟨_, rfl, (kept_threadSt t f s).1, ?_⟩, fun bad => congrArg _ (threadSt_bounds h hm bad)⟩
    obtain ⟨threads, dev, log, own, other, frame, prog, cam, journal⟩ := threadSt_leaves h wf hm ha h4 hw
    refine ⟨threads, dev, log, ?_, own,
      fun w hw hwa before => other w hw hwa (before.imp_right fun ⟨hc, hk⟩ => ⟨hc.symm, hk⟩), frame, prog, cam, journal⟩
    obtain ⟨l, hl, -⟩ := logRam_ramLog (found (.thread t) 2 s) s.mem
      ⟨_, (found (.thread t) 2 s).cycleOf t 2, (clusterOf t).1 + 1, _⟩
    exact log ▸ hl ▸ List.mem_concat_self
  · intro i a seat refused
    refine ⟨fun hm hr bit => ?_, fun hm => ⟨fun hr => ⟨fun bit => ?_, fun bit out => ?_, fun bit inside => ?_⟩,
      fun hr => ⟨fun bit => ?_, fun bit out => ?_, fun bit inside => ?_⟩⟩⟩
    · exact congrArg _ (hostLd_refused hr (by simp [hm]) (refusal_range (congrArg not bit)
        (Bool.or_eq_true_iff.2 (.inl (decide_eq_true hm)))) rfl)
    · exact congrArg _ (hostLd_refused hr (by simp [hm]) (refusal_denied (congrArg not bit)) rfl)
    · exact congrArg _ (hostLd_refused hr (by simp [hm]) (refusal_range (congrArg not bit)
        (Bool.or_eq_true_iff.2 (.inr (congrArg not out)))) rfl)
    · obtain ⟨good, bad⟩ := hostLd_accepted hr hm bit inside
      exact ⟨fun h => congrArg _ (good h), fun n h => congrArg _ (bad n h)⟩
    · exact congrArg _ (hostSt_refused hr hm (refusal_denied (congrArg not bit)) rfl)
    · exact congrArg _ (hostSt_refused hr hm (refusal_range (congrArg not bit) (congrArg not out)) rfl)
    · exact congrArg _ (hostSt_accepted hr hm bit inside)

end Sys2Proof.Machine
end

section
/-! Slots, wakes, stalls and restarts of threads (R142, R150 to R158). -/

namespace Sys2Proof.Machine

theorem act_congr {s : State} {f g : Chip → Chip} (h : f s.chip = g s.chip) : s.act f = s.act g := by
  simp only [State.act, h]

/-! ### Work at the start of a slot -/

/-- The thread's slot is in turn in the thread window of a running device (R18, R20, R150). -/
theorem atSlot_of {c : Chip} {t : ThreadId} (hr : c.running = true) (hm : c.may .thread = true) (hi : c.inTurn t (c.slotStart t) = true) :
    c.atSlot t = true := by
  simp [Chip.atSlot, hr, hm, hi]

/-- What befalls a thread at the start of its slot happens with the slot's turn taken (R20, R150). -/
theorem atSlotStart_sound {s : State} {t : ThreadId} {holds : Bool} (f : Chip → Chip) (at_ : s.chip.atSlot t = true)
    (sound : s.chip.scanFails (s.chip.slotStart t + 1) = false) (h : holds = true) :
    s.atSlotStart t holds f = s.act fun c => f (c.openAt t) := by
  simp [State.atSlotStart, State.behindScan, at_, sound, h]

/-- Where the scan engine has read an uncorrectable word by then, the device trips in place of it (R338). -/
theorem atSlotStart_unsound {s : State} {t : ThreadId} {holds : Bool} (f : Chip → Chip) (at_ : s.chip.atSlot t = true)
    (unsound : s.chip.scanFails (s.chip.slotStart t + 1) = true) (h : holds = true) :
    s.atSlotStart t holds f = s.act fun c => c.scanTo s.mem (c.slotStart t + 1) := by
  simp only [State.atSlotStart, State.behindScan, at_, unsound, h, Bool.and_self, if_true]
  exact act_congr rfl

/-- Where its condition does not hold, nothing befalls the thread. -/
theorem atSlotStart_idle {s : State} {t : ThreadId} {holds : Bool} (f : Chip → Chip) (h : holds = false) :
    s.atSlotStart t holds f = s := by
  simp [State.atSlotStart, h]

/-- Two changes of a thread that agree on it as it stands do the same. -/
theorem modThread_congr {c : Chip} {t : ThreadId} {f g : Thread → Thread} (h : f c.threads[t.val] = g c.threads[t.val]) :
    c.modThread t f = c.modThread t g := by
  simp only [Chip.modThread, upd, h]

/-! ### The slot -/

/-- THREAD_SLOT of a lit thread whose slot is in turn opens it and runs up to n instructions (R142, R150). -/
theorem runThreadSlot_opens {t : ThreadId} {s : State} (n : BitVec 14) (hr : s.chip.running = true) (hm : s.chip.may .thread = true)
    (hl : s.chip.lit t = true) (hi : s.chip.inTurn t (s.chip.slotStart t) = true) :
    runThreadSlot t n s = fetchLoop t n.toNat (s.act fun c => (c.enter .thread).modThread t Thread.openSlot) := by
  simp only [runThreadSlot, hr, hm, hl, hi, Bool.and_self, if_true]
  rfl

theorem openSlot_ready {x : Thread} (hs : x.st = .ready) (hn : x.ran = false) (hm : x.mustRestart = false) :
    x.openSlot = { x with slotLeft := x.budgetAct, last := 0, ran := true } := by
  simp [Thread.openSlot, hs, hn, hm]

theorem openSlot_waiting {x : Thread} (hs : x.st = .waiting) (hn : x.ran = false) (hm : x.mustRestart = false) :
    x.openSlot = { x with last := 0, progressed := true } := by
  simp [Thread.openSlot, hs, hn, hm]

/-- The slot of a READY thread open: the thread's budget, and nothing run yet (R150). -/
def State.slotOpened (s : State) (t : ThreadId) : State :=
  s.act fun c => (c.enter .thread).modThread t fun x => { x with slotLeft := x.budgetAct, last := 0, ran := true }

theorem slotOpened_eq {s : State} {t : ThreadId} (hs : (s.chip.threads[t.val]).st = .ready) (hn : (s.chip.threads[t.val]).ran = false)
    (hm : (s.chip.threads[t.val]).mustRestart = false) :
    (s.act fun c => (c.enter .thread).modThread t Thread.openSlot) = s.slotOpened t :=
  act_congr (modThread_congr (openSlot_ready hs hn hm))

/-- The slots of a cluster begin where the budgets in force say (R150). -/
theorem slotStart_congr {c d : Chip} (t : ThreadId) (h : ∀ u : ThreadId, (c.threads[u.val]).budgetAct = (d.threads[u.val]).budgetAct) :
    c.slotStart t = d.slotStart t := by
  simp only [Chip.slotStart, h]

@[simp] theorem slotOpened_slotStart (s : State) (t : ThreadId) : (s.slotOpened t).chip.slotStart t = s.chip.slotStart t := by
  refine slotStart_congr t fun u => ?_
  simp only [State.slotOpened, State.act_chip, Chip.modThread_threads, upd_at]
  split <;> rfl

/-- The first instruction of a slot starts where the slot begins (R150, R152). -/
theorem slotOpened_cycleOf (s : State) (t : ThreadId) : (s.slotOpened t).chip.cycleOf t 0 = s.chip.slotStart t := by
  unfold Chip.cycleOf
  rw [slotOpened_slotStart]
  simp [State.slotOpened]

/-! ### A wake -/

theorem elapsed_eq_any (c : Chip) (x : Thread) : c.elapsed x = x.deadline.any fun n => decide (n.toNat ≤ c.dev.tick.toNat) := by
  unfold Chip.elapsed
  cases x.deadline <;> rfl

/-! ### The escalation of a halt -/

/-- Whether a thread stands halted and owes no restart: what an escalation leaves of every thread. -/
def Chip.standing (c : Chip) (t : ThreadId) : ThreadState × Bool := ((c.threads[t.val]).st, (c.threads[t.val]).mustRestart)

theorem standing_of_threads {c d : Chip} (t : ThreadId) (h : c.threads = d.threads) : c.standing t = d.standing t := by
  simp only [Chip.standing, h]

@[simp] theorem raiseSee_standing (c : Chip) (k : CarId) (b : Nat) (t : ThreadId) : (c.raiseSee k b).standing t = c.standing t := by
  simp only [Chip.standing, Chip.raiseSee, vmap_at]
  split <;> rfl

@[simp] theorem setService_standing (c : Chip) (k : CarId) (dest : Service) (t : ThreadId) :
    (c.setService k dest).standing t = c.standing t := by
  unfold Chip.setService
  dsimp only
  split
  · rfl
  · split
    · exact (raiseSee_standing ..).trans (raiseSee_standing ..)
    · exact raiseSee_standing ..

/-- A car fault raises events and leaves every thread as it stands (R252). -/
@[simp] theorem carFault_standing (c : Chip) (k : CarId) (code stamp : Nat) (t : ThreadId) :
    (c.carFault k code stamp).standing t = c.standing t := by
  refine Chip.carFault_keeps c (fun c => c.standing t) ?_ ?_ ?_ ?_ ?_ ?_ ?_ k code stamp
  · exact fun _ _ _ => rfl
  · exact fun _ _ _ => rfl
  · exact fun _ _ _ => rfl
  · exact fun _ _ => rfl
  · exact fun c k d => setService_standing c k d t
  · exact fun c k b => raiseSee_standing c k b t
  · exact fun c _ k b => standing_of_threads t (Chip.record_threads c _ k b _)

@[simp] theorem threadFault_standing (c : Chip) (k : CarId) (cycle : Nat) (t : ThreadId) :
    (c.threadFault k cycle).standing t = c.standing t := by
  unfold Chip.threadFault
  split
  · rfl
  · exact carFault_standing ..

/-- What every step of a fold over the channels keeps, the fold keeps. -/
theorem foldFin_keeps {σ β : Type} {n : Nat} (g : σ → β) (f : Fin n → σ → σ) (h : ∀ i s, g (f i s) = g s) (s : σ) :
    g (foldFin n f s) = g s := by
  unfold foldFin
  induction List.finRange n generalizing s with
  | nil => rfl
  | cons i l ih => exact (ih _).trans (h i s)

@[simp] theorem dropPowerCredits_threads (c : Chip) : c.dropPowerCredits.threads = c.threads := by
  unfold Chip.dropPowerCredits
  dsimp only
  induction c.cars.toList generalizing c with
  | nil => rfl
  | cons x l ih => exact (ih _).trans (Chip.release_threads ..)

/-- A trip leaves the threads (R81). -/
@[simp] theorem trip_threads (c : Chip) (cause : BitVec 5) (syndrome : Word) (cycle : BitVec 14) :
    (c.trip cause syndrome cycle).threads = c.threads := by
  have noted (b : Bool) (e : InputItem) : (if b then c.note e else c).threads = c.threads := by cases b <;> rfl
  unfold Chip.trip
  extract_lets d
  have same : d.threads = c.threads := noted _ _
  clear_value d
  rw [← same]
  split
  · rfl
  · split <;> rfl
  · exact dropPowerCredits_threads _
  · exact dropPowerCredits_threads _
  · split
    · rfl
    · split <;> rfl

/-- A trip in RUN stands with its cause (R81, R82). -/
theorem trip_running {c : Chip} (cause : BitVec 5) (syndrome : Word) (cycle : BitVec 14) (h : c.running = true) :
    (c.trip cause syndrome cycle).dev.state = .tripped ∧ (c.trip cause syndrome cycle).dev.cause = cause := by
  have run : c.dev.state = .run := by simpa [Chip.running] using h
  have noted (b : Bool) (e : InputItem) : (if b then c.note e else c).dev = c.dev := by cases b <;> rfl
  unfold Chip.trip
  extract_lets d
  have state : d.dev.state = .run := (congrArg Dev.state (noted _ _)).trans run
  clear_value d
  rw [state]
  exact ⟨rfl, rfl⟩

@[simp] theorem escalate_standing (c : Chip) (t u : ThreadId) (cycle : Nat) : (c.escalate t cycle).standing u = c.standing u := by
  unfold Chip.escalate
  split
  · exact threadFault_standing ..
  · dsimp only
    split
    · refine foldFin_keeps (fun c => c.standing u) _ (fun k c => ?_) c
      split
      · exact threadFault_standing ..
      · rfl
    · exact standing_of_threads u (trip_threads ..)

/-- A car fault of a car that is not ISLAND_OFF leaves it in STOPPED_FAULT (R252). -/
theorem carFault_stops {c : Chip} {k : CarId} (code stamp : Nat) (h : (c.cars[k.val]).service ≠ .islandOff) :
    ((c.carFault k code stamp).cars[k.val]).service = .stoppedFault := by
  by_cases stands : (c.cars[k.val]).service = .stoppedFault
  · unfold Chip.carFault
    simp only [stands, reduceCtorEq, if_false, if_true]
    split
    · split <;> simp [stands]
    · split
      · split <;> simp [Chip.rewriteCarFault, stands]
      · split
        · split <;> simp [Chip.rewriteCarFault, stands]
        · split <;> simp [stands]
  · rw [(Chip.carFault_new c k code stamp h stands).1]
    simp

/-- The escalation of a car's or a door's thread stops its car and no more of the device (R157). -/
theorem escalate_car {c : Chip} {t : ThreadId} {k : CarId} (cycle : Nat) (hk : carOfThread t = some k)
    (h : (c.cars[k.val]).service ≠ .islandOff) :
    ((c.escalate t cycle).cars[k.val]).service = .stoppedFault ∧ (c.escalate t cycle).dev = c.dev := by
  simp only [Chip.escalate, hk, Chip.threadFault, h, if_false]
  exact ⟨carFault_stops _ _ h, Chip.carFault_dev ..⟩

/-- The escalation of a system thread trips the device with SYSTEM_THREAD (R157, Table 4-6). -/
theorem escalate_system {c : Chip} {t : ThreadId} (cycle : Nat) (h : 44 ≤ t.val) (hr : c.running = true) :
    (c.escalate t cycle).dev.state = .tripped ∧ (c.escalate t cycle).dev.cause = 13 := by
  have own : carOfThread t = none := by simp [carOfThread, show ¬ t.val < 12 by omega, show ¬ t.val < 36 by omega]
  simp only [Chip.escalate, own, show ¬ t.val < 44 by omega, if_false]
  exact trip_running _ _ _ hr

/-! ### What befalls a thread at the start of its slot -/

section

variable {t : ThreadId} {s : State}

/-- A WAITING thread with a masked event or an elapsed count wakes (R154). -/
theorem runThreadWake_due (at_ : s.chip.atSlot t = true) (sound : s.chip.scanFails (s.chip.slotStart t + 1) = false)
    (hl : s.chip.lit t = true) (hs : (s.chip.threads[t.val]).st = .waiting)
    (due : (s.chip.threads[t.val]).pend &&& (s.chip.threads[t.val]).mask ≠ 0 ∨ s.chip.elapsed s.chip.threads[t.val] = true) :
    runThreadWake t s = s.act fun c => (c.openAt t).modThread t fun x =>
      x.completeWait ((s.chip.threads[t.val]).pend &&& (s.chip.threads[t.val]).mask)
        (if s.chip.elapsed s.chip.threads[t.val] then 1 else 0) := by
  unfold runThreadWake
  refine (atSlotStart_sound _ at_ sound (by simpa [hl, hs] using due)).trans ?_
  exact act_congr (modThread_congr rfl)

/-- A WAITING thread with neither goes on waiting (R154). -/
theorem runThreadWake_waits (none_ : (s.chip.threads[t.val]).pend &&& (s.chip.threads[t.val]).mask = 0)
    (he : s.chip.elapsed s.chip.threads[t.val] = false) : runThreadWake t s = s := by
  unfold runThreadWake
  exact atSlotStart_idle _ (by simp [none_, he])

/-- A thread whose stall count has come to its limit is wedged (R155). -/
theorem runThreadStall_due (at_ : s.chip.atSlot t = true) (sound : s.chip.scanFails (s.chip.slotStart t + 1) = false)
    (hs : (s.chip.threads[t.val]).st = .ready) (hf : (s.chip.threads[t.val]).mustRestart = false)
    (h0 : (s.chip.threads[t.val]).stallMaxAct ≠ 0)
    (hc : (s.chip.threads[t.val]).stallMaxAct.toNat ≤ (s.chip.threads[t.val]).stallCnt.toNat) :
    runThreadStall t s = s.act fun c => (c.openAt t).modThread t fun x => x.fault 1 := by
  unfold runThreadStall
  exact atSlotStart_sound _ at_ sound (by simpa [hs, hf, hc] using h0)

/-- A thread that owes a restart, with fewer than two in the window, starts again at THR_RESTART (R156, R157). -/
theorem runThreadRestart_due (at_ : s.chip.atSlot t = true) (sound : s.chip.scanFails (s.chip.slotStart t + 1) = false)
    (hl : s.chip.lit t = true) (hf : (s.chip.threads[t.val]).mustRestart = true) (hn : (s.chip.threads[t.val]).ran = false)
    (hw : s.chip.restartWindow t < 2) :
    runThreadRestart t s = s.act fun c => (c.openAt t).modThread t fun x => (x.countRestart c.dev.tick).start x.restart := by
  unfold runThreadRestart
  refine (atSlotStart_sound _ at_ sound (by simp [hl, hf, hn, hw])).trans ?_
  exact act_congr rfl

/-- In place of the restart the device trips where the scan engine has read an uncorrectable word (R338). -/
theorem runThreadRestart_unsound (at_ : s.chip.atSlot t = true) (unsound : s.chip.scanFails (s.chip.slotStart t + 1) = true)
    (hl : s.chip.lit t = true) (hf : (s.chip.threads[t.val]).mustRestart = true) (hn : (s.chip.threads[t.val]).ran = false)
    (hw : s.chip.restartWindow t < 2) : runThreadRestart t s = s.act fun c => c.scanTo s.mem (c.slotStart t + 1) := by
  unfold runThreadRestart
  exact atSlotStart_unsound _ at_ unsound (by simp [hl, hf, hn, hw])

/-- A thread at its third restart within 1,024 ticks halts and escalates (R157). -/
theorem runThreadHaltLimit_due (at_ : s.chip.atSlot t = true) (sound : s.chip.scanFails (s.chip.slotStart t + 1) = false)
    (hl : s.chip.lit t = true) (hf : (s.chip.threads[t.val]).mustRestart = true) (hn : (s.chip.threads[t.val]).ran = false)
    (hw : 2 ≤ s.chip.restartWindow t) :
    runThreadHaltLimit t s = s.act fun c => ((c.openAt t).modThread t fun x =>
      { x.countRestart c.dev.tick with st := .halted, mustRestart := false, slotLeft := 0 }).escalate t (c.slotStart t) := by
  unfold runThreadHaltLimit
  exact atSlotStart_sound _ at_ sound (by simp [hl, hf, hn, hw])

/-- The slot's thread may open it now, READY with a budget and no restart owed, and the scan engine has met no uncorrectable word
(R15, R18, R20, R150, R338). -/
structure OpensSlot (t : ThreadId) (s : State) : Prop where
  running : s.chip.running = true
  window : s.chip.may .thread = true
  lit : s.chip.lit t = true
  turn : s.chip.inTurn t (s.chip.slotStart t) = true
  ready : (s.chip.threads[t.val]).st = .ready
  fresh : (s.chip.threads[t.val]).ran = false
  unfaulted : (s.chip.threads[t.val]).mustRestart = false
  budget : (s.chip.threads[t.val]).budgetAct ≠ 0
  sound : s.chip.scanFails (s.chip.slotStart t + 1) = false

/-- The first instruction of an open slot is fetched (R150, R180). -/
theorem threadNow_slotOpened (go : State → State) (h : OpensSlot t s) : (s.slotOpened t).threadNow t go = go (s.slotOpened t) := by
  have sck : s.chip.lnk.sckRunning = true := by
    have window := h.window
    simp only [Chip.may, Bool.and_eq_true] at window
    exact window.1.1
  have left : 0 < (s.chip.threads[t.val]).budgetAct.toNat := by
    rw [Nat.pos_iff_ne_zero]
    exact fun e => h.budget (BitVec.eq_of_toNat_eq e)
  have turn : (s.slotOpened t).chip.inTurn t (s.chip.slotStart t) = true := h.turn
  have lit : (s.slotOpened t).chip.lit t = true := h.lit
  have running : (s.slotOpened t).chip.running = true := h.running
  have sound : (s.slotOpened t).chip.scanFails (s.chip.slotStart t + 1) = false := h.sound
  have can : (s.slotOpened t).chip.canRun t = true := by
    unfold Chip.canRun
    rw [slotOpened_cycleOf, turn, lit, running]
    simp [State.slotOpened, Chip.enter, sck, h.ready, h.unfaulted, left]
  simp [State.threadNow, State.behindScan, can, slotOpened_cycleOf, sound]

/-- The first instruction of the slot is fetched from the word at the PC, or faults where the PC may not be fetched from (R180). -/
theorem runThreadSlot_first (h : OpensSlot t s) :
    runThreadSlot t 1 s =
      let pc := (s.chip.threads[t.val]).pc
      let o := s.slotOpened t
      if s.mem.fetchable pc then
        o.reading 1 (fun w => decide (w = pc.toNat)) (o.chip.slotStart t) (runWord (.thread t) (s.mem.progWord pc.toNat))
      else { o with chip := o.chip.modThread t fun x => x.fault 2 } := by
  have pc : ((s.slotOpened t).chip.threads[t.val]).pc = (s.chip.threads[t.val]).pc := by simp [State.slotOpened]
  have mem : (s.slotOpened t).mem = s.mem := rfl
  refine ((runThreadSlot_opens 1 h.running h.window h.lit h.turn).trans
    (congrArg _ (slotOpened_eq h.ready h.fresh h.unfaulted))).trans ((threadNow_slotOpened _ h).trans ?_)
  simp only [pc, mem, slotOpened_cycleOf, slotOpened_slotStart]

/-- A word that SECDED can read runs (R150, R180). -/
theorem runThreadSlot_runs (h : OpensSlot t s) (fetched : s.mem.fetchable (s.chip.threads[t.val]).pc = true)
    (good : s.chip.badWord 1 (fun w => decide (w = (s.chip.threads[t.val]).pc.toNat)) = none) :
    runThreadSlot t 1 s = runWord (.thread t) (s.mem.progWord (s.chip.threads[t.val]).pc.toNat)
      ((s.slotOpened t).act fun c => c.noteReads 1 fun w => decide (w = (s.chip.threads[t.val]).pc.toNat)) := by
  have good : (s.slotOpened t).chip.badWord 1 (fun w => decide (w = (s.chip.threads[t.val]).pc.toNat)) = none := good
  rw [runThreadSlot_first h]
  dsimp only
  rw [if_pos fetched, State.reading_good _ _ good]

/-- A word that SECDED cannot correct trips the device in place of it (R25, R149). -/
theorem runThreadSlot_trips {n : Nat} (h : OpensSlot t s) (fetched : s.mem.fetchable (s.chip.threads[t.val]).pc = true)
    (bad : s.chip.badWord 1 (fun w => decide (w = (s.chip.threads[t.val]).pc.toNat)) = some n) :
    runThreadSlot t 1 s = (s.slotOpened t).act fun c => c.eccFail 1 n (BitVec.ofNat 14 (c.slotStart t)) := by
  have bad : (s.slotOpened t).chip.badWord 1 (fun w => decide (w = (s.chip.threads[t.val]).pc.toNat)) = some n := bad
  rw [runThreadSlot_first h]
  dsimp only
  rw [if_pos fetched, State.reading_bad _ _ bad]
  exact act_congr rfl

/-- A PC that may not be fetched from faults with ILLEGAL (R156, R180). -/
theorem runThreadSlot_astray (h : OpensSlot t s) (astray : ¬ s.mem.fetchable (s.chip.threads[t.val]).pc = true) :
    runThreadSlot t 1 s = s.act fun c => (c.enter .thread).modThread t fun x =>
      { x with last := 0, ran := true, faultPc := x.pc, faultCode := 2, mustRestart := true, slotLeft := 0 } := by
  rw [runThreadSlot_first h]
  dsimp only
  rw [if_neg astray]
  simp only [State.slotOpened, State.act, modThread_modThread]
  rfl

end

/-! ### The obligation -/

/-- Settles O46: at the start of its slot, in turn and behind the scan engine, each event of a thread does what its row says. -/
theorem threadEventsRun : Obligations.ThreadEventsRun := by
  intro t s hr hm hl hi c x sound becomes starts opened
  have at_ : s.chip.atSlot t = true := atSlot_of hr hm hi
  have opens (n : BitVec 14) := runThreadSlot_opens n hr hm hl hi
  refine ⟨fun hs hn hf hb => ?_, fun hs hn hf => ?_, fun hs => ?_, fun sd hs hf h0 hc => ?_,
    fun unsound hf hn hw => ?_, fun sd hf hn hw => ?_, fun sd hf hn hw => ?_⟩
  · refine ⟨congrArg Host.Outcome.next ((opens 0).trans (slotOpened_eq hs hn hf)), fun sd low inside => ?_, fun sd out => ?_⟩
    · have fetched : s.mem.fetchable (s.chip.threads[t.val]).pc = true := by
        rw [Mems.fetchable, inside, decide_eq_true low]
        rfl
      exact ⟨fun good => congrArg Host.Outcome.next (runThreadSlot_runs ⟨hr, hm, hl, hi, hs, hn, hf, hb, sd⟩ fetched good),
        fun n bad => congrArg Host.Outcome.next (runThreadSlot_trips ⟨hr, hm, hl, hi, hs, hn, hf, hb, sd⟩ fetched bad)⟩
    · refine congrArg Host.Outcome.next (runThreadSlot_astray ⟨hr, hm, hl, hi, hs, hn, hf, hb, sd⟩ ?_)
      simp only [Mems.fetchable, Bool.and_eq_true, decide_eq_true_eq, not_and_or, Bool.not_eq_true]
      exact out.imp_left Nat.not_le.2
  · refine congrArg Host.Outcome.next ((opens 0).trans (act_congr (modThread_congr ?_)))
    exact openSlot_waiting hs hn hf
  · simp only [← elapsed_eq_any]
    exact ⟨fun sd due => congrArg _ (runThreadWake_due at_ sd hl hs due), fun hq he => congrArg _ (runThreadWake_waits hq he)⟩
  · exact congrArg _ (runThreadStall_due at_ sd hs hf h0 hc)
  · exact congrArg _ (runThreadRestart_unsound at_ (Bool.of_not_eq_false unsound) hl hf hn hw)
  · refine ⟨_, congrArg Host.Outcome.next (runThreadRestart_due at_ sd hl hf hn hw), ⟨rfl, rfl, rfl, rfl, rfl, rfl, rfl⟩,
      rfl, fun n hne => ?_, ?_⟩
    · exact upd_other _ _ hne
    · simp [Chip.openAt, Chip.takeTurn, Thread.start, Thread.countRestart, c, x]
  · have halted : _ = (ThreadState.halted, false) := (escalate_standing ((s.chip.openAt t).modThread t fun x =>
      { x.countRestart s.chip.dev.tick with st := .halted, mustRestart := false, slotLeft := 0 }) t t (s.chip.slotStart t)).trans
        (by simp [Chip.standing])
    refine ⟨_, congrArg Host.Outcome.next (runThreadHaltLimit_due at_ sd hl hf hn hw), rfl, rfl, ?_, ?_,
      fun k hk on => ?_, fun system => ?_⟩
    · exact congrArg Prod.fst halted
    · exact congrArg Prod.snd halted
    · exact escalate_car _ hk on
    · exact escalate_system _ system hr

end Sys2Proof.Machine
end

section
/-! Faults of a car (R252, Table 12-9). -/

namespace Sys2Proof.Machine

/-! ### Events where SCK runs -/

/-- An event whose condition holds takes effect where SCK runs (R28). -/
theorem clock_if_pos {s : State} {p : Chip → Prop} [DecidablePred p] {f : Chip → Chip} (sck : s.chip.lnk.sckRunning = true)
    (h : p s.chip) :
    (s.clock fun c => if p c then f c else c) = s.act f := by
  rw [State.clock_of_running sck]
  exact act_congr (if_pos h)

/-- An event whose condition does not hold changes nothing. -/
theorem clock_if_neg {s : State} {p : Chip → Prop} [DecidablePred p] {f : Chip → Chip} (h : ¬ p s.chip) :
    (s.clock fun c => if p c then f c else c) = s := by
  simp only [State.clock, State.act, if_neg h]
  split <;> rfl

/-! ### What a car fault changes of the cars -/

/-- A car fault touches no other car (R26, R252). -/
theorem carFault_other {c : Chip} {k j : CarId} (code stamp : Nat) (h : j ≠ k) :
    (c.carFault k code stamp).cars[j.val] = c.cars[j.val] := by
  unfold Chip.carFault
  dsimp only
  split
  · rfl
  · split
    · split
      · split <;> simp [h]
      · split
        · split <;> simp [Chip.rewriteCarFault, h]
        · split
          · split <;> simp [Chip.rewriteCarFault, h]
          · split <;> simp [h]
    · split <;> simp [h, Chip.setService_other]

/-- A car fault leaves the interlock of the car (R252). -/
theorem carFault_ilk (c : Chip) (k : CarId) (code stamp : Nat) :
    ((c.carFault k code stamp).cars[k.val]).ilk = (c.cars[k.val]).ilk := by
  by_cases off : (c.cars[k.val]).service = .islandOff
  · simp [Chip.carFault, off]
  by_cases stands : (c.cars[k.val]).service = .stoppedFault
  · unfold Chip.carFault
    simp only [stands, reduceCtorEq, if_false, if_true]
    split
    · split <;> simp
    · split
      · split <;> simp [Chip.rewriteCarFault]
      · split
        · split <;> simp [Chip.rewriteCarFault]
        · split <;> simp
  · rw [(Chip.carFault_new c k code stamp off stands).1]
    simp

/-- A first fault of a car, behind changes of its interlock or its loop, stops that car and touches no other (R26, R252). -/
theorem carStopped_of_carFault {s : State} {f : Chip → Chip} {d : Chip} {k : CarId} {code stamp : Nat}
    (fault : f s.chip = d.carFault k code stamp) (dev : d.dev = s.chip.dev) (sec : d.sec = s.chip.sec)
    (doors : d.doors = s.chip.doors) (axes : d.axes = s.chip.axes)
    (others : ∀ j : CarId, j ≠ k → d.cars[j.val] = s.chip.cars[j.val])
    (car : ∃ i, d.cars[k.val] = { s.chip.cars[k.val] with ilk := i }) (on : (s.chip.cars[k.val]).service ≠ .islandOff)
    (runs : (s.chip.cars[k.val]).service ≠ .stoppedFault) : CarStopped k code s (s.act f) := by
  obtain ⟨i, car⟩ := car
  have service : (d.cars[k.val]).service = (s.chip.cars[k.val]).service := by rw [car]
  obtain ⟨cars, moves, -⟩ := Chip.carFault_new d k code stamp (service ▸ on) (service ▸ runs)
  unfold CarStopped
  simp only [State.act_chip, State.act_pending, State.act_mem, fault, cars, moves, Chip.carFault_dev, Chip.carFault_sec,
    Chip.carFault_doors, dev, sec, doors, axes, upd_same, car, true_and]
  exact ⟨fun j hj => (upd_other _ _ hj).trans (others j hj), fun b hb => upd_other _ _ hb⟩

/-- A first fault of a car as it stands. -/
theorem carStopped_plain {s : State} {f : Chip → Chip} {k : CarId} {code stamp : Nat} (fault : f s.chip = s.chip.carFault k code stamp)
    (on : (s.chip.cars[k.val]).service ≠ .islandOff) (runs : (s.chip.cars[k.val]).service ≠ .stoppedFault) :
    CarStopped k code s (s.act f) :=
  carStopped_of_carFault fault rfl rfl rfl rfl (fun _ _ => rfl) ⟨_, rfl⟩ on runs

/-! ### READBACK -/

/-- The interlock after a READBACK fault: a test in progress ended with its code, and the enables that mismatched (R310, R312). -/
def Ilk.mismatched (i : Ilk) (code : Byte) (which : BitVec 3) : Ilk :=
  { i.endTest code with rbFault := true, rbWhich := i.rbWhich ||| which, twice := 0 }

theorem readbackFault_eq (c : Chip) (k : CarId) (which : BitVec 3) :
    ∃ code, c.readbackFault k which = (c.modIlk k fun i => i.mismatched code which).carFault k 8 (c.stamp 0) :=
  ⟨_, rfl⟩

/-- A first READBACK fault stops the car (R310). -/
theorem readbackFault_stops {s : State} {k : CarId} (which : BitVec 3) (on : (s.chip.cars[k.val]).service ≠ .islandOff)
    (runs : (s.chip.cars[k.val]).service ≠ .stoppedFault) : CarStopped k 8 s (s.act fun c => c.readbackFault k which) := by
  obtain ⟨code, h⟩ := readbackFault_eq s.chip k which
  exact carStopped_of_carFault h rfl rfl rfl rfl (fun j hj => upd_other _ _ hj) ⟨_, upd_same ..⟩ on runs

theorem readbackFault_ilk (c : Chip) (k : CarId) (which : BitVec 3) :
    ∃ code, ((c.readbackFault k which).cars[k.val]).ilk = (c.cars[k.val]).ilk.mismatched code which := by
  obtain ⟨code, h⟩ := readbackFault_eq c k which
  exact ⟨code, by rw [h, carFault_ilk, Chip.modIlk_cars, upd_same]⟩

theorem readbackFault_service {c : Chip} {k : CarId} (which : BitVec 3) (on : (c.cars[k.val]).service ≠ .islandOff) :
    ((c.readbackFault k which).cars[k.val]).service = .stoppedFault := by
  obtain ⟨code, h⟩ := readbackFault_eq c k which
  rw [h]
  exact carFault_stops _ _ (by simpa using on)

/-- A READBACK fault touches no other car (R26). -/
theorem readbackFault_other {c : Chip} {k j : CarId} (which : BitVec 3) (h : j ≠ k) :
    (c.readbackFault k which).cars[j.val] = c.cars[j.val] := by
  obtain ⟨code, e⟩ := readbackFault_eq c k which
  rw [e, carFault_other _ _ h, Chip.modIlk_cars, upd_other _ _ h]

@[simp] theorem readbackFault_sps (c : Chip) (k : CarId) (which : BitVec 3) : (c.readbackFault k which).sps = c.sps := by
  obtain ⟨code, h⟩ := readbackFault_eq c k which
  rw [h, Chip.carFault_sps, Chip.modIlk_sps]

/-! ### SAFE_PULSE_RB -/

/-- Of a fold over the channels, what only the step of channel k changes is what that step makes of it. -/
theorem foldFin_at {σ β : Type} {n : Nat} (g : σ → β) (f : Fin n → σ → σ) (k : Fin n)
    (keeps : ∀ i, i ≠ k → ∀ s, g (f i s) = g s) (s : σ) :
    ∃ r, g r = g s ∧ g (foldFin n f s) = g (f k r) := by
  have skip (l : List (Fin n)) (h : k ∉ l) (s : σ) : g (l.foldl (fun s i => f i s) s) = g s := by
    induction l generalizing s with
    | nil => rfl
    | cons i l ih =>
      rw [List.mem_cons, not_or] at h
      exact (ih h.2 _).trans (keeps i (Ne.symm h.1) s)
  obtain ⟨a, b, split⟩ := List.append_of_mem (List.mem_finRange k)
  have nodup := List.nodup_finRange n
  rw [split, List.nodup_middle, List.nodup_cons, List.mem_append, not_or] at nodup
  refine ⟨a.foldl (fun s i => f i s) s, skip a nodup.1.1 s, ?_⟩
  rw [foldFin, split, List.foldl_append, List.foldl_cons]
  exact skip b nodup.1.2 _

/-- What SAFE_PULSE_READBACK_FAULT does to one car: one that takes part and has seen two mismatches in a row stops with READBACK
(R311). -/
def Chip.pulseFaultOf (k : CarId) (c : Chip) : Chip :=
  let x := c.cars[k.val]
  if x.on && x.service ≠ .islandOff && c.pulseChecked k && 2 ≤ x.ilk.pulseRun.toNat then
    (c.modIlk k fun i => { i with pulseFault := true, pulseRun := 0 }).readbackFault k 0
  else c

theorem runSafePulseReadbackFault_eq {s : State} (sck : s.chip.lnk.sckRunning = true) (hr : s.chip.running = true) :
    runSafePulseReadbackFault s = s.act (foldFin 12 Chip.pulseFaultOf) := by
  unfold runSafePulseReadbackFault
  rw [State.clock_of_running sck]
  exact act_congr (if_neg (by simp [hr]))

/-- The step of one car leaves every other car and the parameter set (R26). -/
theorem pulseFaultOf_other {j k : CarId} (h : j ≠ k) (c : Chip) :
    ((c.pulseFaultOf j).cars[k.val], (c.pulseFaultOf j).sps) = (c.cars[k.val], c.sps) := by
  unfold Chip.pulseFaultOf
  dsimp only
  split
  · rw [readbackFault_other _ (Ne.symm h), readbackFault_sps, Chip.modIlk_cars, upd_other _ _ (Ne.symm h)]
    rfl
  · rfl

/-- Car k after SAFE_PULSE_READBACK_FAULT is car k after its own step. -/
theorem pulseFault_car (c : Chip) (k : CarId) :
    ∃ r : Chip, r.cars[k.val] = c.cars[k.val] ∧ r.sps = c.sps ∧
      (foldFin 12 Chip.pulseFaultOf c).cars[k.val] = (r.pulseFaultOf k).cars[k.val] := by
  obtain ⟨r, same, last⟩ := foldFin_at (fun d : Chip => (d.cars[k.val], d.sps)) Chip.pulseFaultOf k
    (fun i hi d => pulseFaultOf_other hi d) c
  simp only [Prod.mk.injEq] at same last
  exact ⟨r, same.1, same.2, last.1⟩

theorem pulseChecked_congr {c d : Chip} (k : CarId) (h : c.sps = d.sps) : c.pulseChecked k = d.pulseChecked k := by
  simp only [Chip.pulseChecked, Chip.sps0, h]

/-- A car whose check has failed twice in a row stops with READBACK and SAFE_PULSE marked (R311). -/
theorem runSafePulseReadbackFault_stops {s : State} {k : CarId} (sck : s.chip.lnk.sckRunning = true) (hr : s.chip.running = true)
    (on : (s.chip.cars[k.val]).on = true) (lit : (s.chip.cars[k.val]).service ≠ .islandOff) (checked : s.chip.pulseChecked k = true)
    (twice : 2 ≤ (s.chip.cars[k.val]).ilk.pulseRun.toNat) :
    let y := (runSafePulseReadbackFault s).chip.cars[k.val]
    y.service = .stoppedFault ∧ y.ilk.rbFault = true ∧ y.ilk.pulseFault = true ∧
      y.ilk.rbWhich = (s.chip.cars[k.val]).ilk.rbWhich := by
  obtain ⟨r, car, sps, last⟩ := pulseFault_car s.chip k
  have step : r.pulseFaultOf k = (r.modIlk k fun i => { i with pulseFault := true, pulseRun := 0 }).readbackFault k 0 := by
    unfold Chip.pulseFaultOf
    refine if_pos ?_
    simp [car, pulseChecked_congr k sps, on, lit, checked, twice]
  obtain ⟨code, ilk⟩ := readbackFault_ilk (r.modIlk k fun i => { i with pulseFault := true, pulseRun := 0 }) k 0
  rw [runSafePulseReadbackFault_eq sck hr, State.act_chip, last, step]
  refine ⟨readbackFault_service _ (by simpa [car] using lit), ?_⟩
  rw [ilk]
  simp [Ilk.mismatched, Ilk.endTest, car]

/-- A car that takes no part, or has not seen two mismatches in a row, stays as it is (R311). -/
theorem runSafePulseReadbackFault_passes {s : State} {k : CarId} (sck : s.chip.lnk.sckRunning = true) (hr : s.chip.running = true)
    (h : s.chip.pulseChecked k = false ∨ (s.chip.cars[k.val]).ilk.pulseRun.toNat < 2) :
    (runSafePulseReadbackFault s).chip.cars[k.val] = s.chip.cars[k.val] := by
  obtain ⟨r, car, sps, last⟩ := pulseFault_car s.chip k
  have step : r.pulseFaultOf k = r := by
    unfold Chip.pulseFaultOf
    refine if_neg ?_
    rw [pulseChecked_congr k sps, car]
    rcases h with h | h
    · simp [h]
    · simp [Nat.not_le.2 h]
  rw [runSafePulseReadbackFault_eq sck hr, State.act_chip, last, step, car]

/-! ### A later cause -/

/-- A cause of an earlier tick, or of an earlier cycle, stands (R252, R291). -/
theorem faultFirst_later {c : Chip} {standing : Option Nat} {cause code stamp : Nat}
    (h : ∀ n, standing = some n → n < c.stamp 0 ∨ n < stamp) : c.faultFirst standing cause code stamp = false := by
  cases standing with
  | none => rfl
  | some n =>
    have before := h n rfl
    simp only [Chip.faultFirst, Bool.and_eq_false_iff, Bool.or_eq_false_iff, decide_eq_false_iff_not]
    omega

/-- A cause of the present tick gives way to one of an earlier cycle, or of its cycle with a lower code (R252, R291). -/
theorem faultFirst_earlier {c : Chip} {n cause code stamp : Nat} (now : c.stamp 0 ≤ n)
    (h : stamp < n ∨ (stamp = n ∧ code < cause)) : c.faultFirst (some n) cause code stamp = true := by
  simpa [Chip.faultFirst] using ⟨now, h⟩

/-- A fault that is detected in none of the standing one's cycles and not before it sets its bit of OTHERS (R252). -/
theorem carFault_later {c : Chip} {k : CarId} {code stamp : Nat} (hs : (c.cars[k.val]).service = .stoppedFault) (hc : 3 < code)
    (other : (c.cars[k.val]).faultCause.toNat ≠ code)
    (later : c.faultFirst (c.cars[k.val]).faultAt (c.cars[k.val]).faultCause.toNat code stamp = false)
    (apart : (c.cars[k.val]).faultAt ≠ some stamp) :
    c.carFault k code stamp = c.modCar k fun x => { x with goto := none, faultOthers := x.faultOthers ||| faultBit code } := by
  unfold Chip.carFault
  simp only [hs, reduceCtorEq, if_false, if_true, Nat.not_le.2 hc, other, later, apart, Bool.false_eq_true]
  simp [Chip.modCar, upd]

/-- A fault that was detected before the standing one takes its place, and the one that stood goes to OTHERS (R252). -/
theorem carFault_earlier {c : Chip} {k : CarId} {code stamp : Nat} (hs : (c.cars[k.val]).service = .stoppedFault) (hc : 3 < code)
    (other : (c.cars[k.val]).faultCause.toNat ≠ code)
    (earlier : c.faultFirst (c.cars[k.val]).faultAt (c.cars[k.val]).faultCause.toNat code stamp = true) :
    (c.carFault k code stamp).cars[k.val] =
      { c.cars[k.val] with
        goto := none, faultCause := BitVec.ofNat 8 code, faultAt := some stamp,
        faultOthers := (c.cars[k.val]).faultOthers ||| faultBit (c.cars[k.val]).faultCause.toNat } := by
  unfold Chip.carFault
  simp only [hs, reduceCtorEq, if_false, if_true, Nat.not_le.2 hc, other, earlier]
  simp [Chip.rewriteCarFault, hs]

/-! ### A loop fault of the car -/

@[simp] theorem carOfLoop_carLoop (k : CarId) : carOfLoop (carLoop k) = k := by simp [carOfLoop, carLoop]
@[simp] theorem carOfFbk_machine (k : CarId) : carOfFbk (machine k) = k := Fin.ext (by simp [carOfFbk, machine])
@[simp] theorem carOfFbk_hoistway (k : CarId) : carOfFbk (hoistway k) = k := Fin.ext (by simp [carOfFbk, hoistway]; omega)

/-- A loop that has faulted: off, with its code (R241). -/
def Loop.faulted (x : Loop) (code : BitVec 2) : Loop := { x.quiet with fault := code }

theorem loopFault_carLoop (c : Chip) (k : CarId) (code : BitVec 2) :
    c.loopFault (carLoop k) code = (c.modLoop (carLoop k) fun x => x.faulted code).carFault k 12 (c.stamp 256) := by
  simp only [Chip.loopFault, carOfLoop_carLoop]
  exact if_pos (by simp [carLoop])

/-- A loop fault of a car's own loop stops the car with LOOP and stands in the loop (R241). -/
theorem loopFault_car {s : State} {k : CarId} (code : BitVec 2) (on : (s.chip.cars[k.val]).service ≠ .islandOff)
    (runs : (s.chip.cars[k.val]).service ≠ .stoppedFault) :
    CarStopped k 12 s (s.act fun c => c.loopFault (carLoop k) code) ∧
      ((s.chip.loopFault (carLoop k) code).loops[(carLoop k).val]).fault = code := by
  refine ⟨?_, ?_⟩
  · exact carStopped_of_carFault (loopFault_carLoop s.chip k code) rfl rfl rfl rfl (fun _ _ => rfl) ⟨_, rfl⟩ on runs
  · rw [loopFault_carLoop, (Chip.carFault_new (s.chip.modLoop _ _) k 12 _ on runs).2.2]
    simp [Loop.quiet, Loop.faulted]

/-! ### Events that stop their car -/

section

variable {s : State} {k : CarId}

/-- READBACK_FAULT of a car with an enable that has mismatched twice (R310). -/
theorem runReadbackFault_due (sck : s.chip.lnk.sckRunning = true) (on : (s.chip.cars[k.val]).on = true)
    (lit : (s.chip.cars[k.val]).service ≠ .islandOff) (twice : (s.chip.cars[k.val]).ilk.twice ≠ 0) :
    runReadbackFault k s = s.act fun c => c.readbackFault k (s.chip.cars[k.val]).ilk.twice :=
  (clock_if_pos sck (by simpa [on, lit] using twice)).trans (act_congr rfl)

/-- RUNLIM_EXPIRY of a run at its limit (R264). -/
theorem runRunlimExpiry_due {lim : Word} (sck : s.chip.lnk.sckRunning = true) (hr : s.chip.running = true)
    (hlim : s.chip.sps.get (.car 7 k) = some lim) (running : (s.chip.cars[k.val]).run.running = true)
    (long : lim.toNat ≤ (s.chip.cars[k.val]).run.ticks.toNat) :
    runRunlimExpiry k s = s.act fun c => c.carFault k 7 (c.stamp 0) := by
  unfold runRunlimExpiry
  rw [State.clock_of_running sck]
  refine act_congr ?_
  simp only [hlim, hr, running, long]
  rfl

/-- FEEDBACK_FAULT of the machine encoder is code 2 of its car (R231, Table 12-9). -/
theorem runFeedbackFault_machine (sck : s.chip.lnk.sckRunning = true)
    (many : (s.chip.fbks[(machine k).val]).act.thresh.toNat < s.chip.errorWindow (machine k)) :
    runFeedbackFault (machine k) s = s.act fun c => c.carFault k 2 (c.fbks[(machine k).val]).errAt := by
  have code : 2 + (machine k).val % 2 = 2 := by simp [machine]
  have due : runFeedbackFault (machine k) s = _ := clock_if_pos sck (by simpa using many)
  rw [due, carOfFbk_machine, code]

/-- FEEDBACK_FAULT of the hoistway sensor is code 3 of its car (R231, Table 12-9). -/
theorem runFeedbackFault_hoistway (sck : s.chip.lnk.sckRunning = true)
    (many : (s.chip.fbks[(hoistway k).val]).act.thresh.toNat < s.chip.errorWindow (hoistway k)) :
    runFeedbackFault (hoistway k) s = s.act fun c => c.carFault k 3 (c.fbks[(hoistway k).val]).errAt := by
  have code : 2 + (hoistway k).val % 2 = 3 := by simp [hoistway]
  have due : runFeedbackFault (hoistway k) s = _ := clock_if_pos sck (by simpa using many)
  rw [due, carOfFbk_hoistway, code]

/-- LOOP_MODEL_FAULT of a run that has brought the residual's run to its limit (R239, R241). -/
theorem runLoopModelFault_due {l : LoopId} (sck : s.chip.lnk.sckRunning = true) (hr : s.chip.running = true)
    (slot : s.chip.may (.loop 84) = true) (ran : (s.chip.loops[l.val]).ran = true) (judged : (s.chip.loops[l.val]).judged = true)
    (clear : (s.chip.loops[l.val]).fault = 0) (run : (s.chip.loops[l.val]).resRun = (s.chip.loops[l.val]).act.resMax) :
    runLoopModelFault l s = s.act fun c => c.loopFault l 1 :=
  clock_if_pos sck (by simp [hr, slot, ran, judged, clear, run])

/-- LOOP_SAT_FAULT of a run that has brought the saturation's run to its limit (R240, R241). -/
theorem runLoopSatFault_due {l : LoopId} (sck : s.chip.lnk.sckRunning = true) (hr : s.chip.running = true)
    (slot : s.chip.may (.loop 84) = true) (ran : (s.chip.loops[l.val]).ran = true) (clear : (s.chip.loops[l.val]).fault = 0)
    (set : (s.chip.loops[l.val]).act.satMax ≠ 0)
    (run : (s.chip.loops[l.val]).act.satMax.toNat ≤ (s.chip.loops[l.val]).satRun.toNat) :
    runLoopSatFault l s = s.act fun c => c.loopFault l 2 :=
  clock_if_pos sck (by simpa [hr, slot, ran, clear] using ⟨set, run⟩)

end

/-! ### The obligation -/

/-- Settles O47: each event is one car fault of its car, and the standing cause gives way to an earlier one alone. -/
theorem carFaultEventsStopTheCar : Obligations.CarFaultEventsStopTheCar := by
  refine ⟨fun s k sck => ⟨fun on lit runs twice => ?_, fun none_ => ?_⟩,
    fun s k hr sck => ⟨fun lit runs => ?_, fun hs other late => ?_, ?_⟩⟩
  · obtain ⟨code, ilk⟩ := readbackFault_ilk s.chip k (s.chip.cars[k.val]).ilk.twice
    refine ⟨_, congrArg Host.Outcome.next (runReadbackFault_due sck on lit twice), readbackFault_stops _ lit runs, ?_⟩
    simp [ilk, Ilk.mismatched]
  · exact congrArg Host.Outcome.next (clock_if_neg (by simp [none_]))
  · refine ⟨fun lim hlim running long => ?_, fun many => ?_, fun many => ?_, fun miss => ?_, fun fast => ?_, 
      fun slot ran judged clear run => ?_, fun slot ran clear set run => ?_⟩
    · exact ⟨_, congrArg Host.Outcome.next (runRunlimExpiry_due sck hr hlim running long), carStopped_plain rfl lit runs⟩
    · exact ⟨_, congrArg Host.Outcome.next (runFeedbackFault_machine sck many), carStopped_plain rfl lit runs⟩
    · exact ⟨_, congrArg Host.Outcome.next (runFeedbackFault_hoistway sck many), carStopped_plain rfl lit runs⟩
    · exact ⟨_, congrArg Host.Outcome.next (clock_if_pos sck (by simpa [hr] using miss)), carStopped_plain rfl lit runs⟩
    · exact ⟨_, congrArg Host.Outcome.next (clock_if_pos sck (by simpa [hr] using fast)), carStopped_plain rfl lit runs⟩
    · exact ⟨_, congrArg Host.Outcome.next (runLoopModelFault_due sck hr slot ran judged clear run), loopFault_car 1 lit runs⟩
    · exact ⟨_, congrArg Host.Outcome.next (runLoopSatFault_due sck hr slot ran clear set run), loopFault_car 2 lit runs⟩
  · have due : runDriveportFault k s = s.act fun c => c.carFault k 4 (c.cars[k.val]).missAt :=
      clock_if_pos sck (by simpa [hr] using late)
    have apart : (s.chip.cars[k.val]).faultCause.toNat ≠ 4 := fun e => other (BitVec.eq_of_toNat_eq e)
    refine ⟨fun later ne => congrArg Host.Outcome.next (due.trans (act_congr ?_)), fun n hn now earlier =>
      ⟨_, congrArg Host.Outcome.next due, rfl, ?_⟩⟩
    · exact carFault_later hs (by omega) apart (faultFirst_later later) ne
    · exact carFault_earlier hs (by omega) apart (hn ▸ faultFirst_earlier now earlier)
  · exact ⟨_, rfl, runSafePulseReadbackFault_stops sck hr, runSafePulseReadbackFault_passes sck hr⟩

end Sys2Proof.Machine
end

section
/-! Faults of a door (R291, R292, Table 13-3). -/

namespace Sys2Proof.Machine

/-! ### The doors of a car -/

theorem otherDoor_ne (d : DoorId) : otherDoor d ≠ d := by
  unfold otherDoor
  intro h
  split at h
  · have := congrArg Fin.val h
    simp at this
  · have := congrArg Fin.val h
    simp at this
    omega

@[simp] theorem carOfDoor_otherDoor (d : DoorId) : carOfDoor (otherDoor d) = carOfDoor d := by
  unfold otherDoor
  split <;> simp only [carOfDoor, Fin.mk.injEq] <;> omega

theorem doorOfLoop_doorLoop (d : DoorId) (n : Fin 3) : doorOfLoop (doorLoop d n) = some d := by
  have place : (doorLoop d n).val / 3 = d.val := by simp only [doorLoop]; omega
  simp [doorOfLoop, place, fin?]

/-! ### What a door fault changes -/

/-- With no cam engaged between them a fault of one door is no fault of the other (R292). -/
theorem doorFault_uncoupled {c : Chip} {d : DoorId} (code stamp : Nat) (h : c.coupled d = false) :
    c.doorFault d code stamp = c.doorFaultOne d code stamp := by
  simp [Chip.doorFault, h]

/-- A door in FAULT takes a further fault alone (R292). -/
theorem doorFault_standing {c : Chip} {d : DoorId} (code stamp : Nat) (h : (c.doors[d.val]).st = .fault) :
    c.doorFault d code stamp = c.doorFaultOne d code stamp := by
  simp [Chip.doorFault, h]

/-- A fault that was detected before the standing one of a door takes its place, and the one that stood goes to OTHERS (R291). -/
theorem doorFaultOne_earlier {c : Chip} {d : DoorId} {code stamp : Nat} (used : (c.doors[d.val]).inUse = true)
    (on : (c.cars[(carOfDoor d).val]).on = true) (hs : (c.doors[d.val]).st = .fault) (other : (c.doors[d.val]).faultCause.toNat ≠ code)
    (earlier : c.faultFirst (c.doors[d.val]).faultAt (c.doors[d.val]).faultCause.toNat code stamp = true) :
    (c.doorFaultOne d code stamp).doors[d.val] =
      { c.doors[d.val] with
        faultCause := BitVec.ofNat 8 code, faultAt := some stamp,
        faultOthers := (c.doors[d.val]).faultOthers ||| faultBit (c.doors[d.val]).faultCause.toNat } := by
  unfold Chip.doorFaultOne
  simp only [used, on, hs, other, earlier, Bool.not_true, Bool.or_self, Bool.false_eq_true, if_false, if_true]
  simp [Chip.rewriteDoorFault, hs]

/-- A first fault of a door without a cam, behind changes of its detection or its loop, stops that door and touches nothing else
(R26, R291). -/
theorem doorFaulted_of_doorFault {s : State} {f : Chip → Chip} {c : Chip} {d : DoorId} {code stamp : Nat}
    (fault : f s.chip = c.doorFault d code stamp) (dev : c.dev = s.chip.dev) (sec : c.sec = s.chip.sec) (cars : c.cars = s.chip.cars)
    (axes : c.axes = s.chip.axes) (others : ∀ m : DoorId, m ≠ d → c.doors[m.val] = s.chip.doors[m.val])
    (door : ∃ a, c.doors[d.val] = { s.chip.doors[d.val] with commAt := a }) (used : (s.chip.doors[d.val]).inUse = true)
    (on : (s.chip.cars[(carOfDoor d).val]).on = true) (runs : (s.chip.doors[d.val]).st ≠ .fault) (free : s.chip.coupled d = false) :
    DoorFaulted d code s (s.act f) := by
  obtain ⟨a, door⟩ := door
  have free : c.coupled d = false := by simpa only [Chip.coupled, axes] using free
  obtain ⟨doors, moves⟩ := Chip.doorFaultOne_new c d code stamp (by rw [door]; exact used) (by rw [cars]; exact on)
    (by rw [door]; exact runs)
  rw [doorFault_uncoupled _ _ free] at fault
  unfold DoorFaulted
  simp only [State.act_chip, State.act_pending, State.act_mem, fault, doors, moves, Chip.doorFaultOne_dev, Chip.doorFaultOne_sec,
    Chip.doorFaultOne_cars, dev, sec, cars, axes, upd_same, door, true_and]
  exact ⟨rfl, rfl, fun m hm => (upd_other _ _ hm).trans (others m hm), fun b hb => upd_other _ _ hb⟩

/-- A first fault of a door as it stands. -/
theorem doorFaulted_plain {s : State} {f : Chip → Chip} {d : DoorId} {code stamp : Nat} (fault : f s.chip = s.chip.doorFault d code stamp)
    (used : (s.chip.doors[d.val]).inUse = true) (on : (s.chip.cars[(carOfDoor d).val]).on = true)
    (runs : (s.chip.doors[d.val]).st ≠ .fault) (free : s.chip.coupled d = false) : DoorFaulted d code s (s.act f) :=
  doorFaulted_of_doorFault fault rfl rfl rfl rfl (fun _ _ => rfl) ⟨_, rfl⟩ used on runs free

/-- A first fault of a door with an engaged cam puts both doors into FAULT, the other with COUPLED (R292). -/
theorem doorFault_coupled {c : Chip} {d : DoorId} (code stamp : Nat) (used : (c.doors[d.val]).inUse = true)
    (on : (c.cars[(carOfDoor d).val]).on = true) (runs : (c.doors[d.val]).st ≠ .fault) (cam : c.coupled d = true)
    (used' : (c.doors[(otherDoor d).val]).inUse = true) (runs' : (c.doors[(otherDoor d).val]).st ≠ .fault) :
    let t := c.doorFault d code stamp
    (t.doors[d.val]).st = .fault ∧ (t.doors[d.val]).faultCause = BitVec.ofNat 8 code ∧
      (t.doors[(otherDoor d).val]).st = .fault ∧ (t.doors[(otherDoor d).val]).faultCause = 9 := by
  obtain ⟨doors, -⟩ := Chip.doorFaultOne_new c d code stamp used on runs
  have apart : d ≠ otherDoor d := (otherDoor_ne d).symm
  have follows : c.doorFault d code stamp = (c.doorFaultOne d code stamp).doorFaultOne (otherDoor d) 9 stamp := by
    unfold Chip.doorFault
    dsimp only
    refine if_pos ?_
    simp [runs, cam, doors]
  have beside : (c.doorFaultOne d code stamp).doors[(otherDoor d).val] = c.doors[(otherDoor d).val] := by
    rw [doors, upd_other _ _ (otherDoor_ne d)]
  obtain ⟨doors', -⟩ := Chip.doorFaultOne_new (c.doorFaultOne d code stamp) (otherDoor d) 9 stamp (by rw [beside]; exact used')
    (by simpa only [carOfDoor_otherDoor, Chip.doorFaultOne_cars] using on) (by rw [beside]; exact runs')
  dsimp only
  rw [follows, doors', upd_other _ _ apart, doors, upd_same, upd_same]
  exact ⟨rfl, rfl, rfl, rfl⟩

/-! ### Events that stop their door -/

section

variable {s : State} {d : DoorId}

/-- COMMUTATION_FAULT takes the latch of the second error with it (R279). -/
theorem runCommutationFault_due {n : Nat} (sck : s.chip.lnk.sckRunning = true) (hr : s.chip.running = true)
    (h : (s.chip.doors[d.val]).commAt = some n) :
    runCommutationFault d s = s.act fun c => (c.modDoor d fun x => { x with commAt := none }).doorFault d 1 n := by
  unfold runCommutationFault
  rw [State.clock_of_running sck]
  refine act_congr ?_
  simp only [h, hr, if_true]

/-- A timer that counts has reached its limit (R290). -/
theorem timerDone_of {c : Chip} {m : Fin 6} {lim : Word} {ticks : BitVec 24} (hlim : c.sps.get (.door m d) = some lim)
    (long : lim.toNat ≤ ticks.toNat) (counts : ticks ≠ 0) : c.timerDone d m ticks = true := by
  simpa [Chip.timerDone, hlim, long] using counts

theorem runOpentExpiry_due {lim : Word} (sck : s.chip.lnk.sckRunning = true) (hr : s.chip.running = true)
    (hlim : s.chip.sps.get (.door 3 d) = some lim) (long : lim.toNat ≤ (s.chip.doors[d.val]).openTimer.toNat)
    (counts : (s.chip.doors[d.val]).openTimer ≠ 0) : runOpentExpiry d s = s.act fun c => c.doorFault d 4 (c.stamp 0) :=
  clock_if_pos sck (by simp [hr, timerDone_of hlim long counts])

theorem runClosetExpiry_due {lim : Word} (sck : s.chip.lnk.sckRunning = true) (hr : s.chip.running = true)
    (hlim : s.chip.sps.get (.door 4 d) = some lim) (long : lim.toNat ≤ (s.chip.doors[d.val]).closeTimer.toNat)
    (counts : (s.chip.doors[d.val]).closeTimer ≠ 0) : runClosetExpiry d s = s.act fun c => c.doorFault d 5 (c.stamp 0) :=
  clock_if_pos sck (by simp [hr, timerDone_of hlim long counts])

/-- A loop fault of a door's stage is a fault LOOP of that door (R241). -/
theorem loopFault_doorLoop (c : Chip) (d : DoorId) (n : Fin 3) (code : BitVec 2) :
    c.loopFault (doorLoop d n) code = (c.modLoop (doorLoop d n) fun x => x.faulted code).doorFault d 3 (c.stamp 256) := by
  have low : ¬ 72 ≤ (doorLoop d n).val := by simp only [doorLoop]; omega
  simp only [Chip.loopFault, doorOfLoop_doorLoop, low, if_false]
  rfl

end

/-! ### The obligation -/

/-- Settles O48: each event is one door fault, which a cam alone carries to the other door. -/
theorem doorFaultEventsStopTheDoor : Obligations.DoorFaultEventsStopTheDoor := by
  intro s d hr sck c x used on
  refine ⟨fun n lim hs hn earlier other hlim long counts => ?_, fun runs free => ?_, fun runs cam used' runs' late => ?_⟩
  · refine ⟨_, congrArg Host.Outcome.next (runOpentExpiry_due sck hr hlim long counts), rfl, Chip.doorFault_cars .., ?_⟩
    rw [State.act_chip, doorFault_standing _ _ hs]
    refine doorFaultOne_earlier used on hs (fun e => other (BitVec.eq_of_toNat_eq e)) (hn ▸ faultFirst_earlier ?_ earlier)
    omega
  · refine ⟨fun n hn => ?_, fun high => ?_, fun lim hlim long counts => ?_, fun lim hlim long counts => ?_,
      fun n => ⟨fun slot ran judged clear run => ?_, fun slot ran clear set run => ?_⟩⟩
    · refine ⟨_, congrArg Host.Outcome.next (runCommutationFault_due sck hr hn), ?_⟩
      exact doorFaulted_of_doorFault rfl rfl rfl rfl rfl (fun m hm => upd_other _ _ hm) ⟨_, upd_same ..⟩ used on runs free
    · exact ⟨_, congrArg Host.Outcome.next (clock_if_pos sck (by simpa [hr] using high)), doorFaulted_plain rfl used on runs free⟩
    · exact ⟨_, congrArg Host.Outcome.next (runOpentExpiry_due sck hr hlim long counts), doorFaulted_plain rfl used on runs free⟩
    · exact ⟨_, congrArg Host.Outcome.next (runClosetExpiry_due sck hr hlim long counts), doorFaulted_plain rfl used on runs free⟩
    · refine ⟨_, congrArg Host.Outcome.next (runLoopModelFault_due sck hr slot ran judged clear run), ?_⟩
      exact doorFaulted_of_doorFault (loopFault_doorLoop s.chip d n 1) rfl rfl rfl rfl (fun _ _ => rfl) ⟨_, rfl⟩ used on runs free
    · refine ⟨_, congrArg Host.Outcome.next (runLoopSatFault_due sck hr slot ran clear set run), ?_⟩
      exact doorFaulted_of_doorFault (loopFault_doorLoop s.chip d n 2) rfl rfl rfl rfl (fun _ _ => rfl) ⟨_, rfl⟩ used on runs free
  · obtain ⟨n, hn⟩ := Option.ne_none_iff_exists'.1 late
    have apart : otherDoor d ≠ d := otherDoor_ne d
    refine ⟨_, congrArg Host.Outcome.next (runCommutationFault_due sck hr hn), ?_⟩
    obtain ⟨own, cause, follows, coupled⟩ := doorFault_coupled (c := s.chip.modDoor d fun x => { x with commAt := none }) (d := d) 1 n
      (by rw [Chip.modDoor_doors, upd_same]; exact used) on (by simpa using runs) cam (by simpa [apart] using used')
      (by simpa [apart] using runs')
    exact ⟨own, cause, follows, coupled, Chip.doorFault_cars ..⟩

end Sys2Proof.Machine
end

section
/-! The control law of a loop (R236 to R240). -/

namespace Sys2Proof.Machine

/-! ### Clamps and rounding -/

theorem clampTo_of_mem {x lo hi : Int} (h1 : lo ≤ x) (h2 : x ≤ hi) : clampTo x lo hi = x := by
  unfold clampTo
  omega

theorem clampTo_mem {x lo hi : Int} (h : lo ≤ hi) : lo ≤ clampTo x lo hi ∧ clampTo x lo hi ≤ hi := by
  unfold clampTo
  omega

theorem clampTo_low {x lo : Int} (hi : Int) (h : x ≤ lo) : clampTo x lo hi = lo := by
  unfold clampTo
  omega

theorem clampTo_high {x lo hi : Int} (h : hi ≤ x) (hb : lo ≤ hi) : clampTo x lo hi = hi := by
  unfold clampTo
  omega

theorem le_clampTo (x lo hi : Int) : lo ≤ clampTo x lo hi := le_max_left _ _

theorem rnd_zero (k : Nat) : rnd 0 k = 0 := by
  unfold rnd
  split
  · rfl
  · next h =>
    rw [Int.zero_add]
    refine Int.ediv_eq_zero_of_lt (by positivity) ?_
    exact_mod_cast Nat.pow_lt_pow_right (by omega) (by omega)

theorem satTo_zero (w : Nat) : satTo w 0 = 0 := by
  unfold satTo
  have : (0 : Int) < 2 ^ (w - 1) := by positivity
  omega

/-! ### The run -/

/-- The loop as a run takes it up: a first run takes the measurement as its past and starts from 0 (R238). -/
def Loop.begun (x : Loop) (y : Int) : Loop := if x.starting then { x with yp := y, up := 0, i := 0 } else x

/-- The integrator that a run adds to: a first run starts from 0 (R238). -/
def Loop.before (x : Loop) : Int := if x.starting then 0 else x.i

/-- How far the measurement has moved back since the last run: a first run takes the measurement as its past (R238). -/
def Loop.moved (x : Loop) (y : Int) : Int := if x.starting then 0 else x.yp - y

/-- The step of the integrator: KI times the error as converted (R236). -/
def Loop.step (x : Loop) (v : Wiring) : Int := x.act.ki.toInt * x.act.format.input (v.r - v.y)

/-- The integrator before its clamp (R236). -/
def Loop.sum (x : Loop) (v : Wiring) : Int := satTo x.act.format.width (x.before + x.step v)

/-- The output before its clamps: the rounded sum of the four terms (R236). -/
def Loop.unclamped (x : Loop) (v : Wiring) : Int :=
  let q := x.act
  let w := q.format.width
  let pi := satTo w (q.kp.toInt * q.format.input (v.r - v.y) + x.sum v)
  let pid := satTo w (pi + q.kd.toInt * q.format.input (x.moved v.y))
  satTo 32 (rnd (satTo w (pid + q.kff.toInt * q.format.input v.f)) q.format.shift)

/-- The output of a run: clamped to OMIN and OMAX, then to the fixed bound (R236). -/
def Loop.output (x : Loop) (v : Wiring) : Int :=
  clampTo (clampTo (x.unclamped v) x.act.omin.toInt x.act.omax.toInt) v.lo v.hi

theorem begun_act (x : Loop) (y : Int) : (x.begun y).act = x.act := by
  unfold Loop.begun
  split <;> rfl

theorem begun_i (x : Loop) (y : Int) : (x.begun y).i = x.before := by
  unfold Loop.begun Loop.before
  split <;> rfl

theorem begun_moved (x : Loop) (y : Int) : (x.begun y).yp - y = x.moved y := by
  unfold Loop.begun Loop.moved
  split
  · exact Int.sub_self y
  · rfl

theorem begun_of_later {x : Loop} (y : Int) (later : x.starting = false) : x.begun y = x := by
  simp [Loop.begun, later]

theorem begun_starting (x : Loop) (y : Int) : (x.begun y).starting = x.starting := by
  unfold Loop.begun
  split <;> rfl

theorem begun_resRun (x : Loop) (y : Int) : (x.begun y).resRun = x.resRun := by
  unfold Loop.begun
  split <;> rfl

/-- The supervision changes the model check alone (R239). -/
theorem supervise_eq (x : Loop) (y : Int) :
    ∃ j r l g, x.supervise y = { x with judged := j, resRun := r, resLast := l, sig := g } := by
  unfold Loop.supervise
  split
  · exact ⟨_, _, _, _, rfl⟩
  · exact ⟨_, _, _, _, rfl⟩

/-- A run of a loop, field by field (R236, R238). -/
theorem run_fields (x : Loop) (v : Wiring) :
    let y := x.run v
    let lo := x.act.imin.toInt * 2 ^ x.act.format.shift
    let hi := x.act.imax.toInt * 2 ^ x.act.format.shift
    y.act = x.act ∧ y.starting = false ∧ y.yp = v.y ∧ y.up = x.output v ∧ y.u = BitVec.ofInt 32 (x.output v) ∧
      y.sat = decide (x.output v ≠ x.unclamped v) ∧
      y.i = clampTo (if x.output v ≠ x.unclamped v ∧ (x.step v).sign = (x.unclamped v - x.output v).sign then x.before else x.sum v)
        lo hi := by
  obtain ⟨j, r, l, g, h⟩ := supervise_eq (x.begun v.y) v.y
  have start : (if x.starting then { x with yp := v.y, up := 0, i := 0 } else x).supervise v.y = _ := h
  unfold Loop.run
  simp only [start, begun_act, begun_i, begun_moved]
  simp only [Loop.output, Loop.unclamped, Loop.sum, Loop.step, Bool.and_eq_true, decide_eq_true_eq, true_and]
  exact ⟨rfl, rfl⟩

/-- The run of residuals counts on in a checked run that is not a first one, and stands otherwise (R239). -/
theorem run_resRun (x : Loop) (v : Wiring) :
    (x.run v).resRun = if x.starting = true ∨ x.act.resBand = 0 then x.resRun
      else if x.act.resBand.toNat < (v.y - rnd (x.act.modelA.toInt * x.yp + x.act.modelB.toInt * x.up) 24).natAbs then satInc x.resRun
      else 0 := by
  have of_supervise : (x.run v).resRun = ((x.begun v.y).supervise v.y).resRun := rfl
  rw [of_supervise]
  unfold Loop.supervise
  simp only [begun_starting, begun_act]
  by_cases unchecked : x.starting = true ∨ x.act.resBand = 0
  · rw [if_pos (by simpa using unchecked), if_pos unchecked]
    exact begun_resRun ..
  · rw [if_neg (by simpa using unchecked), if_neg unchecked, begun_of_later _ (by simpa using (not_or.1 unchecked).1)]

theorem format_input (q : LoopCfg) (n : Int) : q.format.input n = if q.bfp then satTo 32 n else satTo 16 (rnd n q.insh.toNat) := by
  unfold LoopCfg.format
  split <;> rfl

theorem format_width (q : LoopCfg) : q.format.width = if q.bfp then 64 else 40 := by
  unfold LoopCfg.format
  split <;> rfl

theorem format_shift (q : LoopCfg) : q.format.shift = if q.bfp then q.gexp.toNat else 15 - q.outsh.toNat := by
  unfold LoopCfg.format
  split <;> rfl

theorem format_input_zero (q : LoopCfg) : q.format.input 0 = 0 := by
  rw [format_input, rnd_zero]
  split <;> exact satTo_zero _

/-- With its measurement at its reference and no feed-forward a first run starts from 0 (R238). -/
theorem unclamped_start {x : Loop} {v : Wiring} (first : x.starting = true) (at_ : v.r = v.y) (kff : x.act.kff = 0) :
    x.unclamped v = 0 := by
  simp [Loop.unclamped, Loop.sum, Loop.step, Loop.before, Loop.moved, first, at_, kff, format_input_zero, satTo_zero, rnd_zero]

/-- The law of R236 as the obligation states it. -/
theorem run_follows_law (x : Loop) (v : Wiring) :
    let y := x.run v
    let q := x.act
    let u0 := x.unclamped v
    let lo := q.imin.toInt * 2 ^ q.format.shift
    let hi := q.imax.toInt * 2 ^ q.format.shift
    y.sat = decide (y.up ≠ u0) ∧
      (q.omin.toInt ≤ u0 → u0 ≤ q.omax.toInt → v.lo ≤ u0 → u0 ≤ v.hi → y.up = u0 ∧ y.u = BitVec.ofInt 32 u0) ∧
      (y.sat = false ∨ (x.step v).sign ≠ (u0 - y.up).sign → lo ≤ x.sum v → x.sum v ≤ hi → y.i = x.sum v) ∧
      (y.sat = true → (x.step v).sign = (u0 - y.up).sign → lo ≤ x.before → x.before ≤ hi → y.i = x.before) ∧
      (v.lo ≤ v.hi → v.lo ≤ y.up ∧ y.up ≤ v.hi) ∧
      (q.omax.toInt < v.lo → v.lo ≤ v.hi → q.omin.toInt ≤ q.omax.toInt → y.up = v.lo) ∧
      (v.hi < q.omin.toInt → v.lo ≤ v.hi → y.up = v.hi) ∧
      (v.lo ≤ q.omin.toInt → q.omin.toInt ≤ q.omax.toInt → q.omax.toInt ≤ v.hi →
        q.omin.toInt ≤ y.up ∧ y.up ≤ q.omax.toInt) ∧
      (q.imin.toInt ≤ q.imax.toInt → lo ≤ y.i ∧ y.i ≤ hi) ∧
      (x.starting = true → v.r = v.y → q.kff = 0 → v.lo ≤ 0 → 0 ≤ v.hi → q.omin.toInt ≤ 0 → 0 ≤ q.omax.toInt →
        y.up = 0) := by
  obtain ⟨-, -, -, up, u, sat, i⟩ := run_fields x v
  intro y q u0 lo hi
  refine ⟨by rw [sat, up], fun h1 h2 h3 h4 => ?_, fun free h1 h2 => ?_, fun held sign h1 h2 => ?_, fun h => ?_, fun h1 h2 h3 => ?_,
    fun h1 h2 => ?_, fun h1 h2 h3 => ?_, fun h => ?_, fun first at_ kff h1 h2 h3 h4 => ?_⟩
  · have inside : x.output v = u0 := by rw [Loop.output, clampTo_of_mem h1 h2, clampTo_of_mem h3 h4]
    exact ⟨up.trans inside, u.trans (congrArg _ inside)⟩
  · rw [i, if_neg, clampTo_of_mem h1 h2]
    rintro ⟨out, sign⟩
    rcases free with free | free
    · exact absurd (sat.symm.trans free) (by simpa using out)
    · exact free (by rw [up]; exact sign)
  · rw [i, if_pos, clampTo_of_mem h1 h2]
    exact ⟨by simpa using sat.symm.trans held, by rw [← up]; exact sign⟩
  · rw [up]
    exact clampTo_mem h
  · have inner := (clampTo_mem (x := u0) h3).2
    rw [up]
    exact clampTo_low _ (inner.trans h1.le)
  · have inner := le_clampTo u0 q.omin.toInt q.omax.toInt
    rw [up]
    exact clampTo_high (h1.le.trans inner) h2
  · have inner := clampTo_mem (x := u0) h2
    rw [up, Loop.output, clampTo_of_mem (h1.trans inner.1) (inner.2.trans h3)]
    exact inner
  · rw [i]
    exact clampTo_mem (Int.mul_le_mul_of_nonneg_right h (by positivity))
  · rw [up, Loop.output, unclamped_start first at_ kff, clampTo_of_mem h3 h4, clampTo_of_mem h1 h2]

/-- The obligation writes the law out over the settings; the run's parts are what it writes. -/
theorem unclamped_eq (x : Loop) (v : Wiring) :
    let q := x.act
    let input := fun n : Int => if q.bfp then satTo 32 n else satTo 16 (rnd n q.insh.toNat)
    let width := if q.bfp then 64 else 40
    let shift := if q.bfp then q.gexp.toNat else 15 - q.outsh.toNat
    let before : Int := if x.starting then 0 else x.i
    let ee := input (v.r - v.y)
    let acc := satTo width (before + q.ki.toInt * ee)
    let pd := satTo width (satTo width (q.kp.toInt * ee + acc) + q.kd.toInt * input (if x.starting then 0 else x.yp - v.y))
    x.unclamped v = satTo 32 (rnd (satTo width (pd + q.kff.toInt * input v.f)) shift) ∧ x.sum v = acc ∧ x.step v = q.ki.toInt * ee := by
  simp only [Loop.unclamped, Loop.sum, Loop.step, Loop.before, Loop.moved, format_input, format_width, format_shift, and_self]

/-! ### The wiring (Table 11-1) -/

theorem wiring_carLoop (c : Chip) (k : CarId) :
    c.wiring (carLoop k) = ⟨(c.setPos (carAxis k)).toInt, (c.cars[k.val]).pos.toInt, c.setVel (carAxis k),
      -(c.axisBound (carAxis k) 0 : Int), c.axisBound (carAxis k) 0⟩ := by
  have high : 72 ≤ (carLoop k).val := by simp only [carLoop]; omega
  simp only [Chip.wiring, high, if_true, carOfLoop_carLoop]

theorem doorLoop_low (d : DoorId) (n : Fin 3) : ¬ 72 ≤ (doorLoop d n).val := by
  simp only [doorLoop]
  omega

theorem doorLoop_mod (d : DoorId) (n : Fin 3) : (doorLoop d n).val % 3 = n.val := by
  simp only [doorLoop]
  omega

theorem wiring_doorLoop (c : Chip) (d : DoorId) :
    let a := doorAxis d
    let x := c.doors[d.val]
    c.wiring (doorLoop d 2) = ⟨(c.setPos a).toInt, x.pos.toInt, c.setVel a, -2000000, 2000000⟩ ∧
      c.wiring (doorLoop d 1) = ⟨c.loopOut (doorLoop d 2), x.speed.toInt, c.setAccel a, -(x.limit.toNat : Int), x.limit.toNat⟩ ∧
      c.wiring (doorLoop d 0) = ⟨c.loopOut (doorLoop d 1), x.iq.toInt, x.speed.toInt, -32768, 32767⟩ := by
  refine ⟨?_, ?_, ?_⟩ <;> simp only [Chip.wiring, doorLoop_low, if_false, doorOfLoop_doorLoop, doorLoop_mod, Option.getD_some] <;> rfl

/-! ### The slot of a loop -/

/-- A stage of a door is that door's loop of its number. -/
theorem eq_doorLoop {l : LoopId} {d : DoorId} {n : Fin 3} (place : doorOfLoop l = some d) (stage : l.val % 3 = n.val) :
    l = doorLoop d n := by
  simp only [doorOfLoop, fin?, Option.dite_none_right_eq_some, Option.some.injEq] at place
  obtain ⟨_, rfl⟩ := place
  refine Fin.ext ?_
  simp only [doorLoop]
  omega

/-- The loops of different stages or doors differ. -/
theorem doorLoop_inj {d e : DoorId} {n m : Fin 3} (h : doorLoop d n = doorLoop e m) : d = e ∧ n = m := by
  have h := congrArg Fin.val h
  simp only [doorLoop] at h
  exact ⟨Fin.ext (by omega), Fin.ext (by omega)⟩

/-- The loop as its slot leaves it (R234, R238). -/
def Chip.slotLoop (c : Chip) (l : LoopId) : Loop :=
  if c.loopForced l then (c.loops[l.val]).quiet else if c.loopDue l then (c.loops[l.val]).run (c.wiring l) else c.loops[l.val]

/-- What a slot does before its duties: the force, the run or nothing (R18, R238, R283). -/
def Chip.loopStep (c : Chip) (l : LoopId) : Chip :=
  if c.loopForced l then c.modLoop l Loop.quiet
  else if c.loopDue l then (c.modLoop l fun x => x.run (c.wiring l)).afterRun l
  else c

/-- A loop in its slot or before it (R18). -/
theorem runLoopRun_in {l : LoopId} {s : State} (h : s.chip.may (.loop (loopSlot l)) = true) :
    runLoopRun l s = s.act fun c => ((c.enter (.loop (loopSlot l + 1))).loopStep l).latchDuties l := by
  have sck : s.chip.lnk.sckRunning = true := by
    simp only [Chip.may, Bool.and_eq_true] at h
    obtain ⟨⟨sck, -⟩, -⟩ := h
    exact sck
  unfold runLoopRun
  rw [State.clock_of_running sck]
  refine act_congr ?_
  dsimp only
  rw [if_neg (by simp [h])]
  rfl

theorem upd_const_self {α : Type} {n : Nat} (v : Vector α n) (i : Fin n) : (upd v i fun _ => v[i.val]) = v := by
  simp [upd]

/-! ### The current limit (R283) -/

theorem afterRun_doorLoop (c : Chip) (d : DoorId) :
    c.afterRun (doorLoop d 1) = c.levelAfter d (c.loops[(doorLoop d 1).val]).sat := by
  simp [Chip.afterRun, doorLoop_low, doorLoop_mod, doorOfLoop_doorLoop]

/-- A run of another stage than a door's speed moves no current limit. -/
theorem afterRun_other {c : Chip} {l : LoopId} (h : ∀ d, l ≠ doorLoop d 1) : c.afterRun l = c := by
  unfold Chip.afterRun
  split
  · rfl
  · next speed =>
    cases place : doorOfLoop l with
    | none => rfl
    | some d => exact absurd (eq_doorLoop (n := 1) place (by simp at speed; simp [speed])) (h d)

/-- What a run of the speed stage makes of a door under a cap on its current: the limit rests at its base, or moves with saturation
(R283). -/
def Door.Levelled (q z : Door) (cap : Nat) (saturated : Bool) : Prop :=
  z = { q with limit := z.limit, atCap := z.atCap } ∧ z.atCap = (saturated && decide (q.limit.toNat = cap)) ∧
    (q.st = .homing ∨ q.st = .learning ∨ q.st = .reversing → z.limit = q.act.base) ∧
    (q.st ≠ .homing → q.st ≠ .learning → q.st ≠ .reversing → z.limit = BitVec.ofNat 16
      (if saturated then (if q.limit.toNat < cap then min (q.limit.toNat + q.act.iboost.toNat) cap else q.limit.toNat)
        else max (q.limit.toNat - q.act.iboost.toNat) q.act.base.toNat))

theorem levelAfter_levelled (c : Chip) (d : DoorId) (saturated : Bool) :
    (c.doors[d.val]).Levelled ((c.levelAfter d saturated).doors[d.val]) (c.currentCap d) saturated := by
  unfold Chip.levelAfter Door.Levelled
  simp only [Chip.modDoor_doors, upd_same]
  split
  · next rests =>
    exact ⟨rfl, rfl, fun _ => rfl, fun h1 h2 h3 => absurd rests (by simp [h1, h2, h3])⟩
  · next moves =>
    exact ⟨rfl, rfl, fun h => absurd h (by simpa [or_assoc] using moves), fun _ _ _ => rfl⟩

/-- The cap of the limit where the force constant is set (R283). -/
theorem currentCap_eq {c : Chip} {d : DoorId} (kt : (c.doors[d.val]).act.kt ≠ 0) :
    c.currentCap d = min (c.sps0 (.door 0 d)) (c.sps0 (.door 1 d) * 10000 / (c.doors[d.val]).act.kt.toNat) := by
  have kt : (c.doors[d.val]).act.kt.toNat ≠ 0 := fun h => kt (BitVec.eq_of_toNat_eq h)
  simp only [Chip.currentCap, kt, if_false]

/-! ### The duties (R280) -/

theorem latchDuties_doorLoop (c : Chip) (d : DoorId) :
    c.latchDuties (doorLoop d 0) =
      if !c.running || !(c.doors[d.val]).inUse || (c.doors[d.val]).st = .fault then c
      else c.modDoor d fun x => { x with legsNext := c.legDuties d (c.loopOut (doorLoop d 0)) } := by
  simp [Chip.latchDuties, doorLoop_low, doorLoop_mod, doorOfLoop_doorLoop]

/-- The duties of a door leave the other doors. -/
theorem latchDuties_beside (c : Chip) {d e : DoorId} (apart : d ≠ e) : (c.latchDuties (doorLoop e 0)).doors[d.val] = c.doors[d.val] := by
  rw [latchDuties_doorLoop]
  split
  · rfl
  · exact upd_other _ _ apart

/-- Another stage than a door's current forms no duties. -/
theorem latchDuties_other {c : Chip} {l : LoopId} (h : ∀ d, l ≠ doorLoop d 0) : c.latchDuties l = c := by
  unfold Chip.latchDuties
  split
  · rfl
  · next current =>
    cases place : doorOfLoop l with
    | none => rfl
    | some d => exact absurd (eq_doorLoop (n := 0) place (by simp at current; simp [current])) (h d)

theorem loopOut_eq (c : Chip) (l : LoopId) :
    c.loopOut l = if (c.cars[(carOfLoop l).val]).on && (c.loops[l.val]).act.run && c.loopUsed l && !c.loopForced l then
      (c.loops[l.val]).u.toInt else 0 := rfl

/-- A forced loop presents 0 (R238). -/
theorem loopOut_of_forced {c : Chip} {l : LoopId} (forced : c.loopForced l = true) : c.loopOut l = 0 := by
  simp [loopOut_eq, forced]

/-- A loop that is due presents its output (R235). -/
theorem loopOut_of_due {c : Chip} {l : LoopId} (due : c.loopDue l = true) : c.loopOut l = (c.loops[l.val]).u.toInt := by
  simp only [Chip.loopDue, Bool.and_eq_true] at due
  obtain ⟨⟨⟨⟨⟨-, on⟩, used⟩, run⟩, free⟩, -⟩ := due
  rw [loopOut_eq, if_pos (by simp [on, used, run, free])]

/-- What a loop computes decides nothing about its force: the standing fault does (R238). -/
theorem loopForced_of_fault {c : Chip} {l : LoopId} {f : Loop → Loop} (same : (f c.loops[l.val]).fault = (c.loops[l.val]).fault) :
    (c.modLoop l f).loopForced l = c.loopForced l := by
  simp only [Chip.loopForced, Chip.loopFaulted, Chip.modLoop_loops, upd_same, same]
  rfl

theorem loopDue_of_fault {c : Chip} {l : LoopId} {f : Loop → Loop} (same : (f c.loops[l.val]).fault = (c.loops[l.val]).fault)
    (act : (f c.loops[l.val]).act = (c.loops[l.val]).act) : (c.modLoop l f).loopDue l = c.loopDue l := by
  simp only [Chip.loopDue, loopForced_of_fault same, Chip.modLoop_loops, upd_same, act]
  rfl

/-! ### What a slot changes -/

/-- A slot changes its loop and doors, nothing else (R235). -/
theorem loopStep_frame (c : Chip) (l : LoopId) :
    ∃ ds, c.loopStep l = { c.modLoop l fun _ => c.slotLoop l with doors := ds } := by
  unfold Chip.loopStep Chip.slotLoop
  split
  · exact ⟨_, rfl⟩
  · split
    · unfold Chip.afterRun
      split
      · exact ⟨_, rfl⟩
      · split
        · exact ⟨_, rfl⟩
        · exact ⟨_, rfl⟩
    · exact ⟨_, by rw [Chip.modLoop, upd_const_self]⟩

theorem latchDuties_frame (c : Chip) (l : LoopId) : ∃ ds, c.latchDuties l = { c with doors := ds } := by
  unfold Chip.latchDuties
  split
  · exact ⟨_, rfl⟩
  · split
    · exact ⟨_, rfl⟩
    · split
      · exact ⟨_, rfl⟩
      · exact ⟨_, rfl⟩

/-- Another stage than a door's speed moves no door before the duties. -/
theorem loopStep_other {c : Chip} {l : LoopId} (h : ∀ d, l ≠ doorLoop d 1) :
    c.loopStep l = c.modLoop l fun _ => c.slotLoop l := by
  unfold Chip.loopStep Chip.slotLoop
  split
  · rfl
  · split
    · exact afterRun_other h
    · rw [Chip.modLoop, upd_const_self]

/-- Another stage than a door's current or speed leaves that door. -/
theorem slot_other (c : Chip) {l : LoopId} {d : DoorId} (h0 : l ≠ doorLoop d 0) (h1 : l ≠ doorLoop d 1) :
    ((c.loopStep l).latchDuties l).doors[d.val] = c.doors[d.val] := by
  by_cases current : ∃ e, l = doorLoop e 0
  · obtain ⟨e, rfl⟩ := current
    have apart : d ≠ e := fun h => h0 (h ▸ rfl)
    rw [latchDuties_beside _ apart, loopStep_other fun f h => absurd (doorLoop_inj h).2 (by decide)]
    rfl
  · rw [latchDuties_other fun e h => current ⟨e, h⟩]
    by_cases speed : ∃ e, l = doorLoop e 1
    · obtain ⟨e, rfl⟩ := speed
      have apart : d ≠ e := fun h => h1 (h ▸ rfl)
      unfold Chip.loopStep
      rw [afterRun_doorLoop]
      split
      · rfl
      · split
        · exact upd_other _ _ apart
        · rfl
    · rw [loopStep_other fun e h => speed ⟨e, h⟩]
      rfl

/-- A slot of a door's speed stage that does not run leaves its door (R238). -/
theorem slot_idle {c : Chip} {l : LoopId} (h : ¬ (c.loopForced l = false ∧ c.loopDue l = true)) : (c.loopStep l).doors = c.doors := by
  unfold Chip.loopStep
  split
  · rfl
  · next free =>
    rw [if_neg fun due => h ⟨by simpa using free, due⟩]

/-- A run of a door's speed stage moves its current limit with what the run has left of SAT (R283). -/
theorem slot_levelled {c : Chip} {d : DoorId} (forced : c.loopForced (doorLoop d 1) = false) (due : c.loopDue (doorLoop d 1) = true) :
    (c.doors[d.val]).Levelled ((c.loopStep (doorLoop d 1)).doors[d.val]) (c.currentCap d) (c.slotLoop (doorLoop d 1)).sat := by
  unfold Chip.loopStep Chip.slotLoop
  rw [afterRun_doorLoop]
  simp only [forced, due, Bool.false_eq_true, if_false, if_true, Chip.modLoop_loops, upd_same]
  exact levelAfter_levelled (c.modLoop (doorLoop d 1) fun x => x.run (c.wiring (doorLoop d 1))) d _

/-- The fault code stands through a run (R241). -/
theorem run_fault (x : Loop) (v : Wiring) : (x.run v).fault = x.fault := by
  have of_supervise : (x.run v).fault = ((x.begun v.y).supervise v.y).fault := rfl
  obtain ⟨j, r, l, g, h⟩ := supervise_eq (x.begun v.y) v.y
  rw [of_supervise, h]
  unfold Loop.begun
  split <;> rfl

/-- What a loop presents after its slot (R235, R238). -/
theorem loopOut_slot (c : Chip) (l : LoopId) :
    (c.modLoop l fun _ => c.slotLoop l).loopOut l =
      if c.loopForced l then 0 else if c.loopDue l then (c.slotLoop l).u.toInt else c.loopOut l := by
  have slot : c.slotLoop l = if c.loopForced l then (c.loops[l.val]).quiet else if c.loopDue l then (c.loops[l.val]).run (c.wiring l)
    else c.loops[l.val] := rfl
  split
  · next forced =>
    refine loopOut_of_forced ((loopForced_of_fault ?_).trans forced)
    rw [slot, if_pos forced]
    rfl
  · next free =>
    split
    · next due =>
      rw [if_neg free, if_pos due] at slot
      have stands : (c.modLoop l fun _ => c.slotLoop l).loopDue l = c.loopDue l :=
        loopDue_of_fault (by rw [slot, run_fault]) (by rw [slot]; exact (run_fields _ _).1)
      rw [loopOut_of_due (stands.trans due), Chip.modLoop_loops, upd_same]
    · next idle =>
      rw [if_neg free, if_neg idle] at slot
      have same : (c.modLoop l fun _ => c.slotLoop l) = c := by
        rw [slot, Chip.modLoop, upd_const_self]
      rw [same]

theorem slot_frame (c : Chip) (l : LoopId) :
    let t := (c.loopStep l).latchDuties l
    t.stage = c.stage ∧ t.dev = c.dev ∧ t.axes = c.axes ∧ t.cars = c.cars ∧ t.loops = upd c.loops l fun _ => c.slotLoop l := by
  obtain ⟨ds, step⟩ := loopStep_frame c l
  obtain ⟨ds', duties⟩ := latchDuties_frame (c.loopStep l) l
  dsimp only
  rw [duties, step]
  exact ⟨rfl, rfl, rfl, rfl, rfl⟩

/-- The duties of a slot are formed from what the current stage presents after it (R280). -/
theorem slot_duties (c : Chip) (d : DoorId) :
    let l := doorLoop d 0
    let q := c.doors[d.val]
    let z := ((c.loopStep l).latchDuties l).doors[d.val]
    let v : Int := if c.loopForced l then 0 else if c.loopDue l then (c.slotLoop l).u.toInt else c.loopOut l
    (c.running = false ∨ q.inUse = false ∨ q.st = .fault → z = q) ∧
      (c.running = true → q.inUse = true → q.st ≠ .fault → z = { q with legsNext := c.legDuties d v }) := by
  intro l q z v
  have step : c.loopStep l = c.modLoop l fun _ => c.slotLoop l := loopStep_other fun e h => absurd (doorLoop_inj h).2 (by decide)
  have duties : z = _ := congrArg (fun t : Chip => t.doors[d.val]) ((congrArg (·.latchDuties l) step).trans (latchDuties_doorLoop _ d))
  rw [duties]
  have running : (c.modLoop l fun _ => c.slotLoop l).running = c.running := rfl
  refine ⟨fun low => ?_, fun hr used runs => ?_⟩
  · rw [if_pos]
    · rfl
    · rcases low with low | low | low <;> simp [running, low, q]
  · rw [if_neg]
    · rw [Chip.modDoor_doors, upd_same, loopOut_slot]
      rfl
    · simp [running, hr, used, runs, q]

/-! ### The obligation -/

/-- Settles O56: the slot by its stages, the wiring, and the law by the terms of R236. -/
theorem loopRunFollowsLaw : Obligations.LoopRunFollowsLaw := by
  refine ⟨fun s l h => ?_, fun c k d => ?_, fun x v => ?_⟩
  · intro c base x ran
    obtain ⟨stage, dev, axes, cars, loops⟩ := slot_frame base l
    refine ⟨_, congrArg Host.Outcome.next (runLoopRun_in h), rfl, rfl, ?_⟩
    rw [State.act_chip]
    refine ⟨stage, dev, axes, cars, ?_, fun i hi => ?_,
      fun still => ?_, fun d h0 h1 => slot_other base h0 h1, fun d hd => ?_, fun d hd => ?_⟩
    · exact (congrArg (·[l.val]) loops).trans (upd_same ..)
    · exact (congrArg (·[i.val]) loops).trans (upd_other _ _ hi)
    · have no_stage : ∀ d : DoorId, ∀ n : Fin 3, n ≠ 2 → l ≠ doorLoop d n := by
        rintro d n hn rfl
        rw [doorLoop_mod] at still
        exact still.elim (doorLoop_low d n) fun h => hn (Fin.ext h)
      rw [latchDuties_other fun d => no_stage d 0 (by decide), loopStep_other fun d => no_stage d 1 (by decide)]
      rfl
    · subst hd
      intro q z runs
      have no_duties : (base.loopStep (doorLoop d 1)).latchDuties (doorLoop d 1) = base.loopStep (doorLoop d 1) :=
        latchDuties_other fun e h => absurd (doorLoop_inj h).2 (by decide)
      have at_ : z = (base.loopStep (doorLoop d 1)).doors[d.val] := congrArg (fun t : Chip => t.doors[d.val]) no_duties
      have level : runs → q.Levelled z (c.currentCap d) ran.sat := fun ⟨forced, due⟩ => at_ ▸ slot_levelled (c := base) forced due
      refine ⟨fun idle => at_.trans (congrArg (·[d.val]) (slot_idle idle)), fun due => (level due).1, fun due => (level due).2.2.1,
        fun due kt => ?_⟩
      obtain ⟨-, atCap, -, moves⟩ := level due
      rw [currentCap_eq kt] at atCap moves
      refine ⟨atCap, fun h1 h2 h3 => ?_⟩
      have limit := moves h1 h2 h3
      exact ⟨fun sat below => by rw [limit, if_pos sat, if_pos below],
        fun sat above => by rw [limit, if_pos sat, if_neg above.not_gt, BitVec.ofNat_toNat, BitVec.setWidth_eq],
        fun free => by rw [limit, if_neg (by simp [free])]⟩
    · subst hd
      obtain ⟨low, on⟩ := slot_duties base d
      intro q v psi sine leg
      refine ⟨low, fun hr used runs => ?_⟩
      have legs := on hr used runs
      have duties : _ = c.legDuties d v := congrArg Door.legsNext legs
      rw [duties]
      refine ⟨legs, fun type => ?_, fun type => ?_, fun type => ?_⟩ <;>
      · unfold Chip.legDuties
        simp only [show (c.doors[d.val]).act.type = _ from type]
        rfl
  · exact ⟨wiring_carLoop c k, wiring_doorLoop c d⟩
  · obtain ⟨act, starting, yp, -⟩ := run_fields x v
    obtain ⟨sat, inside, free, held, bound, low, high, own, clamp, start⟩ := run_follows_law x v
    obtain ⟨u0_eq, acc_eq, step_eq⟩ := unclamped_eq x v
    have count := run_resRun x v
    intro y q input width shift before ee acc pd u0 lo hi
    have shift_eq : x.act.format.shift = shift := format_shift q
    have u0_eq : x.unclamped v = u0 := u0_eq
    have acc_eq : x.sum v = acc := acc_eq
    have step_eq : x.step v = q.ki.toInt * ee := step_eq
    rw [u0_eq] at sat inside free held
    rw [shift_eq] at free held clamp
    rw [step_eq] at free held
    rw [acc_eq] at free
    refine ⟨act, starting, yp, sat, inside, free, held, bound, low, high, own, clamp, start, fun later band => ?_,
      fun unchecked => count.trans (if_pos unchecked)⟩
    rw [count, if_neg (not_or.2 ⟨by simp [later], band⟩)]
    exact if_congr Int.ofNat_lt.symm rfl rfl

end Sys2Proof.Machine
end

section
/-! The interlock matrices and the enables (R38, R303 to R307, R312, Tables 14-2 and 14-3). -/

namespace Sys2Proof.Machine

/-! ### A word of three enables -/

/-- The enables DRV, BRK and DOOR as a word, DRV at bit 0. -/
def enableWord (drv brk door : Bool) : BitVec 3 := BitVec.ofBool door ++ BitVec.ofBool brk ++ BitVec.ofBool drv

@[simp] theorem enableWord_drv (drv brk door : Bool) : (enableWord drv brk door).getLsbD 0 = drv := by
  revert drv brk door
  decide

@[simp] theorem enableWord_brk (drv brk door : Bool) : (enableWord drv brk door).getLsbD 1 = brk := by
  revert drv brk door
  decide

@[simp] theorem enableWord_door (drv brk door : Bool) : (enableWord drv brk door).getLsbD 2 = door := by
  revert drv brk door
  decide

/-- A word with one of the drive enables, bits 0 and 1. -/
theorem and_drives_ne_zero (e : BitVec 3) : e &&& 3 ≠ 0 ↔ e.getLsbD 0 = true ∨ e.getLsbD 1 = true := by
  revert e
  decide

/-! ### The terms of an evaluation -/

section

variable (c : Chip) (k : CarId)

/-- The main path of a matrix holds (R303). -/
def Chip.mainPath (w : Word) : Bool := maskHolds (c.condition k) (mainMask w)

/-- A zone grant of DRV or BRK stands and the car is outside the zone (R305). -/
def Chip.zoneExits : Bool := decide ((c.cars[k.val]).ilk.zgrant &&& 3 ≠ 0) && !(c.cars[k.val]).zone

/-- The threshold window, the three matrices and the zone word hold these values. -/
structure Chip.MatrixSet (window drv brk door zen : Word) : Prop where
  window : c.sps.get (.ilk 1 k) = some window
  drv : c.sps.get (.ilk 2 k) = some drv
  brk : c.sps.get (.ilk 3 k) = some brk
  door : c.sps.get (.ilk 4 k) = some door
  zone : c.sps.get (.ilk 6 k) = some zen

/-- ZLOCK behind an evaluation: cleared where both drive paths hold at speed 0, then set by a zone exit (R305). -/
def Chip.lockAfter (drv brk : Word) : Bool :=
  (c.cars[k.val]).ilk.zlock && !(c.mainPath k drv && c.mainPath k brk && decide ((c.cars[k.val]).speed = 0)) || c.zoneExits k

/-- A matrix lets an enable through: on its main path, or on its zone path where its bit of ZEN is set and ZLOCK clear (R303). -/
def Chip.anyPath (lock : Bool) (zen w : Word) (bit : Nat) : Bool :=
  c.mainPath k w ||
    (zen.getLsbD bit && decide ((c.cars[k.val]).service = .in_) && !lock && maskHolds (c.condition k) (zoneMask w))

/-- The fixed term of DRV (Table 14-2). -/
def Chip.driveTerm : Bool :=
  let x := c.cars[k.val]
  c.running && (decide (x.service = .homing) || decide (x.service = .inspect) || decide (x.service = .in_)) && !x.ilk.rbFault

/-- The permit of DRV without a pulse test (R303). -/
def Chip.permitsDrv (lock : Bool) (zen drv : Word) : Bool :=
  c.driveTerm k && (c.presented k).getLsbD 0 && c.anyPath k lock zen drv 0

/-- The permit of BRK without a pulse test (R303). -/
def Chip.permitsBrk (lock : Bool) (zen drv brk : Word) : Bool :=
  let i := (c.cars[k.val]).ilk
  c.driveTerm k && c.permitsDrv k lock zen drv && i.out.getLsbD 0 && i.rb.getLsbD 0 && (c.presented k).getLsbD 1 &&
    c.anyPath k lock zen brk 0

/-- The permit of DOOR without a pulse test (R303). -/
def Chip.permitsDoor (lock : Bool) (zen door : Word) : Bool :=
  let x := c.cars[k.val]
  c.running && decide (x.service ≠ .islandOff) && !x.ilk.rbFault && (c.presented k).getLsbD 2 && c.anyPath k lock zen door 1

/-- The fixed term that a pulse test leaves of Table 14-2 (R312). -/
def Chip.testTerm : Bool := c.running && !(c.cars[k.val]).ilk.rbFault

/-- The permit of DRV in a running pulse test (R312). -/
def Chip.testsDrv (t : PulseTest) (drv : Word) : Bool := c.testTerm k && t.raises.getLsbD 0 && c.mainPath k drv

/-- The permit of BRK in a running pulse test (R312). -/
def Chip.testsBrk (t : PulseTest) (drv brk : Word) : Bool :=
  let x := c.cars[k.val]
  c.testTerm k && c.testsDrv k t drv && x.ilk.out.getLsbD 0 && x.ilk.rb.getLsbD 0 && t.raises.getLsbD 1 && c.mainPath k brk &&
    x.driveReady

/-- The permit of DOOR in a running pulse test (R312). -/
def Chip.testsDoor (t : PulseTest) (door : Word) : Bool := c.testTerm k && t.raises.getLsbD 2 && c.mainPath k door

/-- A pulse test raises an enable whose main path fails (R312). -/
def Chip.testBlocked (t : PulseTest) (drv brk door : Word) : Bool :=
  t.raises.getLsbD 0 && !c.mainPath k drv || t.raises.getLsbD 1 && !c.mainPath k brk || t.raises.getLsbD 2 && !c.mainPath k door

end

variable {c : Chip} {k : CarId} {window drv brk door zen : Word}

theorem zoneExits_iff : c.zoneExits k = true ↔
    ((c.cars[k.val]).ilk.zgrant.getLsbD 0 = true ∨ (c.cars[k.val]).ilk.zgrant.getLsbD 1 = true) ∧ (c.cars[k.val]).zone = false := by
  simp only [Chip.zoneExits, Bool.and_eq_true, decide_eq_true_eq, and_drives_ne_zero, Bool.not_eq_true']

/-- A member that is set reads back as its value. -/
theorem sps0_of_set {i : SpsId} {w : Word} (h : c.sps.get i = some w) : BitVec.ofNat 32 (c.sps0 i) = w := by
  simp [Chip.sps0, h]

/-! ### What an evaluation decides -/

/-- With a member unset nothing is permitted, and a zone exit still locks (R303, R305). -/
theorem verdict_unset
    (h : c.sps.get (.ilk 1 k) = none ∨ c.sps.get (.ilk 2 k) = none ∨ c.sps.get (.ilk 3 k) = none ∨ c.sps.get (.ilk 4 k) = none ∨
      c.sps.get (.ilk 6 k) = none) :
    (c.verdict k).permit = 0 ∧ (c.verdict k).zlock = ((c.cars[k.val]).ilk.zlock || c.zoneExits k) := by
  unfold Chip.verdict
  dsimp only
  split
  next h1 h2 h3 h4 h6 => simp [h1, h2, h3, h4, h6] at h
  next => exact ⟨rfl, rfl⟩

/-- Every evaluation reports a zone exit (R305). -/
theorem verdict_zexit (c : Chip) (k : CarId) : (c.verdict k).zexit = ((c.cars[k.val]).ilk.zexit || c.zoneExits k) := by
  unfold Chip.verdict
  dsimp only
  split
  · split <;> rfl
  · rfl

/-- With no pulse test running the matrices decide (R303, R305). -/
theorem verdict_idle (h : c.MatrixSet k window drv brk door zen)
    (idle : (c.cars[k.val]).ilk.test = none ∨ ∃ t, (c.cars[k.val]).ilk.test = some t ∧ t.result.isSome = true) :
    let lock := c.lockAfter k drv brk
    let pd := c.permitsDrv k lock zen drv
    let pb := c.permitsBrk k lock zen drv brk
    let po := c.permitsDoor k lock zen door
    c.verdict k = ⟨enableWord pd pb po,
      enableWord (pd && !c.mainPath k drv) (pb && !c.mainPath k brk) (po && !c.mainPath k door), lock,
      (c.cars[k.val]).ilk.zexit || c.zoneExits k, false⟩ := by
  obtain ⟨h1, h2, h3, h4, h6⟩ := h
  unfold Chip.verdict
  obtain none_ | ⟨t, some_, ended⟩ := idle
  · simp only [h1, h2, h3, h4, h6, none_, sps0_of_set h6]
    rfl
  · simp only [h1, h2, h3, h4, h6, some_, ended, if_true, sps0_of_set h6]
    rfl

/-- A running pulse test decides by what it raises, and one that is blocked withdraws everything (R312). -/
theorem verdict_test {t : PulseTest} (h : c.MatrixSet k window drv brk door zen) (test : (c.cars[k.val]).ilk.test = some t)
    (runs : t.result = none) :
    let blocked := c.testBlocked k t drv brk door
    c.verdict k = ⟨if blocked then 0 else enableWord (c.testsDrv k t drv) (c.testsBrk k t drv brk) (c.testsDoor k t door), 0,
      c.lockAfter k drv brk, (c.cars[k.val]).ilk.zexit || c.zoneExits k, blocked⟩ := by
  obtain ⟨h1, h2, h3, h4, h6⟩ := h
  unfold Chip.verdict
  simp only [h1, h2, h3, h4, h6, test, runs, Option.isSome_none, Bool.false_eq_true, if_false]
  rfl

/-- Pulse test or not, ZLOCK follows R305. -/
theorem verdict_zlock (h : c.MatrixSet k window drv brk door zen) : (c.verdict k).zlock = c.lockAfter k drv brk := by
  cases test : (c.cars[k.val]).ilk.test with
  | none => rw [verdict_idle h (.inl test)]
  | some t =>
    cases result : t.result with
    | none => rw [verdict_test h test result]
    | some r => rw [verdict_idle h (.inr ⟨t, test, by simp [result]⟩)]

theorem verdict_noMain_idle (h : c.MatrixSet k window drv brk door zen)
    (idle : (c.cars[k.val]).ilk.test = none ∨ ∃ t, (c.cars[k.val]).ilk.test = some t ∧ t.result.isSome = true) :
    (c.verdict k).noMain = false := by
  rw [verdict_idle h idle]

theorem verdict_noMain_test {t : PulseTest} (h : c.MatrixSet k window drv brk door zen) (test : (c.cars[k.val]).ilk.test = some t)
    (runs : t.result = none) : (c.verdict k).noMain = c.testBlocked k t drv brk door := by
  rw [verdict_test h test runs]

/-! ### The terms as conditions -/

theorem lockAfter_iff : c.lockAfter k drv brk = true ↔
    ((c.cars[k.val]).ilk.zlock = true ∧ ¬ (c.mainPath k drv = true ∧ c.mainPath k brk = true ∧ (c.cars[k.val]).speed = 0)) ∨
      c.zoneExits k = true := by
  simp only [Chip.lockAfter, Bool.or_eq_true, Bool.and_eq_true, Bool.not_eq_true', ← Bool.not_eq_true, decide_eq_true_eq, and_assoc]

theorem anyPath_iff {lock : Bool} {w : Word} {bit : Nat} : c.anyPath k lock zen w bit = true ↔
    c.mainPath k w = true ∨
      (zen.getLsbD bit = true ∧ (c.cars[k.val]).service = .in_ ∧ lock = false ∧ maskHolds (c.condition k) (zoneMask w) = true) := by
  simp [Chip.anyPath, and_assoc]

/-- An enable is granted by the zone path alone where it is permitted and its main path fails (R305). -/
theorem zoneAlone_iff {permit : Bool} {w : Word} :
    (permit && !c.mainPath k w) = true ↔ permit = true ∧ ¬ c.mainPath k w = true := by
  simp

theorem permitsDrv_iff {lock : Bool} : c.permitsDrv k lock zen drv = true ↔
    (c.running = true ∧ (c.cars[k.val]).ilk.rbFault = false) ∧
      ((c.cars[k.val]).service = .homing ∨ (c.cars[k.val]).service = .inspect ∨ (c.cars[k.val]).service = .in_) ∧
      (c.presented k).getLsbD 0 = true ∧ c.anyPath k lock zen drv 0 = true := by
  simp only [Chip.permitsDrv, Chip.driveTerm, Bool.and_eq_true, Bool.or_eq_true, decide_eq_true_eq, Bool.not_eq_true', and_assoc,
    or_assoc]
  tauto

/-- The fixed term of DRV that BRK repeats holds with the permit of DRV (Table 14-2). -/
theorem permitsBrk_iff {lock : Bool} : c.permitsBrk k lock zen drv brk = true ↔
    c.permitsDrv k lock zen drv = true ∧
      ((c.cars[k.val]).ilk.out.getLsbD 0 = true ∧ (c.cars[k.val]).ilk.rb.getLsbD 0 = true) ∧
      (c.presented k).getLsbD 1 = true ∧ c.anyPath k lock zen brk 0 = true := by
  have fixed : c.permitsDrv k lock zen drv = true → c.driveTerm k = true := by
    simp only [Chip.permitsDrv, Bool.and_eq_true]
    exact fun ⟨⟨fixed, _⟩, _⟩ => fixed
  simp only [Chip.permitsBrk, Bool.and_eq_true, and_assoc]
  exact ⟨And.right, fun h => ⟨fixed h.1, h⟩⟩

theorem permitsDoor_iff {lock : Bool} : c.permitsDoor k lock zen door = true ↔
    (c.running = true ∧ (c.cars[k.val]).ilk.rbFault = false) ∧ (c.cars[k.val]).service ≠ .islandOff ∧
      (c.presented k).getLsbD 2 = true ∧ c.anyPath k lock zen door 1 = true := by
  simp only [Chip.permitsDoor, Bool.and_eq_true, decide_eq_true_eq, Bool.not_eq_true', and_assoc]
  tauto

section

variable {t : PulseTest}

theorem testBlocked_iff : c.testBlocked k t drv brk door = true ↔
    (t.raises.getLsbD 0 = true ∧ ¬ c.mainPath k drv = true) ∨ (t.raises.getLsbD 1 = true ∧ ¬ c.mainPath k brk = true) ∨
      (t.raises.getLsbD 2 = true ∧ ¬ c.mainPath k door = true) := by
  simp [Chip.testBlocked, or_assoc]

/-- Every enable that an unblocked test raises has its main path, so it is permitted by the remaining terms alone (R312). -/
theorem tests_iff (free : c.testBlocked k t drv brk door = false) :
    (c.testsDrv k t drv = true ↔ (c.running = true ∧ (c.cars[k.val]).ilk.rbFault = false) ∧ t.raises.getLsbD 0 = true) ∧
    (c.testsBrk k t drv brk = true ↔ c.testsDrv k t drv = true ∧
      ((c.cars[k.val]).ilk.out.getLsbD 0 = true ∧ (c.cars[k.val]).ilk.rb.getLsbD 0 = true) ∧ t.raises.getLsbD 1 = true ∧
      (c.cars[k.val]).driveReady = true) ∧
    (c.testsDoor k t door = true ↔ (c.running = true ∧ (c.cars[k.val]).ilk.rbFault = false) ∧ t.raises.getLsbD 2 = true) := by
  rw [← Bool.not_eq_true, testBlocked_iff] at free
  simp only [Chip.testsBrk, Chip.testsDrv, Chip.testsDoor, Chip.testTerm, Bool.and_eq_true, Bool.not_eq_true', and_assoc]
  tauto

end

/-! ### MATRIX_EVAL -/

/-- The interlock behind an evaluation: the verdict's permits are pumped, and a blocked pulse test ends with 10 (R307, R312). -/
def Ilk.evaluated (i : Ilk) (v : Verdict) (rise fall : Byte) : Ilk :=
  let i := { i.permitTo v.permit rise fall with zgrant := v.zgrant, zlock := v.zlock, zexit := v.zexit }
  if v.noMain then i.endTest 10 else i

section

variable (i : Ilk) (v : Verdict) (rise fall : Byte)

@[simp] theorem evaluated_permit : (i.evaluated v rise fall).permit = v.permit := by unfold Ilk.evaluated; split <;> rfl
@[simp] theorem evaluated_pump : (i.evaluated v rise fall).pump = v.permit := by unfold Ilk.evaluated; split <;> rfl
@[simp] theorem evaluated_pad : (i.evaluated v rise fall).pad = i.pad := by unfold Ilk.evaluated; split <;> rfl
@[simp] theorem evaluated_zgrant : (i.evaluated v rise fall).zgrant = v.zgrant := by unfold Ilk.evaluated; split <;> rfl
@[simp] theorem evaluated_zlock : (i.evaluated v rise fall).zlock = v.zlock := by unfold Ilk.evaluated; split <;> rfl
@[simp] theorem evaluated_zexit : (i.evaluated v rise fall).zexit = v.zexit := by unfold Ilk.evaluated; split <;> rfl

variable {i v rise fall}

theorem evaluated_test_kept (h : v.noMain = false) : (i.evaluated v rise fall).test = i.test := by
  simp [Ilk.evaluated, h, Ilk.permitTo]

theorem evaluated_test_ended {t : PulseTest} (h : v.noMain = true) (test : i.test = some t) (runs : t.result = none) :
    (i.evaluated v rise fall).test = some { t with result := some 10 } := by
  simp [Ilk.evaluated, h, Ilk.endTest, Ilk.permitTo, test, runs]

end

/-- The device behind the evaluation of car k, with the event ILK where a permit changes (R307, Table 7-2). -/
def Chip.matrixEvaluated (c : Chip) (k : CarId) : Chip :=
  let v := c.verdict k
  let c1 := (c.enter (.close (k.val + 1))).modIlk k fun i => i.evaluated v (c.rise k) (c.fall k)
  if v.permit = (c.cars[k.val]).ilk.permit then c1 else c1.raiseSee k 7

/-- An evaluation changes the interlock of its car, the events raised and the phase alone. -/
theorem matrixEvaluated_frame (c : Chip) (k : CarId) :
    (c.matrixEvaluated k).axes = c.axes ∧ (c.matrixEvaluated k).doors = c.doors ∧ (c.matrixEvaluated k).dev = c.dev ∧
    (c.matrixEvaluated k).cars =
      upd c.cars k fun x => { x with ilk := x.ilk.evaluated (c.verdict k) (c.rise k) (c.fall k) } := by
  unfold Chip.matrixEvaluated
  dsimp only
  split <;> exact ⟨rfl, rfl, rfl, rfl⟩

/-- Work of a phase runs only where SCK does (R28). -/
theorem sckRunning_of_may {p : Stage} (h : c.may p = true) : c.lnk.sckRunning = true := by
  simp only [Chip.may, Bool.and_eq_true] at h
  obtain ⟨⟨sck, -⟩, -⟩ := h
  exact sck

section

variable {s : State}

/-- Behind an uncorrectable word the scan engine trips the device in place of the evaluation (R338). -/
theorem runMatrixEval_trips (on : (s.chip.cars[k.val]).on = true) (slot : s.chip.may (.close k.val) = true)
    (hr : s.chip.running = true) (early : s.chip.stage.place < 300) (fails : s.chip.scanFails s.chip.closeCycle = true) :
    runMatrixEval k s = s.act fun c => c.scanTo s.mem c.closeCycle := by
  unfold runMatrixEval
  rw [State.clock_of_running (sckRunning_of_may slot)]
  refine act_congr ?_
  simp [on, slot, hr, early, fails]

/-- In its slot of the Close phase the evaluation takes place unless the scan engine trips the device (R303, R338). -/
theorem runMatrixEval_due (on : (s.chip.cars[k.val]).on = true) (slot : s.chip.may (.close k.val) = true)
    (clean : s.chip.running = true → s.chip.stage.place < 300 → s.chip.scanFails s.chip.closeCycle = false) :
    runMatrixEval k s = s.act fun c => c.matrixEvaluated k := by
  have passes : ¬ (s.chip.running && decide (s.chip.stage.place < 300) && s.chip.scanFails s.chip.closeCycle) = true := by
    simpa using clean
  unfold runMatrixEval
  rw [State.clock_of_running (sckRunning_of_may slot)]
  refine act_congr ?_
  simp only [on, slot, Bool.not_true, Bool.or_self, Bool.false_eq_true, if_false, if_neg passes]
  rfl

end

/-! ### ENABLE_DECAY -/

/-- A pumped enable keeps its pad while SCK runs (R307). -/
theorem runEnableDecay_running {s : State} (which : BitVec 3) (sck : s.chip.lnk.sckRunning = true) :
    runEnableDecay k which s = s.act fun c => c.modIlk k fun i => { i with pad := i.pad &&& ~~~(which &&& ~~~i.pump) } :=
  act_congr (by simp [sck])

/-- Without SCK the pump stops, and the pads fall with it (R38). -/
theorem runEnableDecay_stopped {s : State} (which : BitVec 3) (sck : s.chip.lnk.sckRunning = false) :
    runEnableDecay k which s = s.act fun c => c.modIlk k fun i =>
      { i with pump := i.pump &&& ~~~which, pad := i.pad &&& ~~~which } := by
  have falls : ∀ pump : BitVec 3, which &&& ~~~(pump &&& ~~~which) = which := by
    revert which
    decide
  exact act_congr (by simp [sck, falls])

/-! ### The obligation -/

/-- Settles O50: the verdict by the terms of R303, R305 and R312, and the pump by the verdict. -/
theorem matricesAndEnables : Obligations.MatricesAndEnables := by
  refine ⟨fun s k on slot hr early fails => ?_, fun s k on slot clean => ?_, fun s k which => ⟨fun sck => ?_, fun sck => ?_⟩⟩
  · exact congrArg Host.Outcome.next (runMatrixEval_trips on slot hr early fails)
  · intro c x cw
    obtain ⟨axes, doors, dev, cars⟩ := matrixEvaluated_frame c k
    refine ⟨_, congrArg Host.Outcome.next (runMatrixEval_due on slot clean), rfl, rfl, axes, doors, dev, fun j hj => ?_, ?_⟩
    · exact (congrArg (·[j.val]) cars).trans (upd_other _ _ hj)
    · have at_ : (c.matrixEvaluated k).cars[k.val] = { x with ilk := x.ilk.evaluated (c.verdict k) (c.rise k) (c.fall k) } :=
        (congrArg (·[k.val]) cars).trans (upd_same ..)
      rw [State.act_chip, at_]
      simp only [evaluated_permit, evaluated_pump, evaluated_pad, evaluated_zgrant, evaluated_zlock, evaluated_zexit,
        true_and]
      refine ⟨?_, fun unset => ?_, fun window drv brk door zen h1 h2 h3 h4 h6 => ?_⟩
      · rw [verdict_zexit, Bool.or_eq_true, zoneExits_iff]
      · obtain ⟨none_, lock⟩ := verdict_unset unset
        exact ⟨none_, by rw [lock, Bool.or_eq_true, zoneExits_iff]⟩
      · have set : c.MatrixSet k window drv brk door zen := ⟨h1, h2, h3, h4, h6⟩
        refine ⟨?_, fun idle => ?_, fun t test runs => ⟨fun blocked => ?_, fun free => ?_⟩⟩
        · rw [verdict_zlock set, lockAfter_iff, zoneExits_iff]
          rfl
        · rw [evaluated_test_kept (verdict_noMain_idle set idle)]
          simp only [verdict_idle set idle, enableWord_drv, enableWord_brk, enableWord_door]
          refine ⟨?_, ?_, ?_, zoneAlone_iff, zoneAlone_iff, zoneAlone_iff, trivial⟩
          · rw [permitsDrv_iff, anyPath_iff]
            rfl
          · rw [permitsBrk_iff, anyPath_iff]
            rfl
          · rw [permitsDoor_iff, anyPath_iff]
            rfl
        · have blocked := testBlocked_iff.2 blocked
          refine ⟨?_, evaluated_test_ended ((verdict_noMain_test set test runs).trans blocked) test runs⟩
          rw [verdict_test set test runs]
          exact if_pos blocked
        · have free : c.testBlocked k t drv brk door = false := Bool.eq_false_of_not_eq_true fun h => free (testBlocked_iff.1 h)
          refine ⟨(evaluated_test_kept ((verdict_noMain_test set test runs).trans free)).trans test, ?_⟩
          simp only [verdict_test set test runs, free, Bool.false_eq_true, if_false, enableWord_drv, enableWord_brk, enableWord_door]
          exact tests_iff free
  · exact congrArg Host.Outcome.next (runEnableDecay_running which sck)
  · exact congrArg Host.Outcome.next (runEnableDecay_stopped which sck)

end Sys2Proof.Machine
end

section
/-! Illegal encodings (R57, R152, R156, R170, R172) and the selection of the stream area (R62, R195). -/

namespace Sys2Proof.Machine

/-! ### Threads -/

/-- An instruction that does not fit the slot ends it and does nothing else (R152). -/
theorem threadRun_short {t : ThreadId} {cycles : Nat} {s : State} (go : State → State) (h : SlotFits t 0 s)
    (short : (s.chip.threads[t.val]).slotLeft.toNat < cycles) :
    threadRun t cycles s go = { s with chip := s.chip.modThread t fun x => { x with slotLeft := 0 } } := by
  unfold threadRun
  rw [threadNow_fits _ h, if_pos short]

section

variable {t : ThreadId} {f : Enc} {cycles : Nat} {s : State} (h : SlotFits t 0 s)

include h

theorem threadPlain_short {illegal : Bool} {go : Thread → Thread} (short : (s.chip.threads[t.val]).slotLeft.toNat < cycles) :
    threadPlain t cycles illegal go s = { s with chip := s.chip.modThread t fun x => { x with slotLeft := 0 } } :=
  threadRun_short _ h short

theorem threadIssue_short {body : Body} (short : (s.chip.threads[t.val]).slotLeft.toNat < cycles) :
    threadIssue t f cycles body s = { s with chip := s.chip.modThread t fun x => { x with slotLeft := 0 } } :=
  threadRun_short _ h short

theorem threadLd_short (short : (s.chip.threads[t.val]).slotLeft.toNat < 2) :
    threadLd t f s = { s with chip := s.chip.modThread t fun x => { x with slotLeft := 0 } } :=
  threadRun_short _ h short

theorem threadSt_short (short : (s.chip.threads[t.val]).slotLeft.toNat < 2) :
    threadSt t f s = { s with chip := s.chip.modThread t fun x => { x with slotLeft := 0 } } :=
  threadRun_short _ h short

end

/-- A plain instruction whose encoding breaks R172 faults with ILLEGAL (R156). -/
theorem threadPlain_illegal {t : ThreadId} {cycles : Nat} {illegal : Bool} {s : State} (go : Thread → Thread)
    (h : SlotFits t cycles s) (bad : illegal = true) :
    threadPlain t cycles illegal go s = ranThread t cycles (fun x => x.fault 2) s := by
  subst bad
  unfold threadPlain
  rw [threadRun_fits _ h]
  rfl

/-! ### Packets -/

/-- A word is its opcode and its fields (R167). -/
theorem encWord_opOf (w : Word) : encWord (opOf w) (encOf w) = w := by
  unfold encWord opOf encOf slice
  rw [BitVec.extractLsb'_append_extractLsb'_eq_extractLsb' (start₂ := 26) (start₁ := 22) rfl,
    BitVec.extractLsb'_append_extractLsb'_eq_extractLsb' (start₂ := 22) (start₁ := 18) rfl,
    BitVec.extractLsb'_append_extractLsb'_eq_extractLsb' (start₂ := 18) (start₁ := 16) rfl,
    BitVec.extractLsb'_append_extractLsb'_eq_extractLsb' (start₂ := 16) (start₁ := 0) rfl]
  exact BitVec.extractLsb'_eq_self

/-- The opcodes that the host may not send: those that threads alone issue, and the reserved ones (R170, Table 8-10). -/
theorem runWord_unsendable {p : Packet} {w : Word} (s : State)
    (op : (opOf w).toNat < 0x10 ∨ (0x12 ≤ (opOf w).toNat ∧ (opOf w).toNat < 0x1C) ∨ (opOf w).toNat = 0x1E ∨ (opOf w).toNat = 0x1F ∨
      (opOf w).toNat = 0x2B ∨ (opOf w).toNat = 0x3F) :
    runWord (.host p) w s = runReserved (.host p) (opOf w) (encOf w) s := by
  have msb : w.msb = decide (32 ≤ (opOf w).toNat) := by
    simp only [opOf, slice, BitVec.msb_eq_decide, BitVec.extractLsb'_toNat, Nat.shiftRight_eq_div_pow]
    rw [decide_eq_decide]
    omega
  unfold runWord
  by_cases high : 32 ≤ (opOf w).toNat
  · have cases_ : (opOf w).toNat = 0x2B ∨ (opOf w).toNat = 0x3F := by omega
    rw [msb, decide_eq_true high, if_pos rfl]
    unfold runHigh
    rcases cases_ with h | h <;> simp only [h]
  · rw [msb, decide_eq_false high, if_neg Bool.false_ne_true]
    unfold runLow threadOnly
    split
    case h_14 h => omega
    case h_15 h => omega
    case h_22 h => omega
    case h_23 h => omega
    all_goals rfl

/-- A packet whose word the host may not send is refused with ILLEGAL after 8 cycles (R57, R110, R117, R170). -/
theorem hostIssue_illegal {p : Packet} {word : Word} {s : State}
    (first : s.chip.lnk.section_.head? = some (wirePacket p (s.chip.wireBody p word))) (host : s.chip.may .host = true)
    (runs : s.chip.dev.hostStopped = false) (gate : s.chip.gate p (s.chip.wireBody p word) = .evaluate)
    (fits : s.chip.dev.hostCycles.toNat + 8 ≤ 256) :
    hostIssue p (opOf word) (encOf word) 0 bodyIllegal s = refusedPacket p .illegal (begun (.host p) 8 s) s := by
  obtain ⟨rest, hs⟩ : ∃ rest, s.chip.lnk.section_ = wirePacket p (s.chip.wireBody p word) :: rest := by
    cases hx : s.chip.lnk.section_ with
    | nil => rw [hx] at first; cases first
    | cons a r => rw [hx] at first; exact ⟨r, by rw [Option.some.inj first]⟩
  have taken : (s.chip.modLnk fun l => { l with section_ := rest }) = found (.host p) 8 s := by
    simp [found, Chip.modLnk, hs]
  have evaluated : (found (.host p) 8 s).gate p (s.chip.wireBody p word) = .evaluate := gate
  have illegal : ∀ x, packetIllegal p (encOf word) (bodyIllegal x s.mem (found (.host p) 8 s)) = true :=
    fun x => Bool.or_true _
  have session : ((found (.host p) 8 s).rung 8).sessionOf p.sid = s.chip.sessionOf p.sid := rfl
  simp only [hostIssue, encWord_opOf, hs, host, ne_eq, not_true_eq_false, decide_false, Bool.not_true, Bool.or_self,
    Bool.false_eq_true, if_false, taken, evaluated, illegal, if_true]
  simp only [Chip.evaluate, rung_begun runs fits, reply, session, show Status.illegal.ok = false from rfl, Bool.false_eq_true,
    if_true, if_false, Bool.and_false, State.with, Mems.apply_nil, Chip.written_nil, refusedPacket]
  cases s.chip.sessionOf p.sid <;> rfl

/-! ### The selection of the stream area -/

/-- The low three bits that a row fixes leave the fields above them (R169). -/
theorem getLsbD_fixLow {f : Enc} {v : BitVec 16} (i : Nat) (low : v.toNat < 8) (high : 3 ≤ i) :
    (fixLow f 3 v).imm.getLsbD i = f.imm.getLsbD i := by
  have zero : v.getLsbD i = false :=
    Nat.testBit_lt_two_pow (lt_of_lt_of_le low (Nat.pow_le_pow_right (n := 2) (by decide) high))
  have place : 3 + (i - 3) = i := by omega
  by_cases inside : i < 16
  · simp only [fixLow, BitVec.getLsbD_or, BitVec.getLsbD_shiftLeft, BitVec.getLsbD_ushiftRight, zero, place, inside,
      Nat.not_lt.2 high, decide_true, decide_false, Bool.not_false, Bool.true_and, Bool.or_false]
  · rw [BitVec.getLsbD_of_ge _ _ (Nat.not_lt.1 inside), BitVec.getLsbD_of_ge _ _ (Nat.not_lt.1 inside)]

theorem immBits_fixLow {f : Enc} {v : BitVec 16} (k w : Nat) (low : v.toNat < 8) (high : 3 ≤ k) :
    immBits (fixLow f 3 v).imm k w = immBits f.imm k w := by
  apply BitVec.eq_of_getLsbD_eq
  intro i hi
  simp only [immBits, BitVec.getLsbD_extractLsb', getLsbD_fixLow (k + i) low (by omega)]

theorem clear_cons {b : Bool} {st : Status} {l : List (Bool × Status)} : Clear ((b, st) :: l) ↔ b = false ∧ Clear l :=
  List.forall_mem_cons

theorem clear_pair {a b : Bool} {x y : Status} : Clear [(a, x), (b, y)] ↔ a = false ∧ b = false := by
  simp [Clear]

/-- An accepted STREAM stores its selection for the next boundary (R195). -/
theorem issue_stream {p : Packet} {f : Enc} {s : State} {sel : StreamSel} {body : Body} {checks : List (Bool × Status)}
    (ready : Ready (.host p) 0x35 f 4 s) (fields : noFields f = false)
    (plan : body (ctxOf (.host p) f s) s.mem (found (.host p) 4 s) = streamPlan (ctxOf (.host p) f s) sel checks)
    (clear : Clear checks) :
    issue (.host p) 0x35 f 4 (hostOnly body) s =
      answered (.host p) (reply .done ((begun (.host p) 4 s).modLnk fun l =>
        { l with streamNext := some ((whoOf (.host p) s).sid, sel) })) s := by
  refine issue_plan ready rfl ?_ ?_ ?_ rfl
  · simp only [hostOnly, plan, streamPlan]
    exact (Bool.or_false _).trans fields
  · simpa only [hostOnly, plan, streamPlan] using clear
  · simp only [hostOnly, plan]
    rfl

/-! ### The obligations -/

/-- Settles O11: a fault ILLEGAL or an ended slot in a thread, and a refusal for a packet. -/
theorem illegalEncodingsAreAnswered : Obligations.IllegalEncodingsAreAnswered := by
  refine ⟨⟨fun t f s => ?_, fun t f s fits => ?_⟩, fun p word s ops first host runs gate room => ?_⟩
  · have bad : ∀ {cycles : Nat} {illegal : Bool} (go : Thread → Thread), SlotFits t cycles s → illegal = true →
        Host.Outcome.next (threadPlain t cycles illegal go s) =
          (.next (ranThread t cycles (fun x => x.fault 2) s) : Out) :=
      fun go fits illegal => congrArg _ (threadPlain_illegal go fits illegal)
    refine ⟨fun fits b => ?_, fun fits b => ?_, fun fits d => ?_, fun fits d => ?_, fun fits imm => ?_⟩
    · have sat : (operandBIllegal f || decide (f.a ≠ 0)) = true := by rw [b, Bool.true_or]
      have cmp : (operandBIllegal f || decide (f.d ≠ 0)) = true := by rw [b, Bool.true_or]
      exact ⟨bad _ fits b, bad _ fits b, bad _ fits b, bad _ fits b, bad _ fits b, bad _ fits b, bad _ fits b, bad _ fits b,
        bad _ fits sat, bad _ fits cmp⟩
    · have mul : (operandBIllegal f || false) = true := by rw [b, Bool.true_or]
      exact ⟨bad _ fits mul, bad _ fits mul⟩
    · have branch : branchIllegal f = true := by simp [branchIllegal, d]
      exact ⟨bad _ fits branch, bad _ fits branch⟩
    · exact bad _ fits (by simp [d])
    · exact bad _ fits (by simp [imm])
  · exact ⟨fun left => ⟨congrArg Host.Outcome.next (threadPlain_short fits left), congrArg Host.Outcome.next (threadLd_short fits left),
        congrArg Host.Outcome.next (threadSt_short fits left), congrArg Host.Outcome.next (threadPlain_short fits left),
        congrArg Host.Outcome.next (threadPlain_short fits left)⟩,
      fun left => ⟨congrArg Host.Outcome.next (threadIssue_short fits left), congrArg Host.Outcome.next (threadIssue_short fits left)⟩⟩
  · exact congrArg Host.Outcome.next ((runWord_unsendable s ops).trans (hostIssue_illegal first host runs gate room))

/-- Settles O28: each form of STREAM passes its checks and stores its selection. -/
theorem streamSelectionIsQueued : Obligations.StreamSelectionIsQueued := by
  intro p f s d a m
  have fields : ∀ v, noFields (fixLow f 3 v) = false := fun v => by simp [noFields, fixLow, d, a, m]
  have audit : (fixLow f 3 3).imm.getLsbD 8 = f.imm.getLsbD 8 := getLsbD_fixLow 8 (by decide) (by decide)
  have reserved : ∀ (w : Nat) (v : BitVec 16), v.toNat < 8 → immBits f.imm 3 w = 0 →
      decide (immBits (fixLow f 3 v).imm 3 w ≠ 0) = false := fun w v low zero => by simp [immBits_fixLow 3 w low le_rfl, zero]
  refine ⟨fun ready imm owns => congrArg _ (issue_stream ready (fields 0) rfl ?_), fun free =>
    ⟨fun ready imm right level secured => congrArg _ (issue_stream ready (fields 1) rfl ?_),
     fun ready imm right => congrArg _ (issue_stream ready (fields 2) rfl ?_),
     fun ready low high right area => congrArg _ (issue_stream ready (fields 3) (by rw [← audit]; rfl) ?_)⟩⟩
  · refine clear_pair.2 ⟨?_, reserved 13 0 (by decide) imm⟩
    rcases owns with ⟨live, owner⟩ | ⟨sel, next, some_⟩
    · have live : (found (.host p) 4 s).lnk.stream ≠ .none := live
      have owner : (found (.host p) 4 s).lnk.streamOwner = (ctxOf (.host p) (fixLow f 3 0) s).who.sid := owner
      simp [live, owner]
    · have next : (found (.host p) 4 s).lnk.streamNext = some ((ctxOf (.host p) (fixLow f 3 0) s).who.sid, sel) := next
      simp [next, some_]
  · have veil : (decide ((found (.host p) 4 s).whoLevel (whoOf (.host p) s) ≠ 0) || !(found (.host p) 4 s).whoSecured (whoOf (.host p) s))
        = false := by rw [level, secured]; rfl
    exact clear_cons.2 ⟨right, clear_cons.2 ⟨veil, clear_pair.2 ⟨reserved 13 1 (by decide) imm, free⟩⟩⟩
  · exact clear_cons.2 ⟨right, clear_pair.2 ⟨reserved 13 2 (by decide) imm, free⟩⟩
  · have stray : (decide (immBits (fixLow f 3 3).imm 3 5 ≠ 0) || decide (immBits (fixLow f 3 3).imm 9 7 ≠ 0)) = false := by
      rw [reserved 5 3 (by decide) low, immBits_fixLow 9 7 (by decide) (by decide), high]; rfl
    rw [← audit] at area
    have denied : ((found (.host p) 4 s).lacks (whoOf (.host p) s) 9 ||
        !(((found (.host p) 4 s).row (whoOf (.host p) s).seat)[4]).getLsbD (if (fixLow f 3 3).imm.getLsbD 8 then 3 else 4)) = false := by
      rw [right, area]; rfl
    exact clear_cons.2 ⟨denied, clear_pair.2 ⟨stray, free⟩⟩

end Sys2Proof.Machine
end

section
/-! Trips: from ADMIT and RUN with harmless outputs, and a later cause in TRIPPED (R67, R81, R82, Tables 4-5 and 4-6). -/

namespace Sys2Proof.Machine

/-! ### What a trip changes -/

/-- A trip returns the credits of ISLAND switch-ons and changes nothing else (R161). -/
theorem dropPowerCredits_eq (c : Chip) : ∃ credits,
    c.dropPowerCredits = { c with
      sec := { c.sec with credits := credits }, cars := vmap (fun _ x => { x with powerCredit := none }) c.cars } := by
  have released : ∀ (l : List Car) (c : Chip), ∃ credits,
      l.foldl (fun c x => c.release x.powerCredit) c = { c with sec := { c.sec with credits := credits } } := by
    intro l
    induction l with
    | nil => exact fun c => ⟨c.sec.credits, rfl⟩
    | cons x l ih =>
      intro c
      obtain ⟨credits, h⟩ := ih (c.release x.powerCredit)
      refine ⟨credits, h.trans ?_⟩
      cases x.powerCredit <;> rfl
  obtain ⟨credits, h⟩ := released c.cars.toList c
  exact ⟨credits, by rw [Chip.dropPowerCredits, h]⟩

theorem vmap_vmap {α β γ : Type} {n : Nat} (g : Fin n → β → γ) (f : Fin n → α → β) (v : Vector α n) :
    vmap g (vmap f v) = vmap (fun i x => g i (f i x)) v := by
  ext i hi
  simp [vmap]

/-- The device after a trip from ADMIT or RUN, but for what a trip leaves open: the credits and the input record (R81, R82). -/
def Chip.tripped (c : Chip) (cause : BitVec 5) (syndrome : Word) (cycle : BitVec 14) (credits : List Credit) (inputs : InputRecord) :
    Chip :=
  let still := ({ c with fbks := vmap (fun _ (x : Fbk) => x.holdRepeat (c.stamp cycle)) c.fbks } : Chip).harmless
  { still with
    inputs := inputs, sec := { c.sec with credits := credits },
    cars := vmap (fun _ x => { x with powerCredit := none }) still.cars,
    dev := { c.dev with
      state := .tripped, cause := cause, others := 0, syndrome := syndrome, tripAt := some (c.dev.tick, cycle),
      tripThisTick := true },
    journal := { c.journal with tripDue := cause ≠ 10 && cause ≠ 6 } }

theorem noted_eq (c : Chip) (b : Bool) (e : InputItem) : ∃ inputs, (if b then c.note e else c) = { c with inputs := inputs } := by
  cases b
  · exact ⟨c.inputs, rfl⟩
  · exact ⟨_, rfl⟩

theorem trip_eq_tripped {c : Chip} (cause : BitVec 5) (syndrome : Word) (cycle : BitVec 14)
    (acting : c.dev.state = .admitting ∨ c.dev.state = .run) :
    ∃ credits inputs, c.trip cause syndrome cycle = c.tripped cause syndrome cycle credits inputs := by
  obtain ⟨inputs, h⟩ := noted_eq c (cause = 2 || cause = 8 || cause = 10 || cause = 11) (.async cause syndrome)
  obtain ⟨credits, dropped⟩ := dropPowerCredits_eq ({ { c with inputs := inputs } with
    fbks := vmap (fun _ (x : Fbk) => x.holdRepeat (c.stamp cycle)) c.fbks } : Chip).harmless
  refine ⟨credits, inputs, ?_⟩
  unfold Chip.trip
  rw [h]
  rcases acting with state | state <;>
  · simp only [state]
    exact congrArg (fun d : Chip => (d.modDev _).modJournal _) dropped

/-- What the parts of a trip leave alone, a trip of any state leaves alone (R81, R82). -/
theorem trip_keeps {β : Type} (g : Chip → β) (h1 : ∀ c f, g (Chip.modDev c f) = g c) (h2 : ∀ c f, g (Chip.modJournal c f) = g c)
    (h3 : ∀ c e, g (Chip.note c e) = g c) (h4 : ∀ c, g (Chip.harmless c) = g c) (h5 : ∀ c, g (Chip.dropPowerCredits c) = g c)
    (h6 : ∀ (c : Chip) stamp, g { c with fbks := vmap (fun _ (x : Fbk) => x.holdRepeat stamp) c.fbks } = g c) (c : Chip)
    (cause : BitVec 5) (syndrome : Word) (cycle : BitVec 14) :
    g (c.trip cause syndrome cycle) = g c := by
  unfold Chip.trip
  extract_lets d
  have noted : g d = g c := by
    unfold d
    split
    · exact h3 ..
    · rfl
  clear_value d
  rw [← noted]
  split
  · rfl
  · split
    · rfl
    · exact h1 ..
  · exact (h2 ..).trans ((h1 ..).trans ((h5 _).trans ((h4 _).trans (h6 ..))))
  · exact (h2 ..).trans ((h1 ..).trans ((h5 _).trans ((h4 _).trans (h6 ..))))
  · split
    · rfl
    · split
      · exact (h2 ..).trans (h1 ..)
      · exact h1 ..

theorem dropPowerCredits_keeps {β : Type} (g : Chip → β) (h1 : ∀ c f, g (Chip.modSec c f) = g c)
    (h2 : ∀ (c : Chip) (v : Vector Car 12), g { c with cars := v } = g c) (c : Chip) : g c.dropPowerCredits = g c := by
  obtain ⟨credits, h⟩ := dropPowerCredits_eq c
  rw [h]
  exact (h2 (c.modSec fun x => { x with credits := credits }) _).trans (h1 ..)

/-- A trip leaves the link (R81). -/
@[simp] theorem trip_lnk (c : Chip) (cause : BitVec 5) (syndrome : Word) (cycle : BitVec 14) :
    (c.trip cause syndrome cycle).lnk = c.lnk :=
  trip_keeps Chip.lnk (fun _ _ => rfl) (fun _ _ => rfl) (fun _ _ => rfl) (fun _ => rfl)
    (dropPowerCredits_keeps _ (fun _ _ => rfl) fun _ _ => rfl) (fun _ _ => rfl) ..

/-- A trip from ADMIT or RUN (R81, R82, Table 4-5). -/
theorem trippedBy_trip {s : State} (cause : BitVec 5) (syndrome : Word) (cycle : BitVec 14)
    (acting : s.chip.dev.state = .admitting ∨ s.chip.dev.state = .run) :
    TrippedBy cause syndrome cycle s (s.act fun c => c.trip cause syndrome cycle) := by
  obtain ⟨credits, inputs, h⟩ := trip_eq_tripped cause syndrome cycle acting
  have stopped : (s.chip.tripped cause syndrome cycle credits inputs).running = false := rfl
  unfold TrippedBy
  simp only [State.act_chip, h]
  refine ⟨rfl, rfl, rfl, rfl, rfl, rfl, rfl, rfl, fun k => ?_, fun n => ?_, ?_, ?_, fun n at_ => ?_, rfl, rfl, rfl, rfl, ?_, rfl,
    rfl, rfl, rfl⟩
  · simp [Chip.tripped, Chip.harmless, Ilk.permitTo]
  · simp [Chip.tripped, Chip.harmless, Door.gatesLow]
  · rw [Chip.devOk, stopped]
  · rw [Chip.safePulse, stopped, Bool.false_and]
  · have test : (s.chip.tripped cause syndrome cycle credits inputs).testGate n at_ = none := by
      unfold Chip.testGate
      split
      · rfl
      · simp [stopped]
    rw [Chip.gateOutputs, test, Chip.gatesDriven, stopped]
    rfl
  · exact vmap_vmap (fun _ x => { x with ssiRead := none }) (fun _ x => x.holdRepeat (s.chip.stamp cycle)) s.chip.fbks

/-- A later cause in TRIPPED sets its bit of OTHERS; one that comes without SCK enters the input record as well (R82). -/
theorem trip_later {c : Chip} (cause : BitVec 5) (syndrome : Word) (cycle : BitVec 14)
    (sync : (decide (cause = 2) || decide (cause = 8) || decide (cause = 10) || decide (cause = 11)) = false)
    (tripped : c.dev.state = .tripped) (other : cause ≠ c.dev.cause) (moment : c.dev.tripAt ≠ some (c.dev.tick, cycle)) :
    c.trip cause syndrome cycle = c.modDev fun d => { d with others := d.others ||| othersBit cause } := by
  unfold Chip.trip
  simp only [sync, Bool.false_eq_true, if_false, tripped, other, moment, decide_false, Bool.false_and]

/-- A further cause of a tripped device, detected in another cycle than its trip, changes OTHERS at most (R82). -/
theorem trip_dev_later {c : Chip} (cause : BitVec 5) (syndrome : Word) {cycle : BitVec 14} (tripped : c.dev.state = .tripped)
    (moment : c.dev.tripAt ≠ some (c.dev.tick, cycle)) :
    ∃ others, (c.trip cause syndrome cycle).dev = { c.dev with others := others } := by
  obtain ⟨inputs, h⟩ := noted_eq c (cause = 2 || cause = 8 || cause = 10 || cause = 11) (.async cause syndrome)
  have result : c.trip cause syndrome cycle = if cause = c.dev.cause then { c with inputs := inputs }
      else ({ c with inputs := inputs } : Chip).modDev fun d => { d with others := d.others ||| othersBit cause } := by
    unfold Chip.trip
    simp only [h, tripped, moment, decide_false, Bool.false_and, Bool.false_eq_true, if_false]
  rw [result]
  split <;> exact ⟨_, rfl⟩

/-! ### The events -/

/-- The link is up in ADMIT and RUN while SCK runs. -/
theorem linkUp_of_acting {c : Chip} (acting : c.dev.state = .admitting ∨ c.dev.state = .run) (sck : c.lnk.sckRunning = true) :
    c.linkUp = true := by
  rcases acting with h | h <;> simp [Chip.linkUp, h, sck]

/-- The link once the gap detector has fired (R37). -/
def Lnk.gapped (l : Lnk) : Lnk := { l with gaps := satInc l.gaps, sckRunning := false }

theorem runSckGapTrip_due {s : State} {cycle : BitVec 14} {gapNs : BitVec 32}
    (acting : s.chip.dev.state = .admitting ∨ s.chip.dev.state = .run) (sck : s.chip.lnk.sckRunning = true)
    (long : 8000 ≤ gapNs.toNat) :
    runSckGapTrip cycle gapNs s = s.act fun c => (c.modLnk Lnk.gapped).trip 2 (cycle.setWidth 32) cycle := by
  refine act_congr ?_
  simp only [linkUp_of_acting acting sck, decide_eq_false (Nat.not_lt.2 long)]
  rfl

/-- Cluster, thread and cycle of a lock-step difference fill the syndrome (Table 4-6). -/
theorem lockstep_syndrome (cluster : BitVec 2) (thread : BitVec 6) (cycle : BitVec 14) :
    field cluster 30 ||| field thread 24 ||| field cycle 0 = cluster ++ thread ++ (0 : BitVec 10) ++ cycle := by
  have h1 : (cluster.toNat % 2 ^ 32) <<< 30 % 2 ^ 32 = cluster.toNat <<< 30 := by
    rw [Nat.shiftLeft_eq, Nat.shiftLeft_eq]; omega
  have h2 : (thread.toNat % 2 ^ 32) <<< 24 % 2 ^ 32 = thread.toNat <<< 24 := by
    rw [Nat.shiftLeft_eq, Nat.shiftLeft_eq]; omega
  have h3 : (cycle.toNat % 2 ^ 32) <<< 0 % 2 ^ 32 = cycle.toNat := by
    rw [Nat.shiftLeft_zero]; omega
  apply BitVec.eq_of_toNat_eq
  simp only [field, BitVec.toNat_or, BitVec.toNat_shiftLeft, BitVec.toNat_setWidth, BitVec.toNat_append, h1, h2, h3,
    show (0 : BitVec 10).toNat = 0 from rfl, Nat.or_zero, ← Nat.shiftLeft_add, Nat.shiftLeft_or_distrib]

/-- Settles O38: each event is one trip of a device that acts, and in TRIPPED a later cause sets its bit of OTHERS. -/
theorem tripEventsTrip : Obligations.TripEventsTrip := by
  intro s cycle
  refine fun sck => ⟨fun acting => ⟨fun dark => ?_, fun gapNs long => ?_, fun hot => ?_,
    fun rail mv cycles long => ⟨fun low inside => ?_, fun high => ?_⟩, fun cluster thread => ?_, fun ppm far => ?_⟩,
    fun cluster thread tripped cause moment => ?_⟩
  · refine ⟨_, congrArg Host.Outcome.next (act_congr ?_), trippedBy_trip _ _ _ acting⟩
    simp [linkUp_of_acting acting sck, dark]
  · refine ⟨_, congrArg Host.Outcome.next (runSckGapTrip_due acting sck long), ?_⟩
    have tripped : TrippedBy 2 (cycle.setWidth 32) cycle (s.act fun c => c.modLnk Lnk.gapped)
        ((s.act fun c => c.modLnk Lnk.gapped).act fun c => c.trip 2 (cycle.setWidth 32) cycle) := trippedBy_trip _ _ _ acting
    have silent : ((s.chip.modLnk Lnk.gapped).trip 2 (cycle.setWidth 32) cycle).lnk.sckRunning = false :=
      congrArg Lnk.sckRunning (trip_lnk ..)
    refine ⟨tripped, silent, fun n => ?_⟩
    unfold Chip.upLanes
    split
    · rfl
    · exact if_pos (by simp only [State.act_chip, silent, Bool.not_false, Bool.or_true, Bool.true_or])
  · exact ⟨_, congrArg Host.Outcome.next (clock_if_pos sck hot), trippedBy_trip _ _ _ acting⟩
  · refine ⟨_, congrArg Host.Outcome.next (State.clock_of_running sck _ |>.trans (act_congr ?_)), trippedBy_trip _ _ _ acting⟩
    simp [Nat.not_lt.2 inside, low, long]
  · refine ⟨_, congrArg Host.Outcome.next (State.clock_of_running sck _ |>.trans (act_congr ?_)), trippedBy_trip _ _ _ acting⟩
    simp [high, long]
  · exact ⟨_, congrArg Host.Outcome.next (State.clock_of_running sck _),
      lockstep_syndrome cluster thread cycle ▸ trippedBy_trip _ _ _ acting⟩
  · refine ⟨_, congrArg Host.Outcome.next (State.clock_of_running sck _ |>.trans (act_congr ?_)), trippedBy_trip _ _ _ acting⟩
    have none_ : ppm.toList.any (fun d => decide (d.toNat ≤ 1000)) = false :=
      List.any_eq_false.2 fun d hd => by simpa using far d hd
    rcases acting with h | h <;> simp only [h, none_] <;> rfl
  · refine congrArg Host.Outcome.next (State.clock_of_running sck _ |>.trans (act_congr ?_))
    exact trip_later 4 _ cycle rfl tripped (Ne.symm cause) moment

end Sys2Proof.Machine
end

section
/-! The up slot behind a change that is due (R67, R129). -/

namespace Sys2Proof.Machine

/-- A device in RUN with a silent listen window to come, whose oldest audited change is due at the boundary just passed. -/
def changePendingAtSlot : State :=
  State.reset.act fun c => { c with
    dev := { c.dev with state := .run }, sec := { c.sec with audits := [⟨.readmit, [], 0, true⟩] } }

/-- Refutes O41: UP_SLOT waits for a change that is due at the boundary, so with all samples 0 it sends nothing before the change has
taken effect; the statement asks only for the link, the fit and a first slot. -/
theorem not_slotIsSentOrDeferred : ¬ Obligations.SlotIsSentOrDeferred := by
  intro h
  obtain ⟨slots, -⟩ := h changePendingAtSlot
  obtain ⟨t, run, -, -, -, -, -, -, -, -, sent, -⟩ := slots 0 rfl rfl rfl rfl rfl
  have waits : exec (.upSlot 0) changePendingAtSlot = .next changePendingAtSlot := rfl
  obtain rfl : changePendingAtSlot = t := Host.Outcome.next.inj (waits.symm.trans run)
  obtain ⟨slot, -⟩ := sent rfl
  have none_ : changePendingAtSlot.chip.lnk.slot = none := rfl
  rw [none_] at slot
  cases slot

end Sys2Proof.Machine
end

section
/-! The monitors at cycle 0: temperature, supplies and timing slack (R87 to R89). -/

namespace Sys2Proof.Machine

/-! ### The lowest slack (R88) -/

/-- The first of the lowest values of a sequence up to a place. -/
def FirstLeast (g : Nat → BitVec 6) (k m : Nat) : Prop :=
  m < max k 1 ∧ (∀ j < k, (g m).toNat ≤ (g j).toNat) ∧ ∀ j < m, (g m).toNat < (g j).toNat

/-- Comparing each further value with the lowest so far finds the first of the lowest. -/
theorem leastFold (g : Nat → BitVec 6) (l : List (BitVec 6)) : ∀ k m, (∀ i (h : i < l.length), l[i] = g (k + i)) → FirstLeast g k m →
    ∃ n, FirstLeast g (k + l.length) n ∧
      (l.zipIdx k).foldl (fun m s => if s.1.toNat < m.1.toNat then (s.1, BitVec.ofNat 4 s.2) else m) (g m, BitVec.ofNat 4 m) =
        (g n, BitVec.ofNat 4 n) := by
  induction l with
  | nil => exact fun k m _ h => ⟨m, h, rfl⟩
  | cons a l ih =>
    intro k m hl ⟨inside, least, first⟩
    have ha : a = g k := hl 0 (by simp)
    have tail : ∀ i (h : i < l.length), l[i] = g (k + 1 + i) := fun i h => by
      have := hl (i + 1) (by simpa using h)
      rwa [List.getElem_cons_succ, show k + (i + 1) = k + 1 + i by omega] at this
    rw [List.zipIdx_cons, List.foldl_cons, List.length_cons, show k + (l.length + 1) = k + 1 + l.length by omega, ha]
    by_cases lower : (g k).toNat < (g m).toNat
    · rw [if_pos lower]
      refine ih (k + 1) k tail ⟨by omega, fun j hj => ?_, fun j hj => ?_⟩
      · rcases Nat.lt_succ_iff_lt_or_eq.1 hj with h | rfl
        · exact (lower.trans_le (least j h)).le
        · exact le_rfl
      · exact lower.trans_le (least j hj)
    · rw [if_neg lower]
      refine ih (k + 1) m tail ⟨by omega, fun j hj => ?_, first⟩
      rcases Nat.lt_succ_iff_lt_or_eq.1 hj with h | rfl
      · exact least j h
      · exact Nat.not_lt.1 lower

/-- A monitor whose slack no other is below and no earlier one reaches. -/
def LeastAt (v : Vector (BitVec 6) 16) (m : Fin 16) : Prop :=
  (∀ j : Fin 16, (v[m.val]).toNat ≤ (v[j.val]).toNat) ∧ ∀ j : Fin 16, j < m → (v[m.val]).toNat < (v[j.val]).toNat

theorem leastSlack_spec (v : Vector (BitVec 6) 16) :
    ∃ m : Fin 16, leastSlack v = (v[m.val], BitVec.ofNat 4 m.val) ∧ LeastAt v m := by
  have at_ : ∀ i (h : i < 16), v.toList.getD i 0 = v[i] := fun i h => by
    rw [List.getD_eq_getElem _ _ (by simpa using h), Vector.getElem_toList]
  obtain ⟨n, ⟨inside, least, first⟩, h⟩ := leastFold (fun i => v.toList.getD i 0) v.toList 0 0
    (fun i h => by rw [Nat.zero_add]; exact (List.getD_eq_getElem _ _ h).symm)
    ⟨by omega, fun j hj => absurd hj (Nat.not_lt_zero j), fun j hj => absurd hj (Nat.not_lt_zero j)⟩
  have length : 0 + v.toList.length = 16 := by simp
  rw [length] at inside least
  have inside : n < 16 := inside
  refine ⟨⟨n, inside⟩, ?_, fun j => ?_, fun j hj => ?_⟩
  · rw [at_ 0 (by decide), at_ n inside] at h
    exact h
  · simpa only [at_ n inside, at_ j.val j.isLt] using least j.val j.isLt
  · simpa only [at_ n inside, at_ j.val j.isLt] using first j.val hj

theorem LeastAt.unique {v : Vector (BitVec 6) 16} {m n : Fin 16} (hm : LeastAt v m) (hn : LeastAt v n) : m = n := by
  rcases lt_trichotomy m n with h | h | h
  · exact absurd (hn.2 m h) (Nat.not_lt.2 (hm.1 n))
  · exact h
  · exact absurd (hm.2 n h) (Nat.not_lt.2 (hn.1 m))

theorem leastSlack_eq {v : Vector (BitVec 6) 16} {m : Fin 16} (h : LeastAt v m) :
    leastSlack v = (v[m.val], BitVec.ofNat 4 m.val) := by
  obtain ⟨n, eq, hn⟩ := leastSlack_spec v
  rw [eq, hn.unique h]

/-- No slack of the tick is at the floor (R89). -/
def Calm (x : TickInputs) : Prop := ∀ m : Fin 16, 4 < (x.slack[m.val]).toNat

theorem Calm.least {x : TickInputs} (h : Calm x) : ¬ (leastSlack x.slack).1.toNat ≤ 4 := by
  obtain ⟨m, eq, -⟩ := leastSlack_spec x.slack
  rw [eq]
  exact Nat.not_le.2 (h m)

/-! ### Temperature (R87) -/

/-- The device with the sensor's value, its warning and its run at or above TRIP. -/
def Dev.warmed (d : Dev) (q : PwrCfg) (temp : BitVec 16) : Dev :=
  { d with
    tempPrev := d.temp, temp := temp, otWarn := decide (q.tempWarn.toInt ≤ temp.toInt),
    hotRun := if decide (q.tempTrip.toInt ≤ temp.toInt) then (if d.hotRun.toNat < 4 then d.hotRun + 1 else 4) else 0 }

/-- A record of the device's own changes the journal alone (R354). -/
theorem record_eq (c : Chip) (type : Byte) (car : Option CarId) (body : List Byte) :
    ∃ journal, c.record type car body = { c with journal := journal } := by
  unfold Chip.record
  split <;> exact ⟨_, rfl⟩

/-- Taking the temperature changes the device's block and the journal queue alone. -/
theorem tempBoundary_eq (c : Chip) (temp : BitVec 16) :
    ∃ journal, c.tempBoundary temp = { c with dev := c.dev.warmed c.pwr.act temp, journal := journal } := by
  unfold Chip.tempBoundary
  dsimp only
  split
  · obtain ⟨journal, h⟩ := record_eq (c.modDev fun d => d.warmed c.pwr.act temp) 132 none (bytesBE temp 2)
    exact ⟨journal, h⟩
  · exact ⟨c.journal, rfl⟩

/-! ### Supplies and slack (R88, R89) -/

/-- The device once the supplies and the slack of the tick have been latched. -/
def Chip.powered (c : Chip) (x : TickInputs) : Chip :=
  c.modPwr fun p =>
    let least := leastSlack x.slack
    let p := { p with
      act := p.cfg, worst := least.1, railMv := x.railMv, due := decide (c.dev.tick.toNat % 1024 = 0),
      vid := if c.running then p.vid else p.cfg.vboot, islandHold := false }
    if least.1.toNat < p.least.toNat then { p with least := least.1, leastMon := least.2 } else p

theorem powered_railMv (c : Chip) (x : TickInputs) : (c.powered x).pwr.railMv = x.railMv := by
  unfold Chip.powered Chip.modPwr
  dsimp only
  split <;> rfl

theorem powerBoundary_calm {c : Chip} {x : TickInputs} (calm : ¬ (leastSlack x.slack).1.toNat ≤ 4) :
    c.powerBoundary x = (c.powered x).tempBoundary x.temp := if_neg calm

theorem powerBoundary_floor {c : Chip} {x : TickInputs} (floor : (leastSlack x.slack).1.toNat ≤ 4) :
    c.powerBoundary x = ((c.powered x).tempBoundary x.temp).trip 12
      (field ((c.powered x).tempBoundary x.temp).pwr.vid 4 ||| field (leastSlack x.slack).2 0) 0 := if_pos floor

theorem powered_act (c : Chip) (x : TickInputs) : (c.powered x).pwr.act = c.pwr.cfg := by
  unfold Chip.powered Chip.modPwr
  dsimp only
  split <;> rfl

/-- The monitors of a device that tripped before this cycle keep its cause and syndrome (R82, R89). -/
theorem powerBoundary_tripped {c : Chip} (x : TickInputs) (tripped : c.dev.state = .tripped)
    (moment : c.dev.tripAt ≠ some (c.dev.tick, 0)) :
    ∃ others, (c.powerBoundary x).dev = { c.dev.warmed c.pwr.cfg x.temp with others := others } := by
  obtain ⟨journal, h⟩ := tempBoundary_eq (c.powered x) x.temp
  rw [powered_act] at h
  by_cases floor : (leastSlack x.slack).1.toNat ≤ 4
  · rw [powerBoundary_floor floor, h]
    exact trip_dev_later _ _ tripped moment
  · rw [powerBoundary_calm floor, h]
    exact ⟨c.dev.others, rfl⟩

end Sys2Proof.Machine
end

section
/-! Events of the link: SCK's return, equalisation trials, the end of HUNT and a received frame (R53, R66, R68 to R70, R75). -/

namespace Sys2Proof.Machine

/-! ### Equalisation (R66) -/

section

variable {s : State} {lane : EqLane} {up : Bool} {before after : BitVec 16} (link : s.chip.linkUp = true)
  (free : s.chip.lnk.adaptHold = false)

include link free

/-- Without a trial in progress one begins, at the earliest 256 ticks after the one before. -/
theorem runEqTrial_begins (idle : s.chip.lnk.eqTrial = none)
    (late : ∀ t, s.chip.lnk.lastTrial = some t → 256 ≤ (s.chip.dev.tick - t).toNat) :
    runEqTrial lane up before after s = s.act fun c => c.eqTry lane up before := by
  refine act_congr ?_
  simp only [link, free, idle, Bool.not_true, Bool.or_self, Bool.false_eq_true, if_false]
  split
  · rfl
  · next t last => exact if_neg (by simpa only [decide_eq_true_eq, Nat.not_lt] using late t last)

theorem runEqTrial_waits {x : EqTrial} (trial : s.chip.lnk.eqTrial = some x) (early : (s.chip.dev.tick - x.start).toNat < 256) :
    runEqTrial lane up before after s = s := by
  refine (act_congr ?_ : _ = s.act fun c => c)
  simp only [link, free, trial, early, Bool.not_true, Bool.or_self, Bool.false_eq_true, if_false, if_true]

theorem runEqTrial_decides {x : EqTrial} (trial : s.chip.lnk.eqTrial = some x) (ended : 256 ≤ (s.chip.dev.tick - x.start).toNat) :
    runEqTrial lane up before after s = s.act fun c => c.modLnk fun l => l.eqDecide x after := by
  refine act_congr ?_
  simp only [link, free, trial, Nat.not_lt.2 ended, Bool.not_true, Bool.or_self, Bool.false_eq_true, if_false]

end

/-! ### A received frame (R54, R55, R65 to R69) -/

theorem dune_eq (l : Lnk) (h : Header) : ∃ txOfs lastErr edge since,
    l.dune h = { l with txOfs := txOfs, lastErr := lastErr, duneEdge := edge, sinceChange := since } := by
  unfold Lnk.dune
  split
  · exact ⟨_, _, _, _, rfl⟩
  · dsimp only
    split <;> exact ⟨_, _, _, _, rfl⟩

theorem placement_eq (c : Chip) (h : Header) : ∃ rx0 rx1 edge free,
    c.placement h = { c with lnk := { c.lnk with rx0 := rx0, rx1 := rx1, rxEdge := edge }, free := free } := by
  unfold Chip.placement
  split <;> exact ⟨_, _, _, _, rfl⟩

/-- The link of a device that has received a frame which is not dark. -/
def Lnk.ReceivedGood (l m : Lnk) (fr : DownFrame) : Prop :=
  m.frameIn = true ∧ m.section_ = l.section_ ∧ m.darkRun = 0 ∧ m.darkIn = false ∧ m.nextWall = some fr.header.wall ∧
    m.received = (if sectionGood l fr then fr.packets else []) ∧ m.sectBad = !sectionGood l fr

theorem section_receives (l : Lnk) (fr : DownFrame) (frame : l.frameIn = true) (run : l.darkRun = 0) (good : l.darkIn = false)
    (wall : l.nextWall = some fr.header.wall) : l.ReceivedGood (l.section fr) fr := by
  unfold Lnk.section Lnk.ReceivedGood
  cases h : sectionGood l fr <;> exact ⟨frame, rfl, run, good, wall, rfl, rfl⟩

theorem sameMachine_of_link {s : State} {f : Chip → Chip} {lnk : Lnk} {free : Nat}
    (h : f s.chip = { s.chip with lnk := lnk, free := free }) : SameMachine s (s.act f) := by
  unfold SameMachine
  rw [State.act_chip, h]
  exact ⟨rfl, rfl, rfl, rfl, rfl, rfl, rfl⟩

/-- A frame that is not dark changes the link and the draw of free values alone. -/
theorem goodFrame_eq (c : Chip) (fr : DownFrame) :
    ∃ lnk free, c.goodFrame fr = { c with lnk := lnk, free := free } ∧ c.lnk.ReceivedGood lnk fr := by
  unfold Chip.goodFrame
  extract_lets skip c1
  obtain ⟨txOfs, lastErr, edge, since, dune⟩ := dune_eq c1.lnk fr.header
  have moved : c1.modLnk (fun l => l.dune fr.header) = { c1 with lnk := c1.lnk.dune fr.header } := rfl
  rw [moved, dune]
  obtain ⟨rx0, rx1, edge', free, placed⟩ := placement_eq _ fr.header
  rw [placed]
  exact ⟨_, _, rfl, section_receives _ fr rfl rfl rfl rfl⟩

/-- A dark frame is counted, and nothing of it is used (R68). -/
theorem darkFrame_eq (c : Chip) (syncGood : Bool) :
    ∃ lnk free, c.darkFrame syncGood = { c with lnk := lnk, free := free } ∧ lnk.frameIn = true ∧ lnk.darkIn = true ∧
      lnk.received = [] ∧ lnk.nextWall = none ∧ lnk.section_ = c.lnk.section_ ∧ lnk.txOfs = c.lnk.txOfs ∧ lnk.rx0 = c.lnk.rx0 ∧
      (c.lnk.darkRun ≠ 31 → lnk.darkRun = c.lnk.darkRun + 1) := by
  unfold Chip.darkFrame
  dsimp only
  split
  · next full => exact ⟨_, _, rfl, rfl, rfl, rfl, rfl, rfl, rfl, rfl, fun h => absurd (by simpa using full) h⟩
  · next room => exact ⟨_, _, rfl, rfl, rfl, rfl, rfl, rfl, rfl, rfl, fun _ => rfl⟩

theorem runDownFrame_due {s : State} (fr : DownFrame) (link : s.chip.linkUp = true) (first : s.chip.lnk.frameIn = false) :
    runDownFrame fr s = s.act fun c =>
      if decide (popCount (fr.header.sync ^^^ downSync) ≤ 2) && headerGood fr.header then c.goodFrame fr
      else c.darkFrame (decide (popCount (fr.header.sync ^^^ downSync) ≤ 2)) := by
  refine act_congr ?_
  simp only [link, first, Bool.not_true, Bool.or_self, Bool.false_eq_true, if_false]

/-! ### The end of HUNT (R53, R75) -/

/-- The device at the third SYNC, before a pending trip and the monitors (R53, R75). -/
def Chip.locked (c : Chip) (x : HuntLock) : Chip :=
  { c with
    dev := { c.dev with
      state := .admitting, tick := 0, cause := 0, others := 0, syndrome := 0, digest := 0, phase := 1, steps := 0, stepStart := 0,
      stepRun := false, rerun := false, stepHold := false, wallSeen := none, pendingTrips := [], tripThisTick := false,
      hostCycles := 0, hostStopped := false },
    lnk := { c.lnk with
      ticklen := x.spacing1, rx0 := x.rx0, rx1 := x.rx1, home0 := x.rx0, home1 := x.rx1, eqSck := clampEq c.lnk x.eqSck,
      eqDn1 := clampEq c.lnk x.eqDn1, eqDn0 := clampEq c.lnk x.eqDn0, txOfs := 0, sinceChange := 255,
      frameNo := x.h2.frameNo, darkIn := false, sectBad := false, frameSkipped := false, deferred := false,
      frameIn := false },
    sine := Vector.replicate 4 sineDefault, stage := .host, inputs := ⟨some x.inputs, []⟩, ramLog := [], turn := (0, 0),
    scan := { c.scan with scrub := vmap (fun _ b => { b with corr := 0, next := 0 }) c.scan.scrub } }

/-- The status block and the fit rule of the first ADMIT tick (R61, R64). -/
def Chip.greeted (c : Chip) : Chip := c.modLnk fun l =>
  let top := if l.act.drops.getLsbD 3 then 4 else if l.act.drops.getLsbD 2 then 3 else if l.act.drops.getLsbD 1 then 2 else 1
  { l with
    status := c.statusBlock 0 &&& ~~~((1 : BitVec 128) <<< 117),
    noFit := !(l.act.drops.getLsbD l.drop.toNat && decide (top * (l.act.slotLen.toNat + l.act.wadi.toNat) ≤ l.ticklen.toNat)) }

theorem runHuntSyncLock_free {s : State} {x : HuntLock} (hunt : s.chip.dev.state = .hunt) (good : huntConsistent x = true)
    (none_ : s.chip.dev.pendingTrips = []) :
    runHuntSyncLock x s = s.act fun c => ((c.locked x).powerBoundary x.inputs).greeted := by
  refine act_congr ?_
  simp only [hunt, good, none_, ne_eq, not_true_eq_false, decide_false, Bool.not_true, Bool.or_self, Bool.false_eq_true, if_false]
  rfl

theorem runHuntSyncLock_pending {s : State} {x : HuntLock} {p : BitVec 5 × Word} {later : List (BitVec 5 × Word)}
    (hunt : s.chip.dev.state = .hunt) (good : huntConsistent x = true) (pending : s.chip.dev.pendingTrips = p :: later) :
    runHuntSyncLock x s = s.act fun c =>
      ((((c.locked x).trip p.1 p.2 0).modDev fun d => { d with tripAt := none }).powerBoundary x.inputs).greeted := by
  refine act_congr ?_
  simp only [hunt, good, pending, ne_eq, not_true_eq_false, decide_false, Bool.not_true, Bool.or_self, Bool.false_eq_true, if_false]
  rfl

/-! ### The obligation -/

/-- Settles O40: SCK's return at once, a trial by its three cases, the end of HUNT with and without a pending trip, and a frame by what is
good of it. -/
theorem linkEventsTakeEffect : Obligations.LinkEventsTakeEffect := by
  intro s
  refine ⟨rfl, fun lane up before after link free => ⟨fun idle late => ⟨fun atBound => ?_, fun inside => ?_⟩, fun x trial =>
      ⟨fun early => ?_, fun ended eye => ?_, fun ended eye => ?_⟩⟩, fun x hunt good none_ calm => ?_,
    fun x p later hunt good pending => ?_, fun fr link first => ?_⟩
  · refine congrArg Host.Outcome.next ((runEqTrial_begins link free idle late).trans (act_congr ?_))
    simp only [Chip.eqTry, if_pos atBound]
  · refine congrArg Host.Outcome.next ((runEqTrial_begins link free idle late).trans (act_congr ?_))
    simp only [Chip.eqTry, if_neg inside]
    cases lane <;> rfl
  · exact congrArg Host.Outcome.next (runEqTrial_waits link free trial early)
  · refine congrArg Host.Outcome.next ((runEqTrial_decides link free trial ended).trans (act_congr ?_))
    simp only [Lnk.eqDecide, if_pos eye]
  · refine congrArg Host.Outcome.next ((runEqTrial_decides link free trial ended).trans (act_congr ?_))
    simp only [Lnk.eqDecide, if_neg (Nat.not_le.2 eye)]
  · have calm : Calm x.inputs := fun m => calm _ (by simp)
    refine ⟨_, congrArg Host.Outcome.next (runHuntSyncLock_free hunt good none_), rfl, rfl, ?_⟩
    obtain ⟨journal, h⟩ := tempBoundary_eq ((s.chip.locked x).powered x.inputs) x.inputs.temp
    have rails : ((s.chip.locked x).powered x.inputs).pwr.railMv = x.inputs.railMv := powered_railMv ..
    rw [State.act_chip, powerBoundary_calm calm.least, h]
    exact ⟨rfl, rfl, rfl, rails, rfl, rfl, rfl, rfl, rfl, rfl⟩
  · refine ⟨_, congrArg Host.Outcome.next (runHuntSyncLock_pending hunt good pending), rfl, rfl, ?_⟩
    obtain ⟨credits, inputs, h⟩ := trip_eq_tripped p.1 p.2 0 (.inl rfl : (s.chip.locked x).dev.state = .admitting ∨ _)
    rw [State.act_chip, h]
    obtain ⟨others, dev⟩ := powerBoundary_tripped (c := ((s.chip.locked x).tripped p.1 p.2 0 credits inputs).modDev
      fun d => { d with tripAt := none }) x.inputs rfl (by simp [Chip.modDev])
    exact ⟨congrArg Dev.state dev, congrArg Dev.cause dev, congrArg Dev.syndrome dev, congrArg Dev.tick dev⟩
  · by_cases good : (decide (popCount (fr.header.sync ^^^ downSync) ≤ 2) && headerGood fr.header) = true
    · obtain ⟨lnk, free, h, frame, section_, run, dark, wall, received, bad⟩ := goodFrame_eq s.chip fr
      have taken := (runDownFrame_due fr link first).trans (act_congr (g := fun c => c.goodFrame fr) (if_pos good))
      refine ⟨_, congrArg Host.Outcome.next taken, ?_⟩
      rw [State.act_chip, h]
      exact ⟨sameMachine_of_link h, rfl, rfl, frame, section_, fun _ => ⟨run, dark, wall, received, bad⟩,
        fun bad => absurd (bad.symm.trans good) Bool.false_ne_true⟩
    · obtain ⟨lnk, free, h, frame, dark, received, wall, section_, offset, sampling, run⟩ :=
        darkFrame_eq s.chip (decide (popCount (fr.header.sync ^^^ downSync) ≤ 2))
      have taken := (runDownFrame_due fr link first).trans (act_congr (g := fun c => c.darkFrame _) (if_neg good))
      refine ⟨_, congrArg Host.Outcome.next taken, ?_⟩
      rw [State.act_chip, h]
      exact ⟨sameMachine_of_link h, rfl, rfl, frame, section_, fun h => absurd h good,
        fun _ => ⟨dark, received, wall, run, offset, sampling⟩⟩

end Sys2Proof.Machine
end

section
/-! The tick boundary of a door, in its stages (R272 to R275, R282, R285, R291). -/

namespace Sys2Proof.Machine

/-! ### What the decoding of a door's lines leaves -/

/-- Settings, state, standing fault and zero codes of a door. -/
structure Posture where
  cfg : DoorCfg
  act : DoorCfg
  st : DoorState
  faultActive : Bool
  faultCause : Byte
  faultAt : Option Nat
  zeroU : BitVec 12
  zeroV : BitVec 12

def Door.posture (x : Door) : Posture := ⟨x.cfg, x.act, x.st, x.faultActive, x.faultCause, x.faultAt, x.zeroU, x.zeroV⟩

theorem hallStep_posture (x : Door) (code : BitVec 3) (up : Bool) (bound : Int) (stamp : Nat) :
    (x.hallStep code up bound stamp).posture = x.posture := by
  unfold Door.hallStep
  dsimp only
  split <;> rfl

theorem checkHall_posture (x : Door) (code : BitVec 3) (stamp : Nat) : (x.checkHall code stamp).posture = x.posture := by
  unfold Door.checkHall
  split
  · rfl
  · split
    · rfl
    · split
      · rfl
      · dsimp only
        split
        · exact hallStep_posture ..
        · split
          · exact hallStep_posture ..
          · rfl
      · rfl

theorem takeEdges_posture (x : Door) (before : Nat) : (x.takeEdges before).posture = x.posture := by
  have fold (l : List (Nat × BitVec 3)) (y : Door) : (l.foldl (fun x e => x.checkHall e.2 e.1) y).posture = y.posture := by
    induction l generalizing y with
    | nil => rfl
    | cons e l ih => exact (ih _).trans (checkHall_posture ..)
  exact fold _ _

theorem settle_posture (x : Door) (l : Nat) : (x.settle l).posture = x.posture := by
  unfold Door.settle
  split
  · dsimp only
    split
    · exact takeEdges_posture x l
    · exact (checkHall_posture ..).trans (takeEdges_posture x l)
  · rfl

theorem latch_posture (x : Door) (l ticklen : Nat) : (x.latch l ticklen).posture = x.posture := by
  unfold Door.latch
  dsimp only
  split <;> rfl

/-! ### The stages -/

/-- A door with its stored settings and a request to clear its fault in force (R272, R285). -/
def Door.configured (x : Door) : Door :=
  let other := x.cfg.type ≠ x.act.type
  let idle := !x.inUse || x.cfg.type = .none
  let x := { x with act := x.cfg, legs := x.legsNext }
  let x : Door := if other then x.seat else x
  let x : Door := if x.clearing && x.st = .fault then { x with st := .stopped, clearing := false, faultActive := false, commAt := none }
    else { x with clearing := false }
  let x := if idle && x.st ≠ .fault then { x with st := .stopped } else x
  if x.act.type = .none then x.gatesLow else if x.act.type = .bdc then x.thirdLow else x

/-- The device once the settings of a door are in force. -/
def Chip.doorOpened (c : Chip) (d : DoorId) : Chip := (c.note (.hall d (c.doors[d.val]).hallRaw)).modDoor d Door.configured

/-- The device once the place of a door is latched. -/
def Chip.doorPlaced (c : Chip) (d : DoorId) : Chip :=
  let c1 := c.doorOpened d
  let lost := (c.doors[d.val]).losesHome
  let cleared := (c.doors[d.val]).clearing && (c.doors[d.val]).st = .fault
  (if lost || cleared then c1.modAxis (doorAxis d) fun a => { a with homed := false } else c1).modDoor d fun x =>
    (x.settle (c.stamp 0)).latch (c.stamp 0) c.lnk.ticklen.toNat

/-- The device once the currents of a door are latched and its counts stand. -/
def Chip.doorMeasured (c : Chip) (d : DoorId) (cur : BitVec 12 × BitVec 12) : Chip :=
  let c2 := c.doorPlaced d
  let theta := ((c.doorOpened d).doors[d.val]).sampledAngle (c.sampleStamp d (c.stamp 0))
  let x := c2.doors[d.val]
  (c2.modDoor d fun y => { y with iq := y.torque (inputCurrent x cur.1 x.zeroU) (inputCurrent x cur.2 x.zeroV) theta }).doorCounts d

/-- A current of the door lies above the bound of R275. -/
def Chip.currentHigh (c : Chip) (d : DoorId) (cur : BitVec 12 × BitVec 12) : Bool :=
  let x := c.doors[d.val]
  c.overCurrent d (inputCurrent x cur.1 x.zeroU) || (x.act.type ≠ .bdc && c.overCurrent d (inputCurrent x cur.2 x.zeroV))

section

variable (c : Chip) (d : DoorId) (cur : BitVec 12 × BitVec 12)

@[simp] theorem doorOpened_doors : (c.doorOpened d).doors = upd c.doors d Door.configured := rfl

theorem doorPlaced_doors : (c.doorPlaced d).doors =
    upd c.doors d fun x => (x.configured.settle (c.stamp 0)).latch (c.stamp 0) c.lnk.ticklen.toNat := by
  unfold Chip.doorPlaced
  dsimp only
  split <;> simp [upd]

/-- The door that the boundary has measured stands as its configuration left it. -/
theorem doorMeasured_posture : ((c.doorMeasured d cur).doors[d.val]).posture = (c.doors[d.val]).configured.posture := by
  have counted : ((c.doorMeasured d cur).doors[d.val]).posture = ((c.doorPlaced d).doors[d.val]).posture := by
    unfold Chip.doorMeasured Chip.doorCounts
    dsimp only
    simp only [Chip.modDoor_doors, upd_same]
    rfl
  rw [counted, doorPlaced_doors, upd_same, latch_posture, settle_posture]

theorem doorMeasured_other {e : DoorId} (h : e ≠ d) : (c.doorMeasured d cur).doors[e.val] = c.doors[e.val] := by
  unfold Chip.doorMeasured Chip.doorCounts
  dsimp only
  simp only [Chip.modDoor_doors, upd_other _ _ h, doorPlaced_doors]

/-- The boundary of a door: a current above its bound is a fault of a device in RUN (R275). -/
theorem doorBoundary_eq : c.doorBoundary d cur =
    if ((c.doorMeasured d cur).doors[d.val]).act.type ≠ .none ∧ (c.doorMeasured d cur).currentHigh d cur = true ∧
        (c.doorMeasured d cur).running = true then
      (c.doorMeasured d cur).doorFault d 2 (c.stamp 0)
    else c.doorMeasured d cur := by
  have measured : ((c.doorMeasured d cur).doors[d.val]).posture = ((c.doorPlaced d).doors[d.val]).posture := by
    rw [doorMeasured_posture, doorPlaced_doors, upd_same, latch_posture, settle_posture]
  have act := congrArg Posture.act measured
  have zeroU := congrArg Posture.zeroU measured
  have zeroV := congrArg Posture.zeroV measured
  simp only [Door.posture] at act zeroU zeroV
  simp only [Chip.currentHigh, inputCurrent, act, zeroU, zeroV]
  have shape : c.doorBoundary d cur =
      if decide (((c.doorPlaced d).doors[d.val]).act.type ≠ .none) &&
          ((c.doorMeasured d cur).overCurrent d (inputCurrent ((c.doorPlaced d).doors[d.val]) cur.1 ((c.doorPlaced d).doors[d.val]).zeroU) ||
            (decide (((c.doorPlaced d).doors[d.val]).act.type ≠ .bdc) &&
              (c.doorMeasured d cur).overCurrent d
                (inputCurrent ((c.doorPlaced d).doors[d.val]) cur.2 ((c.doorPlaced d).doors[d.val]).zeroV))) &&
          (c.doorMeasured d cur).running then
        (c.doorMeasured d cur).doorFault d 2 (c.stamp 0)
      else c.doorMeasured d cur := rfl
  rw [shape]
  simp only [inputCurrent, Bool.and_eq_true, decide_eq_true_eq, and_assoc]

end

/-! ### What the configuration leaves of a standing fault -/

section

variable (x : Door)

theorem configured_settings : x.configured.cfg = x.cfg ∧ x.configured.act = x.cfg ∧ x.configured.zeroU = x.zeroU ∧
    x.configured.zeroV = x.zeroV := by
  refine ⟨?_, ?_, ?_, ?_⟩ <;>
    simp only [Door.configured, Door.seat, Door.gatesLow, Door.thirdLow, apply_ite Door.cfg, apply_ite Door.act, apply_ite Door.zeroU,
      apply_ite Door.zeroV, ite_self]

/-- A door that is not in FAULT is in none when its settings act. -/
theorem configured_st (runs : x.st ≠ .fault) : x.configured.st ≠ .fault := by
  simp [Door.configured, Door.seat, Door.gatesLow, Door.thirdLow, apply_ite Door.st, runs]
  split
  · simp
  · exact runs

/-- A door in FAULT keeps the fault as it stands, or has it cleared at request (R291). -/
theorem configured_fault (stands : x.st = .fault) :
    x.configured.st ≠ .fault ∨ (x.configured.st = .fault ∧ x.configured.faultActive = x.faultActive ∧
      x.configured.faultCause = x.faultCause ∧ x.configured.faultAt = x.faultAt) := by
  by_cases clearing : x.clearing = true
  · left
    simp [Door.configured, Door.seat, Door.gatesLow, Door.thirdLow, apply_ite Door.st, apply_ite Door.clearing, stands, clearing]
  · right
    simp [Door.configured, Door.seat, Door.gatesLow, Door.thirdLow, apply_ite Door.st, apply_ite Door.clearing,
      apply_ite Door.faultActive, apply_ite Door.faultCause, apply_ite Door.faultAt, stands, clearing]

end

end Sys2Proof.Machine
end

section
/-! What the part of a tick boundary that belongs to one car writes: that car's own channels, the events of the threads, and the
journal, the input record and the free values, which all cars share (R26). -/

namespace Sys2Proof.Machine

/-! ### Ownership -/

@[simp] theorem carOfDoor_frontDoor (k : CarId) : carOfDoor (frontDoor k) = k := by simp [carOfDoor, frontDoor]
@[simp] theorem carOfDoor_rearDoor (k : CarId) : carOfDoor (rearDoor k) = k :=
  Fin.ext (by simp only [carOfDoor, rearDoor]; omega)
@[simp] theorem carOfAxis_carAxis (k : CarId) : carOfAxis (carAxis k) = k := by simp [carOfAxis, carAxis]
@[simp] theorem carOfAxis_doorAxis (d : DoorId) : carOfAxis (doorAxis d) = carOfDoor d := by simp [carOfAxis, doorAxis, carOfDoor]
@[simp] theorem carOfLoop_doorLoop (d : DoorId) (n : Fin 3) : carOfLoop (doorLoop d n) = carOfDoor d := by
  have low : (doorLoop d n).val < 72 := by simp only [doorLoop]; omega
  rw [carOfLoop, dif_pos low]
  exact Fin.ext (by simp only [doorLoop, carOfDoor]; omega)
@[simp] theorem carOfFe_carFe (k : CarId) (i : Fin 4) : carOfFe (carFe k i) = k :=
  Fin.ext (by simp only [carOfFe, carFe]; omega)
@[simp] theorem carOfTap_carTap (k : CarId) (i : Fin 8) : carOfTap (carTap k i) = k :=
  Fin.ext (by simp only [carOfTap, carTap]; omega)
@[simp] theorem carOfThread_carThread (k : CarId) : carOfThread (carThread k) = some k := by simp [carOfThread, carThread]
@[simp] theorem carOfThread_doorThread (d : DoorId) : carOfThread (doorThread d) = some (carOfDoor d) := by
  have low : 12 + d.val < 36 := by omega
  simp [carOfThread, doorThread, carOfDoor, low]

/-! ### The latch of a switch code -/

/-- The latch of a switch code leaves the settings of its interface (R228). -/
theorem switchLatch_settings (f : Fbk) (tick : BitVec 48) (stamp : Nat) (raw : BitVec 3) (pos : Word) :
    (f.switchLatch tick stamp raw pos).cfg = f.cfg ∧ (f.switchLatch tick stamp raw pos).act = f.act := by
  unfold Fbk.switchLatch
  extract_lets dz run t0 latched
  split
  · exact ⟨rfl, rfl⟩
  · split
    · exact ⟨rfl, rfl⟩
    · split <;> exact ⟨rfl, rfl⟩

/-! ### Loops and front ends -/

/-- At the boundary the stored settings of a loop act (R242). -/
theorem loopBoundary_settings (x : Loop) (off low : Bool) : (x.boundary off low).cfg = x.cfg ∧ (x.boundary off low).act = x.cfg := by
  unfold Loop.boundary
  extract_lets start cleared acting
  have settings : cleared.cfg = x.cfg := by
    simp only [cleared]
    split <;> rfl
  split <;> exact ⟨settings, settings⟩

/-- At the boundary the stored settings of a front-end channel act (R331). -/
theorem feBoundary_settings (x : Fe) : x.boundary.cfg = x.cfg ∧ x.boundary.act = x.cfg := by
  unfold Fe.boundary
  extract_lets a b fresh emptied formed
  have settings : formed.cfg = x.cfg := by
    have : emptied.cfg = x.cfg := by
      simp only [emptied]
      split <;> rfl
    simp only [formed]
    split <;> exact this
  exact ⟨settings, settings⟩

/-! ### Zone and level -/

/-- The car stands within the level window of its nearest landing (R256). -/
def Chip.levelOf (c : Chip) (k : CarId) : Bool :=
  match ((c.cars[k.val]).landing? (c.cars[k.val]).landing.toNat).map fun l => ((c.cars[k.val]).pos.toInt - l.p.toInt).natAbs,
    c.sps.get (.car 4 k) with
  | some e, some w => decide (e ≤ w.toNat)
  | _, _ => false

/-- Forming zone, level and re-level writes those three alone, and may raise the zone event (R256, R261). -/
theorem floorStep_eq (c : Chip) (k : CarId) : ∃ zone relev,
    c.floorStep k = (c.modCar k fun x => { x with zone := zone, level := c.levelOf k, relev := relev }) ∨
    c.floorStep k = (c.modCar k fun x => { x with zone := zone, level := c.levelOf k, relev := relev }).raiseSee k 6 := by
  unfold Chip.floorStep
  extract_lets x a zone off level still relev c1
  refine ⟨zone, relev, ?_⟩
  split
  · exact .inr rfl
  · exact .inl rfl

/-! ### What the boundary of a car keeps -/

/-- The settings of a thread that act (R386). -/
def Thread.acts (x : Thread) : BitVec 14 × BitVec 16 × BitVec 12 × BitVec 12 := (x.budgetAct, x.stallMaxAct, x.actMaskAct, x.seeMaskAct)

/-- What g reads of a device is apart from car j: a boundary of that car that is no switch-off writes none of it. The stored settings of
its channels are no part of what such a boundary writes. -/
structure Apart {β : Type} (j : CarId) (g : Chip → β) : Prop where
  car : ∀ c f, g (Chip.modCar c j f) = g c
  door : ∀ c d f, carOfDoor d = j → (∀ x, (f x).cfg = x.cfg) → g (Chip.modDoor c d f) = g c
  axis : ∀ c a f, carOfAxis a = j → g (Chip.modAxis c a f) = g c
  fbk : ∀ c i f, carOfFbk i = j → (∀ x, (f x).cfg = x.cfg) → g (Chip.modFbk c i f) = g c
  loop : ∀ c l f, carOfLoop l = j → (∀ x, (f x).cfg = x.cfg) → g (Chip.modLoop c l f) = g c
  fe : ∀ c i f, carOfFe i = j → (∀ x, (f x).cfg = x.cfg) → g (Chip.modFe c i f) = g c
  cal : ∀ c f, g (Chip.modCal c j f) = g c
  tap : ∀ (c : Chip) s f, carOfTap s = j → g { c with taps := upd c.taps s f } = g c
  thread : ∀ c t f, carOfThread t = some j → (∀ x, (f x).acts = x.acts) → g (Chip.modThread c t f) = g c
  events : ∀ (c : Chip) (f : Fin 48 → Thread → Thread), (∀ n x, (f n x).acts = x.acts ∧ (f n x).st = x.st) →
    g { c with threads := vmap f c.threads } = g c
  shared : ∀ (c : Chip) journal inputs free, g { c with journal := journal, inputs := inputs, free := free } = g c

namespace Apart

variable {β : Type} {j : CarId} {g : Chip → β} (h : Apart j g) (c : Chip)
include h

theorem note (e : InputItem) : g (c.note e) = g c := h.shared c c.journal _ c.free
theorem draw : g c.draw = g c := h.shared c c.journal c.inputs _
theorem journal (f : Journal → Journal) : g (c.modJournal f) = g c := h.shared c _ c.inputs c.free
theorem record (type : Byte) (car : Option CarId) (body : List Byte) : g (c.record type car body) = g c := by
  obtain ⟨journal, e⟩ := record_eq c type car body
  rw [e]
  exact h.shared c journal c.inputs c.free

theorem raiseSee (k : CarId) (b : Nat) : g (c.raiseSee k b) = g c := by
  refine h.events c _ fun n x => ?_
  split <;> exact ⟨rfl, rfl⟩

theorem modIlk (f : Ilk → Ilk) : g (c.modIlk j f) = g c := h.car c _

theorem axisCmd {a : AxisId} (own : carOfAxis a = j) (m : AxisCmd) : g (c.axisCmd a m) = g c := h.axis c a _ own

/-! #### Faults -/

theorem setService (dest : Service) : g (c.setService j dest) = g c := by
  unfold Chip.setService
  dsimp only
  split
  · rfl
  · split
    · rw [h.raiseSee, h.car, h.raiseSee, h.car]
    · rw [h.raiseSee, h.car]

theorem rewriteCarFault : g (c.rewriteCarFault j) = g c := h.journal c fun _ => _

theorem carFault (code stamp : Nat) : g (c.carFault j code stamp) = g c := by
  have start : g (if code ≤ 3 then c.modAxis (carAxis j) fun a => { a with homed := false } else c) = g c := by
    split
    · exact h.axis _ _ _ (carOfAxis_carAxis j)
    · rfl
  have own := carOfAxis_carAxis j
  unfold Chip.carFault
  dsimp only
  split
  · rfl
  · split
    · split
      · rw [h.car, start]
      · split
        · rw [h.rewriteCarFault, h.car, h.car, start]
        · split
          · rw [h.rewriteCarFault, h.car, h.car, start]
          · rw [h.car, h.car, start]
    · rw [h.record, h.loop _ _ Loop.quiet (carOfLoop_carLoop j), h.raiseSee, h.axisCmd _ own, h.axisCmd _ own, h.car, h.setService, h.car, start]
      exact fun _ => rfl

omit h in
/-- A fold of steps that each keep what is read keeps it. -/
theorem fold {ι : Type} (f : Chip → ι → Chip) (l : List ι) (keeps : ∀ c, ∀ i ∈ l, g (f c i) = g c) : g (l.foldl f c) = g c := by
  induction l generalizing c with
  | nil => rfl
  | cons i l ih =>
    exact (ih (f c i) fun c n hn => keeps c n (List.mem_cons_of_mem _ hn)).trans (keeps c i List.mem_cons_self)

theorem quietDoor {d : DoorId} (own : carOfDoor d = j) : g (c.quietDoor d) = g c :=
  foldFin_keeps g _ (fun i c => h.loop c _ Loop.quiet ((carOfLoop_doorLoop d i).trans own) fun _ => rfl) c

theorem doorFaultOne {d : DoorId} (own : carOfDoor d = j) (code stamp : Nat) : g (c.doorFaultOne d code stamp) = g c := by
  have axis : carOfAxis (doorAxis d) = j := (carOfAxis_doorAxis d).trans own
  unfold Chip.doorFaultOne
  dsimp only
  split
  · rfl
  · split
    · split
      · rfl
      · split
        · rw [Chip.rewriteDoorFault, h.journal, h.door _ _ _ own]
          exact fun _ => rfl
        · exact h.door _ _ _ own fun _ => rfl
    · rw [h.record, h.raiseSee, h.axisCmd _ axis, h.door _ _ _ own, h.quietDoor _ own]
      exact fun _ => rfl

theorem doorFault {d : DoorId} (own : carOfDoor d = j) (code stamp : Nat) : g (c.doorFault d code stamp) = g c := by
  unfold Chip.doorFault
  dsimp only
  split
  · rw [h.doorFaultOne _ ((carOfDoor_otherDoor d).trans own), h.doorFaultOne _ own]
  · exact h.doorFaultOne _ own _ _

/-! #### The latches of a car -/

theorem fbkBoundary : g (c.fbkBoundary j) = g c := by
  have cfg (l len : Nat) (tick : BitVec 48) (f : Fbk) : (f.configure.latch l len tick).cfg = f.cfg := by
    simp only [Fbk.latch, Fbk.configure]
    split <;> rfl
  have step : g ((c.modFbk (machine j) fun f => f.configure.latch (c.stamp 0) c.lnk.ticklen.toNat c.dev.tick).modFbk (hoistway j)
      fun f => f.configure.latch (c.stamp 0) c.lnk.ticklen.toNat c.dev.tick) = g c := by
    rw [h.fbk _ _ _ (carOfFbk_hoistway j) (cfg _ _ _), h.fbk _ _ _ (carOfFbk_machine j) (cfg _ _ _)]
  unfold Chip.fbkBoundary
  dsimp only
  split
  · rw [h.axis _ _ _ (carOfAxis_carAxis j), h.note, step]
  · rw [h.note, step]

theorem positionStep : g (c.positionStep j) = g c := h.car c _

theorem clearFault : g (c.clearFault j) = g c := by
  unfold Chip.clearFault
  dsimp only
  rw [h.car, fold (g := g), h.axis _ _ _ (carOfAxis_carAxis j)]
  intro c t ht
  refine h.thread c t _ ?_ fun x => ?_
  · simp only [List.mem_cons, List.not_mem_nil, or_false] at ht
    rcases ht with rfl | rfl | rfl <;> simp
  · split
    · split <;> rfl
    · rfl

theorem serviceStep : g (c.serviceStep j) = g c := by
  unfold Chip.serviceStep
  split
  · rfl
  · dsimp only
    rw [h.car, h.setService]
    split
    · exact h.clearFault c
    · rfl

theorem homeEvent (event : BitVec 2) (q : Word) : g (c.homeEvent j event q) = g c := by
  unfold Chip.homeEvent
  split
  · split
    · exact h.axis _ _ _ (carOfAxis_carAxis j)
    · rfl
  · rfl

theorem slipCheck (e : Int) : g (c.slipCheck j e) = g c := by
  unfold Chip.slipCheck
  dsimp only
  split
  · split
    · exact h.car c _
    · split
      · rw [h.carFault, h.car]
      · exact h.car c _
  · rfl

theorem switchStep (raw : BitVec 3) : g (c.switchStep j raw) = g c := by
  have own := carOfFbk_hoistway j
  have latch (c : Chip) (f : Fbk) (cfg : f.cfg = (c.fbks[(hoistway j).val]).cfg) : g (c.modFbk (hoistway j) fun _ => f) = g c := by
    have same : c.modFbk (hoistway j) (fun _ => f) = c.modFbk (hoistway j) fun x => { f with cfg := x.cfg } := by
      simp only [Chip.modFbk, upd, ← cfg]
    rw [same]
    exact h.fbk c _ (fun x => { f with cfg := x.cfg }) own fun _ => rfl
  unfold Chip.switchStep
  dsimp only
  split
  · rfl
  · split
    · exact latch c _ (switchLatch_settings ..).1
    · have step (c1 : Chip) (q : Word) : g (((c1.modFbk (hoistway j) fun f => { f with t0 := none }).raiseSee j 6).homeEvent j 1 q) =
          g c1 := by
        rw [h.homeEvent, h.raiseSee]
        exact h.fbk c1 _ _ own fun _ => rfl
      split
      · rw [step, latch c _ (switchLatch_settings ..).1]
      · rw [h.slipCheck, step, latch c _ (switchLatch_settings ..).1]

theorem floorStep : g (c.floorStep j) = g c := by
  obtain ⟨zone, relev, e | e⟩ := floorStep_eq c j
  · rw [e, h.car]
  · rw [e, h.raiseSee, h.car]

theorem doorCounts {d : DoorId} (own : carOfDoor d = j) : g (c.doorCounts d) = g c := h.door c _ _ own fun _ => rfl

theorem doorMeasured {d : DoorId} (own : carOfDoor d = j) (cur : BitVec 12 × BitVec 12) : g (c.doorMeasured d cur) = g c := by
  have placed (l len : Nat) (x : Door) : ((x.settle l).latch l len).cfg = x.cfg :=
    congrArg Posture.cfg ((latch_posture _ l len).trans (settle_posture x l))
  have opened : g (c.doorOpened d) = g c := by
    rw [Chip.doorOpened, h.door _ _ _ own, h.note]
    exact fun x => (configured_settings x).1
  have step : g (c.doorPlaced d) = g c := by
    unfold Chip.doorPlaced
    dsimp only
    rw [h.door _ _ _ own (placed _ _)]
    split
    · rw [h.axis _ _ _ ((carOfAxis_doorAxis d).trans own), opened]
    · exact opened
  unfold Chip.doorMeasured
  dsimp only
  rw [h.doorCounts _ own, h.door _ _ _ own, step]
  exact fun _ => rfl

theorem doorBoundary {d : DoorId} (own : carOfDoor d = j) (cur : BitVec 12 × BitVec 12) : g (c.doorBoundary d cur) = g c := by
  rw [doorBoundary_eq]
  split
  · rw [h.doorFault _ own, h.doorMeasured _ own]
  · exact h.doorMeasured _ own _

theorem tapLatch (i : Fin 8) (mv : BitVec 16) : g (c.tapLatch (carTap j i) mv) = g c := by
  have own := carOfTap_carTap j i
  unfold Chip.tapLatch
  dsimp only
  rw [h.draw, own, h.modIlk, h.tap _ _ _ own]

theorem pulseLatch (rb : Bool) : g (c.pulseLatch j rb) = g c := by
  unfold Chip.pulseLatch
  dsimp only
  split <;> exact h.modIlk c _

theorem enableLatch (pads readbacks : BitVec 3) (rb : Bool) : g (c.enableLatch j pads readbacks rb) = g c := by
  unfold Chip.enableLatch
  dsimp only
  split
  · rw [h.raiseSee, h.pulseLatch, h.modIlk]
  · rw [h.pulseLatch, h.modIlk]

theorem runTimeStep : g (c.runTimeStep j) = g c := by
  unfold Chip.runTimeStep
  dsimp only
  split
  · rfl
  · exact h.car c _

theorem scheduleStep : g (c.scheduleStep j) = g c := h.car c _

theorem carLatch (x : TickInputs) : g (c.carLatch j x) = g c := by
  unfold Chip.carLatch
  dsimp only
  rw [h.scheduleStep, h.runTimeStep, h.enableLatch, h.car, foldFin_keeps g _ fun i c => h.tapLatch c i _,
    h.doorBoundary _ (carOfDoor_rearDoor j), h.doorBoundary _ (carOfDoor_frontDoor j), h.floorStep, h.switchStep, h.serviceStep,
    h.positionStep, h.fbkBoundary]

/-! #### The rest of the boundary of a car -/

theorem taken (p : Axis → Axis) : g ([carAxis j, doorAxis (frontDoor j), doorAxis (rearDoor j)].foldl (fun c a => c.modAxis a p) c) = g c := by
  refine fold c _ _ fun c a ha => h.axis c a p ?_
  simp only [List.mem_cons, List.not_mem_nil, or_false] at ha
  rcases ha with rfl | rfl | rfl <;> simp

theorem latchPositions : g (c.latchPositions j) = g c := h.taken c _

omit h in
/-- The loops of a car: the outer one, and three of each door. -/
theorem carOfLoop_own {l : LoopId} (own : l ∈ carLoop j :: [frontDoor j, rearDoor j].flatMap fun d => (List.finRange 3).map (doorLoop d)) :
    carOfLoop l = j := by
  simp only [List.mem_cons, List.mem_flatMap, List.mem_map, List.not_mem_nil, or_false] at own
  rcases own with rfl | ⟨d, rfl | rfl, n, -, rfl⟩ <;> simp

theorem carConfigure : g (c.carConfigure j) = g c := by
  unfold Chip.carConfigure
  dsimp only
  rw [h.taken, h.cal, foldFin_keeps g _ fun i c => h.fe c _ Fe.boundary (carOfFe_carFe j i) fun x => (feBoundary_settings x).1, fold (g := g)]
  intro c l own
  exact h.loop c l _ (carOfLoop_own own) fun x => (loopBoundary_settings x _ _).1

end Apart

/-! ### What a switch-off keeps -/

/-- The device with the move queues and the calibrations of a car dropped (R90, R193). -/
def Chip.emptied (c : Chip) (k : CarId) : Chip :=
  let dropped := [carAxis k, doorAxis (frontDoor k), doorAxis (rearDoor k)].foldl (fun c a => c.dropQueue a) c
  let items := (c.cals[k.val]).queue ++ (match (c.cals[k.val]).running with | none => [] | some r => [r.item])
  let returned := items.foldl (fun c i => (c.release i.credit).jobDone i.producer) dropped
  if items.isEmpty then returned else returned.placeFreed (.cals k)

theorem switchOff_eq (c : Chip) (k : CarId) : c.switchOff k =
    (carThreads k).foldl (fun c t => c.modThread t Thread.darken) (((c.emptied k).setService k .islandOff).resetCar k) := rfl

/-- What g reads of a device is apart from car j, a switch-off of that car included: none of the car's channels, no credit, capture or
block. -/
structure FarApart {β : Type} (j : CarId) (g : Chip → β) : Prop extends Apart j g where
  doorReset : ∀ c d f, carOfDoor d = j → g (Chip.modDoor c d f) = g c
  fbkReset : ∀ c i f, carOfFbk i = j → g (Chip.modFbk c i f) = g c
  loopReset : ∀ c l f, carOfLoop l = j → g (Chip.modLoop c l f) = g c
  feReset : ∀ c i f, carOfFe i = j → g (Chip.modFe c i f) = g c
  traced : ∀ c l f, (∀ x, (f x).cfg = x.cfg ∧ (f x).act = x.act) → g (Chip.modLoop c l f) = g c
  told : ∀ c t f, (∀ x, (f x).acts = x.acts ∧ (f x).st = x.st) → g (Chip.modThread c t f) = g c
  spent : ∀ (c : Chip) sec captures blocks, g { c with sec := sec, captures := captures, blocks := blocks } = g c

namespace FarApart

variable {β : Type} {j : CarId} {g : Chip → β} (h : FarApart j g) (c : Chip)
include h

theorem release (credit : Option Nat) : g (c.release credit) = g c := by
  unfold Chip.release
  split
  · rfl
  · exact h.spent c _ c.captures c.blocks

theorem jobDone (p : Option ThreadId) : g (c.jobDone p) = g c := by
  unfold Chip.jobDone
  split
  · rfl
  · exact h.told c _ _ fun _ => ⟨rfl, rfl⟩

theorem placeFreed (q : QueueId) : g (c.placeFreed q) = g c := by
  refine h.events c _ fun n x => ?_
  split <;> exact ⟨rfl, rfl⟩

theorem endCapture (i : CkId) (r : Capture) (fault : Bool) : g (c.endCapture i r fault) = g c := by
  have freed : g ((((({ c.setCapture i none with blocks := (c.setCapture i none).blocks ++ [r.block fault] } : Chip).release
      r.item.credit).jobDone r.item.producer).placeFreed .traces)) = g c := by
    rw [h.placeFreed, h.jobDone, h.release]
    exact h.spent c c.sec _ _
  unfold Chip.endCapture
  dsimp only
  split
  · split
    · exact freed
    · rw [h.traced, freed]
      exact fun _ => ⟨rfl, rfl⟩
  · exact freed

theorem endCarCaptures : g (c.endCarCaptures j) = g c := by
  refine foldFin_keeps g _ (fun i c => ?_) c
  split
  · rfl
  · split
    · exact h.endCapture c _ _ _
    · rfl

theorem dropQueue {a : AxisId} (own : carOfAxis a = j) : g (c.dropQueue a) = g c := by
  unfold Chip.dropQueue
  dsimp only
  split
  · rfl
  · rw [Chip.raise, h.told, h.placeFreed, Apart.fold (g := g) _ _ _ fun c m _ => h.release c _, h.axis _ _ _ own]
    exact fun _ => ⟨rfl, rfl⟩

theorem resetDoor {d : DoorId} (own : carOfDoor d = j) : g (foldFin 3 (fun s c => c.modLoop (doorLoop d s) fun _ => Loop.init (doorLoop d s))
    ((c.modDoor d fun _ => Door.init).modAxis (doorAxis d) fun _ => Axis.init (doorAxis d))) = g c := by
  rw [foldFin_keeps g _ fun i c => h.loopReset c _ _ ((carOfLoop_doorLoop d i).trans own),
    h.axis _ _ _ ((carOfAxis_doorAxis d).trans own), h.doorReset _ _ _ own]

theorem resetCar : g (c.resetCar j) = g c := by
  unfold Chip.resetCar
  dsimp only
  rw [h.cal, foldFin_keeps g _ fun i c => h.tap c _ _ (carOfTap_carTap j i),
    foldFin_keeps g _ fun i c => h.feReset c _ _ (carOfFe_carFe j i), h.loopReset _ _ _ (carOfLoop_carLoop j),
    h.fbkReset _ _ _ (carOfFbk_hoistway j), h.fbkReset _ _ _ (carOfFbk_machine j), h.resetDoor _ (carOfDoor_rearDoor j),
    h.resetDoor _ (carOfDoor_frontDoor j), h.axis _ _ _ (carOfAxis_carAxis j), h.car]

theorem emptied : g (c.emptied j) = g c := by
  have axes (a : AxisId) (ha : a ∈ [carAxis j, doorAxis (frontDoor j), doorAxis (rearDoor j)]) : carOfAxis a = j := by
    simp only [List.mem_cons, List.not_mem_nil, or_false] at ha
    rcases ha with rfl | rfl | rfl <;> simp
  unfold Chip.emptied
  extract_lets dropped items returned
  have same : g returned = g c := by
    have drop : g dropped = g c := Apart.fold (g := g) _ _ _ fun c a ha => h.dropQueue c (axes a ha)
    exact (Apart.fold (g := g) _ _ _ fun c i _ => by rw [h.jobDone, h.release]).trans drop
  split
  · exact same
  · exact (h.placeFreed _ _).trans same

theorem switchOff : g (c.switchOff j) = g c := by
  have threads (t : ThreadId) (ht : t ∈ carThreads j) : carOfThread t = some j := by
    simp only [carThreads, List.mem_cons, List.not_mem_nil, or_false] at ht
    rcases ht with rfl | rfl | rfl <;> simp
  rw [switchOff_eq, Apart.fold (g := g) _ _ (carThreads j) fun c t ht => h.thread c t Thread.darken (threads t ht) fun _ => rfl, h.resetCar,
    h.setService, h.emptied]

theorem powerOffStep : g (c.powerOffStep j) = g c := by
  unfold Chip.powerOffStep
  split
  · rw [h.switchOff, h.endCarCaptures]
  · rfl

/-- What is apart from a car, the whole boundary of the car leaves. -/
theorem carBoundary (x : TickInputs) : g (c.carBoundary j x) = g c := by
  unfold Chip.carBoundary
  dsimp only
  split
  · rw [h.carConfigure, h.carLatch, h.car, h.powerOffStep, h.latchPositions]
  · rw [h.serviceStep, h.car, h.powerOffStep, h.latchPositions]

end FarApart

end Sys2Proof.Machine
end

section
/-! What a tick boundary takes from one car and what it leaves of every other: each car's part of the device (R26). -/

namespace Sys2Proof.Machine

/-! ### What all cars share -/

/-- What the boundary of no car writes: the device's block, supplies, link, parameter set, and the settings of the threads that act. -/
structure Common where
  dev : Dev
  pwr : Pwr
  lnk : Lnk
  sps : Sps
  acts : ThreadId → BitVec 14 × BitVec 16 × BitVec 12 × BitVec 12

def Chip.common (c : Chip) : Common := ⟨c.dev, c.pwr, c.lnk, c.sps, fun n => (c.threads[n.val]).acts⟩

theorem upd_kept {α β : Type} {n : Nat} (v : Vector α n) (i : Fin n) (f : α → α) (p : α → β) (h : ∀ x, p (f x) = p x) (j : Fin n) :
    p (upd v i f)[j.val] = p v[j.val] := by
  rw [upd_at]
  split
  · exact h _
  · rfl

theorem common_farApart (j : CarId) : FarApart j Chip.common := by
  have acts (c : Chip) (t : ThreadId) (f : Thread → Thread) (h : ∀ x, (f x).acts = x.acts) : (c.modThread t f).common = c.common := by
    simp only [Chip.common, Chip.modThread]
    congr 1
    exact funext fun n => upd_kept c.threads t f Thread.acts h n
  refine { car := fun _ _ => rfl, door := fun _ _ _ _ _ => rfl, axis := fun _ _ _ _ => rfl, fbk := fun _ _ _ _ _ => rfl,
           loop := fun _ _ _ _ _ => rfl, fe := fun _ _ _ _ _ => rfl, cal := fun _ _ => rfl, tap := fun _ _ _ _ => rfl,
           thread := fun c t f _ h => acts c t f h, events := fun c f h => ?_, shared := fun _ _ _ _ => rfl,
           doorReset := fun _ _ _ _ => rfl, fbkReset := fun _ _ _ _ => rfl, loopReset := fun _ _ _ _ => rfl,
           feReset := fun _ _ _ _ => rfl, traced := fun _ _ _ _ => rfl, told := fun c t f h => acts c t f fun x => (h x).1,
           spent := fun _ _ _ _ => rfl }
  simp only [Chip.common]
  congr 1
  funext n
  rw [vmap_at]
  exact (h n _).1

/-! ### What belongs to a car -/

/-- The part of the device that is car k's: of its loops the settings, of its threads their states. -/
structure CarPart (k : CarId) where
  car : Car
  doors : { d : DoorId // carOfDoor d = k } → Door
  axes : { a : AxisId // carOfAxis a = k } → Axis
  fbks : { i : FbkId // carOfFbk i = k } → Fbk
  taps : { s : TapId // carOfTap s = k } → Tap
  fes : { i : FeId // carOfFe i = k } → Fe
  loops : { l : LoopId // carOfLoop l = k } → LoopCfg × LoopCfg
  threads : { t : ThreadId // carOfThread t = some k } → ThreadState

def Chip.part (k : CarId) (c : Chip) : CarPart k where
  car := c.cars[k.val]
  doors d := c.doors[d.val.val]
  axes a := c.axes[a.val.val]
  fbks i := c.fbks[i.val.val]
  taps s := c.taps[s.val.val]
  fes i := c.fes[i.val.val]
  loops l := ((c.loops[l.val.val]).cfg, (c.loops[l.val.val]).act)
  threads t := (c.threads[t.val.val]).st

/-- A channel of one owner changes none of another's. -/
theorem upd_owned {α β : Type} {n : Nat} {own : Fin n → β} {k m : β} (v : Vector α n) {i : Fin n} (f : α → α) (h : own i = m)
    (apart : m ≠ k) : (fun j : { j // own j = k } => (upd v i f)[j.val.val]) = fun j => v[j.val.val] :=
  funext fun j => upd_other v f fun e => apart (h.symm.trans ((congrArg own e.symm).trans j.2))

theorem part_farApart {j k : CarId} (h : j ≠ k) : FarApart j (Chip.part k) := by
  have hs : some j ≠ some k := fun e => h (Option.some.inj e)
  have door (c : Chip) (d : DoorId) (f : Door → Door) (own : carOfDoor d = j) : (c.modDoor d f).part k = c.part k :=
    congrArg (fun v => { c.part k with doors := v }) (upd_owned c.doors f own h)
  have fbk (c : Chip) (i : FbkId) (f : Fbk → Fbk) (own : carOfFbk i = j) : (c.modFbk i f).part k = c.part k :=
    congrArg (fun v => { c.part k with fbks := v }) (upd_owned c.fbks f own h)
  have loop (c : Chip) (l : LoopId) (f : Loop → Loop) (own : carOfLoop l = j) : (c.modLoop l f).part k = c.part k :=
    congrArg (fun v => { c.part k with loops := fun l => ((v l).cfg, (v l).act) }) (upd_owned c.loops f own h)
  have fe (c : Chip) (i : FeId) (f : Fe → Fe) (own : carOfFe i = j) : (c.modFe i f).part k = c.part k :=
    congrArg (fun v => { c.part k with fes := v }) (upd_owned c.fes f own h)
  refine { car := fun c f => ?_, door := fun c d f own _ => door c d f own, axis := fun c a f own => ?_,
           fbk := fun c i f own _ => fbk c i f own, loop := fun c l f own _ => loop c l f own, fe := fun c i f own _ => fe c i f own,
           cal := fun _ _ => rfl, tap := fun c s f own => ?_, thread := fun c t f own _ => ?_, events := fun c f same => ?_,
           shared := fun _ _ _ _ => rfl, doorReset := door, fbkReset := fbk, loopReset := loop, feReset := fe,
           traced := fun c l f same => ?_, told := fun c t f same => ?_, spent := fun _ _ _ _ => rfl }
  · exact congrArg (fun x => { c.part k with car := x }) (upd_other c.cars f h.symm)
  · exact congrArg (fun v => { c.part k with axes := v }) (upd_owned c.axes f own h)
  · exact congrArg (fun v => { c.part k with taps := v }) (upd_owned c.taps f own h)
  · exact congrArg (fun v => { c.part k with threads := fun t => (v t).st }) (upd_owned c.threads f own hs)
  · refine congrArg (fun v => { c.part k with threads := v }) (funext fun t => ?_)
    show ((vmap f c.threads)[t.val.val]).st = _
    rw [vmap_at]
    exact (same _ _).2
  · refine congrArg (fun v => { c.part k with loops := v }) (funext fun n => ?_)
    exact upd_kept c.loops l f (fun x => (x.cfg, x.act)) (fun x => by rw [(same x).1, (same x).2]) n
  · refine congrArg (fun v => { c.part k with threads := v }) (funext fun n => ?_)
    exact upd_kept c.threads t f Thread.st (fun x => (same x).2) n

/-! ### Stored settings -/

/-- The stored settings of the channels (R386). -/
structure Stored where
  doors : DoorId → DoorCfg
  fbks : FbkId → FbkCfg
  loops : LoopId → LoopCfg
  fes : FeId → FeCfg

def Chip.stored (c : Chip) : Stored where
  doors d := (c.doors[d.val]).cfg
  fbks i := (c.fbks[i.val]).cfg
  loops l := (c.loops[l.val]).cfg
  fes i := (c.fes[i.val]).cfg

/-- The boundary of a car that stays on stores no settings. -/
theorem stored_apart (j : CarId) : Apart j Chip.stored where
  car _ _ := rfl
  door c d f _ h := congrArg (fun v => { c.stored with doors := v }) (funext fun e => upd_kept c.doors d f Door.cfg h e)
  axis _ _ _ _ := rfl
  fbk c i f _ h := congrArg (fun v => { c.stored with fbks := v }) (funext fun e => upd_kept c.fbks i f Fbk.cfg h e)
  loop c l f _ h := congrArg (fun v => { c.stored with loops := v }) (funext fun e => upd_kept c.loops l f Loop.cfg h e)
  fe c i f _ h := congrArg (fun v => { c.stored with fes := v }) (funext fun e => upd_kept c.fes i f Fe.cfg h e)
  cal _ _ := rfl
  tap _ _ _ _ := rfl
  thread _ _ _ _ _ := rfl
  events _ _ _ := rfl
  shared _ _ _ _ := rfl

/-! ### The cars in turn -/

/-- The boundaries of the cars one after the other make of car k what its own boundary makes of it as it stood, and share what no car
writes. -/
theorem carBoundaries_part (c : Chip) (x : TickInputs) (k : CarId) : ∃ r : Chip,
    r.common = c.common ∧ r.part k = c.part k ∧ (foldFin 12 (fun k c => c.carBoundary k x) c).common = c.common ∧
      (foldFin 12 (fun k c => c.carBoundary k x) c).part k = (r.carBoundary k x).part k := by
  obtain ⟨r, same, last⟩ := foldFin_at (fun d : Chip => (d.common, d.part k)) (fun k c => c.carBoundary k x) k
    (fun j hj d => by rw [(common_farApart j).carBoundary, (part_farApart hj).carBoundary]) c
  rw [Prod.mk.injEq] at same last
  exact ⟨r, same.1, same.2, foldFin_keeps Chip.common _ (fun j d => (common_farApart j).carBoundary d x) c, last.2⟩

end Sys2Proof.Machine
end

section
/-! The latches of a car at a tick boundary: what each makes of the car (R228, R248 to R262). -/

namespace Sys2Proof.Machine

/-! ### What the steps write of a car -/

/-- A car apart from its service, its fault and its stop table. -/
def Car.unfaulted (x : Car) : Car :=
  { x with
    service := .out, goto := none, faultActive := false, faultCause := 0, faultOthers := 0, faultAt := none, pulseOk := false, calls := [],
    present := none, arriving := none }

/-- The same, apart from its slip checks too. -/
def Car.unslipped (x : Car) : Car := { x.unfaulted with slipLast := 0, slipChecks := 0 }

/-- A car apart from what the latch of a drive reply writes. -/
def Car.unreplied (x : Car) : Car :=
  { x with dpLatched := none, dpStatus := 0, dpGood := false, dpSeen := false, miss := 0, mspeed := 0, dpErr := 0, spdRun := 0 }

/-- A car apart from its interlock, its drive port, its run and its mode. -/
def Car.bare (x : Car) : Car :=
  { x.unreplied with ilk := Car.init.ilk, run := ⟨false, 0⟩, mode := 0, modeSrc := false, schedSel := none }

section

variable (c : Chip) (k : CarId)

theorem setService_unfaulted (dest : Service) : ((c.setService k dest).cars[k.val]).unfaulted = (c.cars[k.val]).unfaulted := by
  rw [Chip.setService_car]
  split <;> rfl

theorem setService_service (dest : Service) : ((c.setService k dest).cars[k.val]).service = dest := by
  rw [Chip.setService_car]
  split <;> rfl

theorem carFault_unfaulted (code stamp : Nat) : ((c.carFault k code stamp).cars[k.val]).unfaulted = (c.cars[k.val]).unfaulted := by
  by_cases off : (c.cars[k.val]).service = .islandOff
  · simp only [Chip.carFault, off, if_true]
  by_cases stands : (c.cars[k.val]).service = .stoppedFault
  · have lost : (if code ≤ 3 then c.modAxis (carAxis k) fun a => { a with homed := false } else c).cars = c.cars := by split <;> rfl
    unfold Chip.carFault Chip.rewriteCarFault
    simp only [stands, reduceCtorEq, if_false, if_true]
    split
    · simp only [Chip.modCar_cars, upd_same, lost]
      rfl
    · split
      · simp only [Chip.modJournal_cars, Chip.modCar_cars, upd_same, lost]
        rfl
      · split
        · simp only [Chip.modJournal_cars, Chip.modCar_cars, upd_same, lost]
          rfl
        · simp only [Chip.modCar_cars, upd_same, lost]
          rfl
  · rw [(Chip.carFault_new c k code stamp off stands).1, upd_same]
    rfl

/-! ### An accepted request (R249) -/

theorem clearFault_car : (c.clearFault k).cars[k.val] = { c.cars[k.val] with faultActive := false, pulseOk := false } := by
  unfold Chip.clearFault
  dsimp only
  rw [Chip.modCar_cars, upd_same]
  rfl

theorem clearFault_others : (c.clearFault k).doors = c.doors ∧ (c.clearFault k).taps = c.taps ∧ (c.clearFault k).fbks = c.fbks :=
  ⟨rfl, rfl, rfl⟩

theorem serviceStep_none (h : (c.cars[k.val]).goto = none) : c.serviceStep k = c := by simp [Chip.serviceStep, h]

theorem serviceStep_some {dest : Service} (h : (c.cars[k.val]).goto = some dest) : c.serviceStep k =
    ((if (c.cars[k.val]).service = .stoppedFault then c.clearFault k else c).setService k dest).modCar k fun x =>
      { x with goto := none } := by
  simp only [Chip.serviceStep, h]

theorem serviceStep_reaches {dest : Service} (h : (c.cars[k.val]).goto = some dest) :
    ((c.serviceStep k).cars[k.val]).goto = none ∧ ((c.serviceStep k).cars[k.val]).service = dest := by
  rw [serviceStep_some c k h, Chip.modCar_cars, upd_same]
  exact ⟨rfl, setService_service _ k dest⟩

theorem serviceStep_unfaulted : ((c.serviceStep k).cars[k.val]).unfaulted = (c.cars[k.val]).unfaulted := by
  cases h : (c.cars[k.val]).goto with
  | none => rw [serviceStep_none c k h]
  | some dest =>
    rw [serviceStep_some c k h, Chip.modCar_cars, upd_same]
    refine (setService_unfaulted _ k _).trans ?_
    split
    · rw [clearFault_car]
      rfl
    · rfl

theorem serviceStep_others : (c.serviceStep k).doors = c.doors ∧ (c.serviceStep k).taps = c.taps ∧ (c.serviceStep k).fbks = c.fbks := by
  cases h : (c.cars[k.val]).goto with
  | none =>
    rw [serviceStep_none c k h]
    exact ⟨rfl, rfl, rfl⟩
  | some dest =>
    rw [serviceStep_some c k h]
    simp only [Chip.modCar_doors, Chip.modCar_taps, Chip.modCar_fbks, Chip.setService_doors, Chip.setService_taps, Chip.setService_fbks]
    split
    · exact clearFault_others c k
    · exact ⟨rfl, rfl, rfl⟩

/-! ### A slip check (R262) -/

theorem slipCheck_others (e : Int) : (c.slipCheck k e).doors = c.doors ∧ (c.slipCheck k e).taps = c.taps ∧
    (c.slipCheck k e).fbks = c.fbks := by
  unfold Chip.slipCheck
  dsimp only
  split
  · split
    · exact ⟨rfl, rfl, rfl⟩
    · split
      · simp only [Chip.carFault_doors, Chip.carFault_taps, Chip.carFault_fbks]
        exact ⟨rfl, rfl, rfl⟩
      · exact ⟨rfl, rfl, rfl⟩
  · exact ⟨rfl, rfl, rfl⟩

theorem slipCheck_unslipped (e : Int) : ((c.slipCheck k e).cars[k.val]).unslipped = (c.cars[k.val]).unslipped := by
  have counted : ((c.modCar k fun x => { x with slipLast := clampInt 20 e, slipChecks := x.slipChecks + 1 }).cars[k.val]).unslipped =
      (c.cars[k.val]).unslipped := by
    rw [Chip.modCar_cars, upd_same]
    rfl
  unfold Chip.slipCheck
  dsimp only
  split
  · split
    · exact counted
    · split
      · exact (congrArg Car.unslipped (carFault_unfaulted _ k 1 _)).trans counted
      · exact counted
  · rfl

/-- A slip check of a car that does not move is none; one of a car that moves counts, and beyond the window it is the first fault of the
car (R262). -/
theorem slipCheck_eq (e : Int) :
    ((c.cars[k.val]).service ≠ .homing ∧ (c.cars[k.val]).service ≠ .inspect ∧ (c.cars[k.val]).service ≠ .in_ ∧ c.slipCheck k e = c) ∨
    ((c.slipCheck k e).cars[k.val] = { c.cars[k.val] with slipLast := clampInt 20 e, slipChecks := (c.cars[k.val]).slipChecks + 1 } ∧
      ∀ w, c.sps.get (.car 6 k) = some w → e.natAbs ≤ w.toNat) ∨
    (((c.slipCheck k e).cars[k.val]).slipLast = clampInt 20 e ∧
      ((c.slipCheck k e).cars[k.val]).slipChecks = (c.cars[k.val]).slipChecks + 1 ∧
      ((c.slipCheck k e).cars[k.val]).service = .stoppedFault ∧ ((c.slipCheck k e).cars[k.val]).goto = none ∧
      ((c.slipCheck k e).cars[k.val]).faultActive = true ∧ ((c.slipCheck k e).cars[k.val]).faultCause = 1) := by
  unfold Chip.slipCheck
  extract_lets x counted
  have car : counted.cars[k.val] = { x with slipLast := clampInt 20 e, slipChecks := x.slipChecks + 1 } := by
    simp only [counted, Chip.modCar_cars, upd_same, x]
  by_cases moves : (x.service = .homing || x.service = .inspect || x.service = .in_) = true
  · right
    rw [if_pos moves]
    have on : x.service ≠ .islandOff := fun h => by simp [h] at moves
    have runs : x.service ≠ .stoppedFault := fun h => by simp [h] at moves
    cases hw : c.sps.get (.car 6 k) with
    | none => exact .inl ⟨car, fun w h => nomatch h⟩
    | some w =>
      dsimp only
      by_cases out : w.toNat < e.natAbs
      · right
        obtain ⟨cars, -⟩ := Chip.carFault_new counted k 1 (c.stamp 0) (by rw [car]; exact on) (by rw [car]; exact runs)
        rw [if_pos out, cars, upd_same, car]
        exact ⟨rfl, rfl, rfl, rfl, rfl, rfl⟩
      · left
        rw [if_neg out]
        exact ⟨car, fun v h => by rw [← Option.some.inj h]; exact Nat.not_lt.1 out⟩
  · left
    rw [if_neg moves]
    simp only [Bool.or_eq_true, decide_eq_true_eq, not_or] at moves
    exact ⟨moves.1.1, moves.1.2, moves.2, rfl⟩

theorem slipCheck_settled (e : Int) (idle : (c.cars[k.val]).goto = none) :
    ((c.slipCheck k e).cars[k.val]).goto = none ∧ (((c.slipCheck k e).cars[k.val]).faultActive = true ∨
      ((c.slipCheck k e).cars[k.val]).service = (c.cars[k.val]).service) := by
  rcases slipCheck_eq c k e with ⟨-, -, -, h⟩ | ⟨h, -⟩ | ⟨-, -, -, goto, active, -⟩
  · rw [h]
    exact ⟨idle, .inr rfl⟩
  · rw [h]
    exact ⟨idle, .inr rfl⟩
  · exact ⟨goto, .inl active⟩

/-! ### A switch code (R228, R262) -/

theorem homeEvent_others (event : BitVec 2) (q : Word) : (c.homeEvent k event q).cars = c.cars ∧ (c.homeEvent k event q).doors = c.doors ∧
    (c.homeEvent k event q).taps = c.taps ∧ (c.homeEvent k event q).fbks = c.fbks ∧ (c.homeEvent k event q).sps = c.sps := by
  unfold Chip.homeEvent
  split
  · split <;> exact ⟨rfl, rfl, rfl, rfl, rfl⟩
  · exact ⟨rfl, rfl, rfl, rfl, rfl⟩

/-- The switch interface of a car with a raw code latched. -/
def Chip.switched (c : Chip) (k : CarId) (raw : BitVec 3) : Fbk :=
  (c.fbks[(hoistway k).val]).switchLatch c.dev.tick (c.stamp 0) raw (c.cars[k.val]).pos

/-- The place at which the door-zone line has changed. -/
def Chip.zonePlace (c : Chip) (k : CarId) (raw : BitVec 3) : Word := (c.switched k raw).t0.getD (c.cars[k.val]).pos

/-- The device behind a change of the door-zone line, before its slip check. -/
def Chip.zoneChanged (c : Chip) (k : CarId) (raw : BitVec 3) : Chip :=
  (((c.modFbk (hoistway k) fun _ => c.switched k raw).modFbk (hoistway k) fun f => { f with t0 := none }).raiseSee k 6).homeEvent k 1
    (c.zonePlace k raw)

theorem zoneChanged_others (raw : BitVec 3) : (c.zoneChanged k raw).cars = c.cars ∧ (c.zoneChanged k raw).doors = c.doors ∧
    (c.zoneChanged k raw).taps = c.taps ∧ (c.zoneChanged k raw).sps = c.sps ∧
    (c.zoneChanged k raw).fbks = upd c.fbks (hoistway k) fun _ => { c.switched k raw with t0 := none } := by
  obtain ⟨cars, doors, taps, fbks, sps⟩ := homeEvent_others
    (((c.modFbk (hoistway k) fun _ => c.switched k raw).modFbk (hoistway k) fun f => { f with t0 := none }).raiseSee k 6) k 1
    (c.zonePlace k raw)
  refine ⟨cars, doors, taps, sps, fbks.trans ?_⟩
  simp only [Chip.raiseSee_fbks, Chip.modFbk_fbks, upd, Vector.set_set, Vector.getElem_set_self]

/-- What a switch code does, by its case: nothing outside SWITCH, a latch alone while the line stands, and a check where it has changed. -/
theorem switchStep_eq (raw : BitVec 3) : c.switchStep k raw =
    if (c.fbks[(hoistway k).val]).act.mode ≠ .switch then c
    else if (c.switched k raw).zoneLine = (c.fbks[(hoistway k).val]).zoneLine then c.modFbk (hoistway k) fun _ => c.switched k raw
    else match ((c.zoneChanged k raw).cars[k.val]).nearestEdge (c.zonePlace k raw).toInt with
      | none => c.zoneChanged k raw
      | some z => (c.zoneChanged k raw).slipCheck k ((c.zonePlace k raw).toInt - z) := by
  unfold Chip.switchStep
  dsimp only
  rfl

/-- A switch code leaves of the device what the latch, a change of the line and a slip check leave. -/
theorem switchStep_leaves {β : Type} (p : Chip → β) (raw : BitVec 3) (latch : p (c.modFbk (hoistway k) fun _ => c.switched k raw) = p c)
    (changed : p (c.zoneChanged k raw) = p c) (slip : ∀ d e, p (Chip.slipCheck d k e) = p d) : p (c.switchStep k raw) = p c := by
  rw [switchStep_eq]
  split
  · rfl
  · split
    · exact latch
    · split
      · exact changed
      · exact (slip _ _).trans changed

theorem switchStep_doors (raw : BitVec 3) : (c.switchStep k raw).doors = c.doors :=
  switchStep_leaves c k Chip.doors raw rfl (zoneChanged_others c k raw).2.1 fun d e => (slipCheck_others d k e).1

theorem switchStep_taps (raw : BitVec 3) : (c.switchStep k raw).taps = c.taps :=
  switchStep_leaves c k Chip.taps raw rfl (zoneChanged_others c k raw).2.2.1 fun d e => (slipCheck_others d k e).2.1

theorem switchStep_unslipped (raw : BitVec 3) : ((c.switchStep k raw).cars[k.val]).unslipped = (c.cars[k.val]).unslipped := by
  refine switchStep_leaves c k (fun d => (d.cars[k.val]).unslipped) raw rfl ?_ fun d e => slipCheck_unslipped d k e
  simp only [(zoneChanged_others c k raw).1]

/-- The machine encoder is no switch interface. -/
theorem machine_ne_hoistway : machine k ≠ hoistway k := fun h => by
  have := congrArg Fin.val h
  simp only [machine, hoistway] at this
  omega

theorem switchStep_machine (raw : BitVec 3) : (c.switchStep k raw).fbks[(machine k).val] = c.fbks[(machine k).val] := by
  refine switchStep_leaves c k (fun d => d.fbks[(machine k).val]) raw (upd_other _ _ (machine_ne_hoistway k)) ?_ fun d e => ?_
  · simp only [(zoneChanged_others c k raw).2.2.2.2, upd_other _ _ (machine_ne_hoistway k)]
  · simp only [(slipCheck_others d k e).2.2]

theorem switchStep_settled (raw : BitVec 3) (idle : (c.cars[k.val]).goto = none) :
    ((c.switchStep k raw).cars[k.val]).goto = none ∧ (((c.switchStep k raw).cars[k.val]).faultActive = true ∨
      ((c.switchStep k raw).cars[k.val]).service = (c.cars[k.val]).service) := by
  obtain ⟨cars, -⟩ := zoneChanged_others c k raw
  have changed : (c.zoneChanged k raw).cars[k.val] = c.cars[k.val] := by simp only [cars]
  rw [switchStep_eq]
  split
  · exact ⟨idle, .inr rfl⟩
  · split
    · exact ⟨idle, .inr rfl⟩
    · split
      · rw [changed]
        exact ⟨idle, .inr rfl⟩
      · rw [← changed] at idle ⊢
        exact slipCheck_settled _ k _ idle

/-- A code whose door-zone line stands is latched, and nothing else happens (R228). -/
theorem switchStep_same {raw : BitVec 3} (mode : (c.fbks[(hoistway k).val]).act.mode = .switch)
    (same : (c.switched k raw).zoneLine = (c.fbks[(hoistway k).val]).zoneLine) :
    c.switchStep k raw = c.modFbk (hoistway k) fun _ => c.switched k raw := by
  rw [switchStep_eq, if_neg (fun h => h mode), if_pos same]

/-- A change of the door-zone line is latched, and is a slip check against the nearest edge (R262). -/
theorem switchStep_change {raw : BitVec 3} (mode : (c.fbks[(hoistway k).val]).act.mode = .switch)
    (differs : (c.switched k raw).zoneLine ≠ (c.fbks[(hoistway k).val]).zoneLine) :
    (c.switchStep k raw).fbks[(hoistway k).val] = { c.switched k raw with t0 := none } ∧
    ∀ edge, ((c.cars[k.val]).service = .homing ∨ (c.cars[k.val]).service = .inspect ∨ (c.cars[k.val]).service = .in_) →
      (c.cars[k.val]).nearestEdge (c.zonePlace k raw).toInt = some edge →
      ((c.switchStep k raw).cars[k.val]).slipLast = clampInt 20 ((c.zonePlace k raw).toInt - edge) ∧
      ((c.switchStep k raw).cars[k.val]).slipChecks = (c.cars[k.val]).slipChecks + 1 ∧
      ∀ w, c.sps.get (.car 6 k) = some w → w.toNat < ((c.zonePlace k raw).toInt - edge).natAbs →
        ((c.switchStep k raw).cars[k.val]).service = .stoppedFault ∧ ((c.switchStep k raw).cars[k.val]).faultCause = 1 := by
  obtain ⟨cars, -, -, sps, fbks⟩ := zoneChanged_others c k raw
  have car : (c.zoneChanged k raw).cars[k.val] = c.cars[k.val] := by simp only [cars]
  have fbk : (c.zoneChanged k raw).fbks[(hoistway k).val] = { c.switched k raw with t0 := none } := by simp only [fbks, upd_same]
  rw [switchStep_eq, if_neg (fun h => h mode), if_neg differs]
  constructor
  · split
    · exact fbk
    · simp only [(slipCheck_others _ k _).2.2]
      exact fbk
  · intro edge moves near
    rw [car, near]
    dsimp only
    rw [← car] at moves ⊢
    rw [← sps]
    rcases slipCheck_eq (c.zoneChanged k raw) k ((c.zonePlace k raw).toInt - edge) with
      ⟨n1, n2, n3, -⟩ | ⟨h, within⟩ | ⟨last, checks, service, -, -, cause⟩
    · exact absurd moves (by simp only [n1, n2, n3, or_self, not_false_eq_true])
    · rw [h]
      exact ⟨rfl, rfl, fun w hw far => absurd (within w hw) (Nat.not_le.2 far)⟩
    · exact ⟨last, checks, fun _ _ _ => ⟨service, cause⟩⟩

end

end Sys2Proof.Machine
end

section
/-! Over-current at a tick boundary: which door it faults, and with what cause, where a cam couples the two (R275, R291, R292). -/

namespace Sys2Proof.Machine

@[simp] theorem otherDoor_frontDoor (k : CarId) : otherDoor (frontDoor k) = rearDoor k := by
  have even : (frontDoor k).val % 2 = 0 := by simp only [frontDoor]; omega
  rw [otherDoor, dif_pos even]
  rfl

@[simp] theorem otherDoor_rearDoor (k : CarId) : otherDoor (rearDoor k) = frontDoor k := by
  have odd : ¬ (rearDoor k).val % 2 = 0 := by simp only [rearDoor]; omega
  rw [otherDoor, dif_neg odd]
  rfl

/-! ### Settings -/

/-- What no fault of a door writes: its settings and its zero codes. -/
def Door.settings (x : Door) : DoorCfg × DoorCfg × BitVec 12 × BitVec 12 := (x.cfg, x.act, x.zeroU, x.zeroV)

section

variable (c : Chip) (d : DoorId) (code stamp : Nat) (cur : BitVec 12 × BitVec 12)

theorem doorFaultOne_settings (e : DoorId) : ((c.doorFaultOne d code stamp).doors[e.val]).settings = (c.doors[e.val]).settings := by
  have quiet : (c.quietDoor d).doors = c.doors := rfl
  unfold Chip.doorFaultOne Chip.rewriteDoorFault
  dsimp only
  split
  · rfl
  · split
    · split
      · rfl
      · split
        · refine upd_kept c.doors d _ Door.settings ?_ e
          exact fun _ => rfl
        · refine upd_kept c.doors d _ Door.settings ?_ e
          exact fun _ => rfl
    · simp only [Chip.record_doors, Chip.raiseSee_doors, Chip.axisCmd_doors, Chip.modDoor_doors, quiet]
      refine upd_kept c.doors d _ Door.settings ?_ e
      exact fun _ => rfl

theorem doorFault_settings (e : DoorId) : ((c.doorFault d code stamp).doors[e.val]).settings = (c.doors[e.val]).settings := by
  unfold Chip.doorFault
  dsimp only
  split
  · exact (doorFaultOne_settings ..).trans (doorFaultOne_settings ..)
  · exact doorFaultOne_settings ..

theorem doorFaultOne_other {e : DoorId} (h : e ≠ d) : (c.doorFaultOne d code stamp).doors[e.val] = c.doors[e.val] := by
  have quiet : (c.quietDoor d).doors = c.doors := rfl
  unfold Chip.doorFaultOne Chip.rewriteDoorFault
  dsimp only
  split
  · rfl
  · split
    · split
      · rfl
      · split <;> exact upd_other c.doors _ h
    · simp only [Chip.record_doors, Chip.raiseSee_doors, Chip.axisCmd_doors, Chip.modDoor_doors, quiet]
      exact upd_other c.doors _ h

theorem doorMeasured_settings : ((c.doorMeasured d cur).doors[d.val]).settings =
    ((c.doors[d.val]).cfg, (c.doors[d.val]).cfg, (c.doors[d.val]).zeroU, (c.doors[d.val]).zeroV) := by
  obtain ⟨cfg, act, zeroU, zeroV⟩ := configured_settings c.doors[d.val]
  have h := congrArg (fun p : Posture => (p.cfg, p.act, p.zeroU, p.zeroV)) (doorMeasured_posture c d cur)
  refine Eq.trans h ?_
  simp only [Door.posture, cfg, act, zeroU, zeroV]

/-- The boundary of a door puts its stored settings in force (R272). -/
theorem doorBoundary_settings : ((c.doorBoundary d cur).doors[d.val]).settings =
    ((c.doors[d.val]).cfg, (c.doors[d.val]).cfg, (c.doors[d.val]).zeroU, (c.doors[d.val]).zeroV) := by
  rw [doorBoundary_eq]
  split
  · exact (doorFault_settings ..).trans (doorMeasured_settings ..)
  · exact doorMeasured_settings ..

theorem doorBoundary_settings_other {e : DoorId} (h : e ≠ d) :
    ((c.doorBoundary d cur).doors[e.val]).settings = (c.doors[e.val]).settings := by
  rw [doorBoundary_eq]
  split
  · rw [doorFault_settings, doorMeasured_other _ _ _ h]
  · rw [doorMeasured_other _ _ _ h]

end

/-! ### Faults -/

/-- The door stands in FAULT with a cause that was detected at an admission cycle count. -/
structure Door.FaultedWith (x : Door) (code : Nat) (stamp : Nat) : Prop where
  st : x.st = .fault
  active : x.faultActive = true
  cause : x.faultCause = BitVec.ofNat 8 code
  moment : x.faultAt = some stamp

section

variable {c : Chip} {d : DoorId} {code : Nat}

/-- A first fault of a door in use stands with its cause. -/
theorem doorFaultOne_first {stamp : Nat} (used : (c.doors[d.val]).inUse = true) (on : (c.cars[(carOfDoor d).val]).on = true)
    (runs : (c.doors[d.val]).st ≠ .fault) : ((c.doorFaultOne d code stamp).doors[d.val]).FaultedWith code stamp := by
  rw [(Chip.doorFaultOne_new c d code stamp used on runs).1, upd_same]
  exact ⟨rfl, rfl, rfl, rfl⟩

/-- A door that is not in use, or whose islands are off, takes no fault (R272, R291). -/
theorem doorFaultOne_idle {stamp : Nat} (idle : ¬ (c.doors[d.val]).inUse = true ∨ ¬ (c.cars[(carOfDoor d).val]).on = true) :
    c.doorFaultOne d code stamp = c := by
  unfold Chip.doorFaultOne
  refine if_pos ?_
  simpa only [Bool.not_eq_true, Bool.or_eq_true, Bool.not_eq_true'] using idle

/-- A fault of the present cycle 0 keeps its place before one of the same cycle with a higher code (R291). -/
theorem FaultedWith.stays {other : Nat} (low : code < 2 ^ 8) (h : (c.doors[d.val]).FaultedWith code (c.stamp 0)) (later : code < other) :
    ((c.doorFaultOne d other (c.stamp 0)).doors[d.val]).FaultedWith code (c.stamp 0) := by
  obtain ⟨st, active, cause, moment⟩ := h
  have number : (c.doors[d.val]).faultCause.toNat = code := by rw [cause, BitVec.toNat_ofNat, Nat.mod_eq_of_lt low]
  have first : c.faultFirst (c.doors[d.val]).faultAt code other (c.stamp 0) = false := by
    simp [Chip.faultFirst, moment, later.le]
  have taken : c.doorFaultOne d other (c.stamp 0) = if !(c.doors[d.val]).inUse || !(c.cars[(carOfDoor d).val]).on then c
      else c.modDoor d fun x => { x with faultOthers := x.faultOthers ||| faultBit other } := by
    simp only [Chip.doorFaultOne, st, first, number, if_true, Bool.false_eq_true, if_false, later.ne]
  by_cases idle : (!(c.doors[d.val]).inUse || !(c.cars[(carOfDoor d).val]).on) = true
  · rw [taken, if_pos idle]
    exact ⟨st, active, cause, moment⟩
  · rw [taken, if_neg idle, Chip.modDoor_doors, upd_same]
    exact ⟨st, active, cause, moment⟩

/-- A fault of the present cycle 0 gives way to one of the same cycle with a lower code (R291). -/
theorem FaultedWith.yields {other : Nat} (low : code < 2 ^ 8) (h : (c.doors[d.val]).FaultedWith code (c.stamp 0)) (earlier : other < code)
    (used : (c.doors[d.val]).inUse = true) (on : (c.cars[(carOfDoor d).val]).on = true) :
    ((c.doorFault d other (c.stamp 0)).doors[d.val]).FaultedWith other (c.stamp 0) := by
  obtain ⟨st, active, cause, moment⟩ := h
  have number : (c.doors[d.val]).faultCause.toNat = code := by rw [cause, BitVec.toNat_ofNat, Nat.mod_eq_of_lt low]
  have first : c.faultFirst (c.doors[d.val]).faultAt (c.doors[d.val]).faultCause.toNat other (c.stamp 0) = true := by
    rw [moment, number]
    exact faultFirst_earlier le_rfl (.inr ⟨rfl, earlier⟩)
  rw [doorFault_standing _ _ st, doorFaultOne_earlier used on st (by rw [number]; exact earlier.ne') first]
  exact ⟨st, active, rfl, rfl⟩

/-- A fault of a door, and of the other one through a cam, leaves the fault itself standing. -/
theorem doorFault_first {stamp : Nat} (used : (c.doors[d.val]).inUse = true) (on : (c.cars[(carOfDoor d).val]).on = true)
    (runs : (c.doors[d.val]).st ≠ .fault) : ((c.doorFault d code stamp).doors[d.val]).FaultedWith code stamp := by
  have first := doorFaultOne_first (code := code) (stamp := stamp) used on runs
  unfold Chip.doorFault
  dsimp only
  split
  · rw [doorFaultOne_other _ _ _ _ (otherDoor_ne d).symm]
    exact first
  · exact first

/-- A fault OVERCUR of the present cycle stands when the other door faults in the same cycle (R291). -/
theorem doorFault_stays {stamp : Nat} (now : c.stamp 0 = stamp) (h : (c.doors[(otherDoor d).val]).FaultedWith 2 stamp) :
    ((c.doorFault d 2 stamp).doors[(otherDoor d).val]).FaultedWith 2 stamp := by
  have one : ((c.doorFaultOne d 2 stamp).doors[(otherDoor d).val]).FaultedWith 2 stamp := by
    rw [doorFaultOne_other _ _ _ _ (otherDoor_ne d)]
    exact h
  have now' : (c.doorFaultOne d 2 stamp).stamp 0 = stamp := by
    simpa only [Chip.stamp, Chip.doorFaultOne_dev, Chip.doorFaultOne_lnk] using now
  have two : (((c.doorFaultOne d 2 stamp).doorFaultOne (otherDoor d) 9 stamp).doors[(otherDoor d).val]).FaultedWith 2 stamp := by
    have := FaultedWith.stays (c := c.doorFaultOne d 2 stamp) (code := 2) (other := 9) (by decide) (by rw [now']; exact one) (by decide)
    rwa [now'] at this
  unfold Chip.doorFault
  dsimp only
  split
  · exact two
  · exact one

/-- What a fault of a door can do to the other one that is in no FAULT: nothing, or FAULT with COUPLED (R292). -/
theorem doorFault_couples {stamp : Nat} (runs : (c.doors[(otherDoor d).val]).st ≠ .fault) :
    ((c.doorFault d code stamp).doors[(otherDoor d).val]).st ≠ .fault ∨
      ((c.doorFault d code stamp).doors[(otherDoor d).val]).FaultedWith 9 stamp := by
  have beside : (c.doorFaultOne d code stamp).doors[(otherDoor d).val] = c.doors[(otherDoor d).val] :=
    doorFaultOne_other _ _ _ _ (otherDoor_ne d)
  unfold Chip.doorFault
  dsimp only
  split
  · by_cases takes : ((c.doorFaultOne d code stamp).doors[(otherDoor d).val]).inUse = true ∧
        ((c.doorFaultOne d code stamp).cars[(carOfDoor (otherDoor d)).val]).on = true
    · exact .inr (doorFaultOne_first takes.1 takes.2 (by rw [beside]; exact runs))
    · left
      have idle := doorFaultOne_idle (code := 9) (stamp := stamp) (not_and_or.1 takes)
      rw [idle, beside]
      exact runs
  · exact .inl (by rw [beside]; exact runs)

end

/-! ### The boundary of a door -/

section

variable {c : Chip} {d : DoorId} (cur : BitVec 12 × BitVec 12)

theorem doorMeasured_common : (c.doorMeasured d cur).common = c.common := ((common_farApart _).toApart.doorMeasured c rfl cur)

theorem doorMeasured_stamp : (c.doorMeasured d cur).stamp 0 = c.stamp 0 := by
  have h := doorMeasured_common (c := c) (d := d) cur
  have dev : (c.doorMeasured d cur).dev = c.dev := congrArg Common.dev h
  have lnk : (c.doorMeasured d cur).lnk = c.lnk := congrArg Common.lnk h
  simp only [Chip.stamp, dev, lnk]

theorem doorMeasured_cars : (c.doorMeasured d cur).cars = c.cars := by
  have placed : (c.doorPlaced d).cars = c.cars := by
    unfold Chip.doorPlaced
    dsimp only
    split <;> rfl
  exact placed

/-- A current above its bound is a fault OVERCUR of a door that stood in none, or in one that the same cycle has brought from the other
door (R275, R291). -/
theorem doorBoundary_trips (used : (c.doors[d.val]).cfg.type ≠ .none) (on : (c.cars[(carOfDoor d).val]).on = true)
    (running : c.running = true) (high : (c.doorMeasured d cur).currentHigh d cur = true)
    (before : (c.doors[d.val]).st ≠ .fault ∨ (c.doors[d.val]).FaultedWith 9 (c.stamp 0)) :
    ((c.doorBoundary d cur).doors[d.val]).FaultedWith 2 (c.stamp 0) := by
  generalize measured : c.doorMeasured d cur = m at *
  have settings : (m.doors[d.val]).act = (c.doors[d.val]).cfg := by
    rw [← measured]
    exact congrArg (fun p => p.2.1) (doorMeasured_settings c d cur)
  have posture : (m.doors[d.val]).posture = (c.doors[d.val]).configured.posture := by rw [← measured]; exact doorMeasured_posture c d cur
  have common : m.common = c.common := by rw [← measured]; exact doorMeasured_common cur
  have stamp : m.stamp 0 = c.stamp 0 := by rw [← measured]; exact doorMeasured_stamp cur
  have cars : m.cars = c.cars := by rw [← measured]; exact doorMeasured_cars cur
  have used' : (m.doors[d.val]).inUse = true := by simpa [Door.inUse, settings] using used
  have on' : (m.cars[(carOfDoor d).val]).on = true := by simp only [cars]; exact on
  have running' : m.running = true := by
    have dev : m.dev = c.dev := congrArg Common.dev common
    simpa only [Chip.running, dev] using running
  rw [doorBoundary_eq, measured, if_pos ⟨by rw [settings]; exact used, high, running'⟩, ← stamp]
  have clear (h : (c.doors[d.val]).configured.st ≠ .fault) : (m.doors[d.val]).st ≠ .fault := by
    rwa [show (m.doors[d.val]).st = _ from congrArg Posture.st posture]
  rcases before with runs | ⟨st, active, cause, moment⟩
  · exact doorFault_first used' on' (clear (configured_st _ runs))
  · rcases configured_fault _ st with cleared | ⟨st', active', cause', moment'⟩
    · exact doorFault_first used' on' (clear cleared)
    · refine FaultedWith.yields (code := 9) (by decide) ⟨?_, ?_, ?_, ?_⟩ (by decide) used' on'
      · exact (congrArg Posture.st posture).trans st'
      · exact (congrArg Posture.faultActive posture).trans (active'.trans active)
      · exact (congrArg Posture.faultCause posture).trans (cause'.trans cause)
      · exact (congrArg Posture.faultAt posture).trans (moment'.trans (moment.trans (congrArg some stamp.symm)))

/-- A fault OVERCUR of the present cycle stands through the boundary of the other door (R291). -/
theorem doorBoundary_stays (h : (c.doors[(otherDoor d).val]).FaultedWith 2 (c.stamp 0)) :
    ((c.doorBoundary d cur).doors[(otherDoor d).val]).FaultedWith 2 (c.stamp 0) := by
  have beside : ((c.doorMeasured d cur).doors[(otherDoor d).val]).FaultedWith 2 (c.stamp 0) := by
    rw [doorMeasured_other c d cur (otherDoor_ne d)]
    exact h
  rw [doorBoundary_eq]
  split
  · exact doorFault_stays (doorMeasured_stamp cur) beside
  · exact beside

/-- The boundary of a door leaves the other one in no FAULT, or in one with COUPLED (R292). -/
theorem doorBoundary_couples (runs : (c.doors[(otherDoor d).val]).st ≠ .fault) :
    ((c.doorBoundary d cur).doors[(otherDoor d).val]).st ≠ .fault ∨
      ((c.doorBoundary d cur).doors[(otherDoor d).val]).FaultedWith 9 (c.stamp 0) := by
  have beside := doorMeasured_other c d cur (otherDoor_ne d)
  rw [← beside] at runs
  rw [doorBoundary_eq]
  split
  · exact doorFault_couples runs
  · exact .inl runs

end

end Sys2Proof.Machine
end

section
/-! The latches of a car one after the other: taps, drive reply, enables, run time and schedule (R264 to R270, R297 to R311). -/

namespace Sys2Proof.Machine

/-! ### Taps (R297 to R301) -/

/-- The conversion of a tap has a code within two of the exact one, and 255 above 5 V (R297). -/
theorem tapCode_high {mv : BitVec 16} (err : Int) (h : 5000 < mv.toNat) : tapCode mv err = 255 := if_pos h

theorem tapCode_near {mv : BitVec 16} (err : Byte) (h : mv.toNat ≤ 5000) :
    (((tapCode mv (smallError err)).toNat : Int) - (min 255 (mv.toNat * 256 / 5000) : Nat)).natAbs ≤ 2 := by
  have small : -2 ≤ smallError err ∧ smallError err ≤ 2 := by
    unfold smallError
    omega
  rw [tapCode, if_neg (Nat.not_lt.2 h)]
  generalize smallError err = e at small
  obtain ⟨n, hn⟩ : ∃ n : Nat, min 255 (mv.toNat * 256 / 5000) = n := ⟨_, rfl⟩
  rw [hn]
  have le : n ≤ 255 := hn ▸ Nat.min_le_left _ _
  obtain ⟨v, hv⟩ : ∃ v : Nat, max 0 (min 255 ((n : Int) + e)) = v := ⟨(max 0 (min 255 ((n : Int) + e))).toNat, by omega⟩
  rw [hv, BitVec.ofInt_natCast, BitVec.toNat_ofNat, Nat.mod_eq_of_lt (by omega)]
  omega

/-- The bit of a tap in a mask of its car. -/
def tapBit (i : Fin 8) : Byte := BitVec.ofNat 8 (2 ^ i.val)

theorem tapBit_at : ∀ i j : Fin 8, (tapBit i).getLsbD j.val = decide (i = j) := by decide

theorem carTap_mask (k : CarId) (i : Fin 8) : BitVec.ofNat 8 (2 ^ ((carTap k i).val % 8)) = tapBit i := by
  have place : (carTap k i).val % 8 = i.val := by simp only [carTap]; omega
  rw [place, tapBit]

/-- The interlock with a tap's clamp as it stands, remembered, and the window flags (R297, R298). -/
def Ilk.clamped (x : Ilk) (b : Byte) (live : Bool) (win : Byte) : Ilk :=
  { x with
    clampLive := if live then x.clampLive ||| b else x.clampLive &&& ~~~b,
    clampSticky := if live then x.clampSticky ||| b else x.clampSticky, winTaps := win }

theorem clamped_own (x : Ilk) (i : Fin 8) (live : Bool) (win : Byte) :
    (x.clamped (tapBit i) live win).clampLive.getLsbD i.val = live ∧
    (x.clamped (tapBit i) live win).clampSticky.getLsbD i.val = (x.clampSticky.getLsbD i.val || live) := by
  have own : (tapBit i).getLsbD i.val = true := by rw [tapBit_at, decide_eq_true rfl]
  cases live <;>
    simp only [Ilk.clamped, if_true, if_false, Bool.false_eq_true, BitVec.getLsbD_or, BitVec.getLsbD_and, BitVec.getLsbD_not, own,
      Bool.or_true, Bool.or_false, Bool.not_true, Bool.and_false, and_self]

theorem clamped_far (x : Ilk) {i j : Fin 8} (h : j ≠ i) (live : Bool) (win : Byte) :
    (x.clamped (tapBit j) live win).clampLive.getLsbD i.val = x.clampLive.getLsbD i.val ∧
    (x.clamped (tapBit j) live win).clampSticky.getLsbD i.val = x.clampSticky.getLsbD i.val := by
  have far : (tapBit j).getLsbD i.val = false := by rw [tapBit_at, decide_eq_false h]
  cases live <;>
    simp only [Ilk.clamped, if_true, if_false, Bool.false_eq_true, BitVec.getLsbD_or, BitVec.getLsbD_and, BitVec.getLsbD_not, far, i.isLt,
      decide_true, Bool.or_false, Bool.not_false, Bool.and_true, and_self]

/-- A car apart from its tap clamps and the window flags of its taps. -/
def Car.unclamped (x : Car) : Car := { x with ilk := { x.ilk with clampLive := 0, clampSticky := 0, winTaps := 0 } }

/-- What the decision on a tap makes of it: the level of a used one against its windows, and none of another (R299, R300). -/
def Chip.tapLatched (c : Chip) (s : TapId) (v : Byte) : Tap :=
  match (if c.tapUsed s then c.thWin (carOfTap s) else none) with
  | none => { c.taps[s.val] with code := v, tracking := false, outWin := false, high := false }
  | some w => (c.taps[s.val]).latch w v

/-- The device with a tap replaced. -/
def Chip.withTap (c : Chip) (s : TapId) (y : Tap) : Chip := { c with taps := upd c.taps s fun _ => y }

@[simp] theorem withTap_taps (c : Chip) (s : TapId) (y : Tap) : (c.withTap s y).taps = upd c.taps s fun _ => y := rfl
@[simp] theorem withTap_cars (c : Chip) (s : TapId) (y : Tap) : (c.withTap s y).cars = c.cars := rfl
@[simp] theorem withTap_sps (c : Chip) (s : TapId) (y : Tap) : (c.withTap s y).sps = c.sps := rfl

section

variable (c : Chip) (k : CarId)

/-- The latch of a tap, in its effects on the tap and on the clamps of its car (R297). -/
theorem tapLatch_eq (i : Fin 8) (mv : BitVec 16) : ∃ (err : Byte) (live : Bool) (win : Ilk → Byte),
    (5250 < mv.toNat → live = true) ∧ (mv.toNat ≤ 5150 → live = false) ∧
    c.tapLatch (carTap k i) mv = ((c.withTap (carTap k i) (c.tapLatched (carTap k i) (tapCode mv (smallError err)))).modIlk k
      fun x => x.clamped (tapBit i) live (win x)).draw := by
  refine ⟨Config.tapError c.free, decide (5150 + (Config.tapOverVoltage c.free).toNat % 101 < mv.toNat),
    fun x => if (c.tapLatched (carTap k i) (tapCode mv (smallError (Config.tapError c.free)))).outWin && !(c.taps[(carTap k i).val]).outWin
      then x.winTaps ||| tapBit i else x.winTaps, fun h => ?_, fun h => ?_, ?_⟩
  · rw [decide_eq_true_eq]
    omega
  · rw [decide_eq_false_iff_not]
    omega
  · unfold Chip.tapLatch Chip.withTap Chip.tapLatched Ilk.clamped
    simp only [carOfTap_carTap, carTap_mask] <;> rfl

/-- What the latch of a tap of car k leaves. -/
theorem tapLatch_others (i : Fin 8) (mv : BitVec 16) :
    (c.tapLatch (carTap k i) mv).doors = c.doors ∧ (c.tapLatch (carTap k i) mv).fbks = c.fbks ∧
    (c.tapLatch (carTap k i) mv).axes = c.axes ∧ ((c.tapLatch (carTap k i) mv).cars[k.val]).unclamped = (c.cars[k.val]).unclamped := by
  obtain ⟨err, live, win, -, -, h⟩ := tapLatch_eq c k i mv
  rw [h]
  refine ⟨rfl, rfl, rfl, ?_⟩
  rw [Chip.draw_cars, Chip.modIlk_cars, upd_same]
  rfl

/-- What a decision on a tap reads of the device: the tap, and the parameter set. -/
theorem tapLatched_congr {d : Chip} {s : TapId} (tap : d.taps[s.val] = c.taps[s.val]) (sps : d.sps = c.sps) (v : Byte) :
    d.tapLatched s v = c.tapLatched s v := by
  have used : d.tapUsed s = c.tapUsed s := by simp only [Chip.tapUsed, Chip.sps0, sps]
  have win : d.thWin (carOfTap s) = c.thWin (carOfTap s) := by simp only [Chip.thWin, sps]
  unfold Chip.tapLatched
  rw [used, win, tap]

/-- The latch of one tap of a car, as it is after the latches of all of them. -/
theorem tapLatches_at (mv : Fin 8 → BitVec 16) (i : Fin 8) : ∃ (err : Byte) (live : Bool),
    (5250 < (mv i).toNat → live = true) ∧ ((mv i).toNat ≤ 5150 → live = false) ∧
    let d := foldFin 8 (fun i c => c.tapLatch (carTap k i) (mv i)) c
    d.taps[(carTap k i).val] = c.tapLatched (carTap k i) (tapCode (mv i) (smallError err)) ∧
    (d.cars[k.val]).ilk.clampLive.getLsbD i.val = live ∧
    (d.cars[k.val]).ilk.clampSticky.getLsbD i.val = ((c.cars[k.val]).ilk.clampSticky.getLsbD i.val || live) := by
  let g : Chip → Tap × Bool × Bool × Sps := fun d =>
    (d.taps[(carTap k i).val], (d.cars[k.val]).ilk.clampLive.getLsbD i.val, (d.cars[k.val]).ilk.clampSticky.getLsbD i.val, d.sps)
  have apart (j : Fin 8) (hj : j ≠ i) : carTap k i ≠ carTap k j := fun h => hj (by
    have := congrArg Fin.val h
    simp only [carTap] at this
    exact Fin.ext (by omega))
  obtain ⟨r, same, last⟩ := foldFin_at g (fun i c => c.tapLatch (carTap k i) (mv i)) i (fun j hj d => by
    obtain ⟨err, live, win, -, -, h⟩ := tapLatch_eq d k j (mv j)
    simp only [g, h, Chip.draw_taps, Chip.modIlk_taps, withTap_taps, upd_other _ _ (apart j hj), Chip.draw_cars, Chip.modIlk_cars,
      withTap_cars, upd_same, clamped_far _ hj, Chip.draw_sps, Chip.modIlk_sps, withTap_sps]) c
  obtain ⟨err, live, win, high, low, h⟩ := tapLatch_eq r k i (mv i)
  refine ⟨err, live, high, low, ?_⟩
  simp only [g, Prod.mk.injEq] at same last
  obtain ⟨tap, -, sticky, sps⟩ := same
  obtain ⟨tap', live', sticky', -⟩ := last
  refine ⟨?_, ?_, ?_⟩
  · rw [tap', h, ← tapLatched_congr c tap sps]
    simp only [Chip.draw_taps, Chip.modIlk_taps, withTap_taps, upd_same]
  · rw [live', h]
    simp only [Chip.draw_cars, Chip.modIlk_cars, withTap_cars, upd_same, clamped_own]
  · rw [sticky', ← sticky, h]
    simp only [Chip.draw_cars, Chip.modIlk_cars, withTap_cars, upd_same, clamped_own]

end

end Sys2Proof.Machine
end

section
/-! The boundary of a car that stays on: its latches in their order, and what each settles of the car (R18, R242, R248 to R311). -/

namespace Sys2Proof.Machine

/-! ### Changes of a car -/

/-- Two changes of a car that agree on it as it stands do the same. -/
theorem modCar_congr {c : Chip} {k : CarId} {f g : Car → Car} (h : f c.cars[k.val] = g c.cars[k.val]) : c.modCar k f = c.modCar k g := by
  simp only [Chip.modCar, upd, h]

/-- A change that leaves a car as it stands is none. -/
theorem modCar_self {c : Chip} {k : CarId} {f : Car → Car} (h : f c.cars[k.val] = c.cars[k.val]) : c.modCar k f = c := by
  rw [modCar_congr (g := fun _ => c.cars[k.val]) h, Chip.modCar, upd_const_self]

/-! ### Enables, run time and schedule -/

/-- A car apart from its pulse test and the pulse count of its readback. -/
def Car.untested (x : Car) : Car := { x with ilk := { x.ilk with test := none, pulseRun := 0 } }

section

variable (c : Chip) (k : CarId)

theorem pulseLatch_car (rb : Bool) : ((c.pulseLatch k rb).cars[k.val]).untested = (c.cars[k.val]).untested := by
  unfold Chip.pulseLatch
  dsimp only
  split
  · refine upd_kept c.cars k _ Car.untested ?_ k
    exact fun _ => rfl
  · refine upd_kept c.cars k _ Car.untested ?_ k
    exact fun _ => rfl

/-- A latch of the enables writes the car's interlock alone: as `Ilk.latch` has it, but for a pulse test and the pulse count (R309). -/
theorem enableLatch_car (pads readbacks : BitVec 3) (rb : Bool) : ((c.enableLatch k pads readbacks rb).cars[k.val]).untested =
    ({ c.cars[k.val] with ilk := (c.cars[k.val]).ilk.latch pads readbacks } : Car).untested := by
  unfold Chip.enableLatch
  extract_lets x changed rise fall win c1 c2
  have same : (if changed then c2.raiseSee k 7 else c2).cars = c2.cars := by split <;> rfl
  simp only [same]
  refine (pulseLatch_car c1 k rb).trans ?_
  simp only [c1, Chip.modIlk_cars, upd_same]
  rfl

theorem enableLatch_others (pads readbacks : BitVec 3) (rb : Bool) :
    (c.enableLatch k pads readbacks rb).doors = c.doors ∧ (c.enableLatch k pads readbacks rb).taps = c.taps ∧
    (c.enableLatch k pads readbacks rb).fbks = c.fbks ∧ (c.enableLatch k pads readbacks rb).axes = c.axes := by
  have pulse (d : Chip) : (d.pulseLatch k rb).doors = d.doors ∧ (d.pulseLatch k rb).taps = d.taps ∧ (d.pulseLatch k rb).fbks = d.fbks ∧
      (d.pulseLatch k rb).axes = d.axes := by
    unfold Chip.pulseLatch
    dsimp only
    split <;> exact ⟨rfl, rfl, rfl, rfl⟩
  unfold Chip.enableLatch
  extract_lets x changed rise fall win c1 c2
  split
  · exact pulse c1
  · exact pulse c1

/-- At rest at the end of a run (R264). -/
def Chip.rests (c : Chip) (k : CarId) : Bool :=
  let a := c.axes[(carAxis k).val]
  (a.st = .idle || a.st = .held) && (c.cars[k.val]).speed = 0 &&
    match c.sps.get (.car 4 k) with
    | none => false
    | some w => decide (((c.cars[k.val]).pos.toInt * unit - a.e.toInt).natAbs ≤ w.toNat * 2 ^ 48)

/-- The run-time count of a car after a tick (R264). -/
def RunTime.after (r : RunTime) (rests : Bool) : RunTime :=
  if r.running then if rests then { r with running := false } else { r with ticks := satInc r.ticks } else r

theorem runTimeStep_eq : c.runTimeStep k = c.modCar k fun x => { x with run := (c.cars[k.val]).run.after (c.rests k) } := by
  unfold Chip.runTimeStep
  extract_lets x a near over_
  have rests : over_ = c.rests k := rfl
  clear_value over_
  subst rests
  by_cases running : x.run.running = true
  · rw [if_neg (by simp [running])]
    refine modCar_congr ?_
    show (if c.rests k then { x with run := { x.run with running := false } } else { x with run := { x.run with ticks := satInc x.run.ticks } }) =
      { x with run := x.run.after (c.rests k) }
    rw [RunTime.after, if_pos running]
    split <;> rfl
  · rw [if_pos (by simpa using running)]
    refine (modCar_self ?_).symm
    show { x with run := x.run.after (c.rests k) } = x
    rw [RunTime.after, if_neg running]

/-- The mode of a car after a tick, where a schedule selects it (R270). -/
def Car.scheduled (x : Car) (wall : BitVec 48) : Car :=
  match x.schedule with
    | none => x
    | some t =>
      if x.modeHold then x
      else match t.select wall with
        | none => x
        | some e => if x.schedSel = some e then x else { x with mode := e.2, modeSrc := true, schedSel := some e }

theorem scheduleStep_eq : c.scheduleStep k = c.modCar k fun x => x.scheduled c.dev.wall := rfl

end

end Sys2Proof.Machine
end

section
/-! The boundary of a car that stays on, as a whole: its stages in their order, and what each clause reads of its outcome
(R18, R242, R248 to R311). -/

namespace Sys2Proof.Machine

/-! ### Cars alike apart from some of their fields -/

section

variable {y z : Car}

theorem unslipped_of_unfaulted (h : y.unfaulted = z.unfaulted) : y.unslipped = z.unslipped :=
  congrArg (fun x : Car => { x with slipLast := 0, slipChecks := 0 }) h

/-- A car apart from its interlock and its drive port. -/
def Car.unlinked (y : Car) : Car := { y.unreplied with ilk := Car.init.ilk }

theorem unlinked_of_unreplied (h : y.unreplied = z.unreplied) : y.unlinked = z.unlinked :=
  congrArg (fun x : Car => { x with ilk := Car.init.ilk }) h
theorem ilk_of_unreplied (h : y.unreplied = z.unreplied) : y.ilk = z.ilk := by
  have e := congrArg Car.ilk h
  exact e
theorem unlinked_of_unclamped (h : y.unclamped = z.unclamped) : y.unlinked = z.unlinked := by
  have e := congrArg Car.unlinked h
  exact e
theorem unlinked_of_untested {i : Ilk} (h : y.untested = ({ z with ilk := i } : Car).untested) : y.unlinked = z.unlinked := by
  have e := congrArg Car.unlinked h
  exact e

end

/-! ### Stages -/

/-- A car with its feedback and its position latched. -/
@[irreducible] def Chip.placed (c : Chip) (k : CarId) : Chip := (c.fbkBoundary k).positionStep k

/-- The same with an accepted request in force and its switch latched. -/
@[irreducible] def Chip.served (c : Chip) (k : CarId) (x : TickInputs) : Chip := ((c.placed k).serviceStep k).switchStep k x.switches[k.val]

/-- The same with zone and level formed and the doors latched. -/
@[irreducible] def Chip.doorsLatched (c : Chip) (k : CarId) (x : TickInputs) : Chip :=
  (((c.served k x).floorStep k).doorBoundary (frontDoor k) x.current[(frontDoor k).val]).doorBoundary (rearDoor k)
    x.current[(rearDoor k).val]

/-- The same with the taps latched. -/
@[irreducible] def Chip.tapsLatched (c : Chip) (k : CarId) (x : TickInputs) : Chip :=
  foldFin 8 (fun i c => c.tapLatch (carTap k i) x.tapMv[(carTap k i).val]) (c.doorsLatched k x)

/-- The same with a drive reply and the enables latched. -/
@[irreducible] def Chip.enablesLatched (c : Chip) (k : CarId) (x : TickInputs) : Chip :=
  ((c.tapsLatched k x).modCar k Car.latchReply).enableLatch k x.pads[k.val] x.readbacks[k.val] x.pulseRb

section

variable (c : Chip) (k : CarId) (x : TickInputs)

theorem carLatch_eq : c.carLatch k x = ((c.enablesLatched k x).runTimeStep k).scheduleStep k := by
  unfold Chip.enablesLatched Chip.tapsLatched Chip.doorsLatched Chip.served Chip.placed
  rfl

/-! ### The feedback and the position -/

theorem fbkBoundary_others : (c.fbkBoundary k).cars = c.cars ∧ (c.fbkBoundary k).doors = c.doors ∧ (c.fbkBoundary k).taps = c.taps := by
  unfold Chip.fbkBoundary
  dsimp only
  split <;> exact ⟨rfl, rfl, rfl⟩

theorem fbkBoundary_fbk {i : FbkId} (own : i = machine k ∨ i = hoistway k) : (c.fbkBoundary k).fbks[i.val] =
    (c.fbks[i.val]).configure.latch (c.stamp 0) c.lnk.ticklen.toNat c.dev.tick := by
  have fbks : (c.fbkBoundary k).fbks = upd (upd c.fbks (machine k) fun f => f.configure.latch (c.stamp 0) c.lnk.ticklen.toNat c.dev.tick)
      (hoistway k) fun f => f.configure.latch (c.stamp 0) c.lnk.ticklen.toNat c.dev.tick := by
    unfold Chip.fbkBoundary
    dsimp only
    split <;> rfl
  simp only [fbks]
  rcases own with rfl | rfl
  · rw [upd_other _ _ (machine_ne_hoistway k), upd_same]
  · rw [upd_same, upd_other _ _ (machine_ne_hoistway k).symm]

/-- The car where its position, its speed and its nearest landing are latched from a feedback interface (R256). -/
def Car.placedBy (x : Car) (f : Fbk) (accel : Word) : Car :=
  let x := match x.tableNext with
    | none => x
    | some t => { x with table := some t, tableNext := none }
  { x with
    pos := BitVec.ofInt 32 f.measured, speed := f.speed, accel := accel,
    landing := BitVec.ofNat 8 (x.nearestLanding (BitVec.ofInt 32 f.measured)) }

theorem placed_car : ∃ accel, (c.placed k).cars[k.val] = (c.cars[k.val]).placedBy ((c.fbkBoundary k).fbks[(machine k).val]) accel := by
  obtain ⟨cars, -, -⟩ := fbkBoundary_others c k
  refine ⟨(c.fbkBoundary k).carAccel k, ?_⟩
  unfold Chip.placed Chip.positionStep
  dsimp only
  rw [Chip.modCar_cars, upd_same]
  simp only [cars]
  rfl

theorem placed_others : (c.placed k).doors = c.doors ∧ (c.placed k).taps = c.taps ∧ (c.placed k).fbks = (c.fbkBoundary k).fbks := by
  unfold Chip.placed
  exact ⟨(fbkBoundary_others c k).2.1, (fbkBoundary_others c k).2.2, rfl⟩

/-- The nearest landing is a matter of the landing table (R256). -/
theorem nearestLanding_congr {x y : Car} (h : x.table = y.table) (p : Word) : x.nearestLanding p = y.nearestLanding p := by
  have landings : x.landings = y.landings := by simp only [Car.landings, h]
  have pos : x.landingPos = y.landingPos := by
    funext j
    simp only [Car.landingPos, Car.landing?, landings]
  simp only [Car.nearestLanding, Car.loaded, landings, pos]

theorem placedBy_place (x : Car) (f : Fbk) (accel : Word) :
    (x.placedBy f accel).pos = BitVec.ofInt 32 f.measured ∧ (x.placedBy f accel).speed = f.speed ∧
    (x.placedBy f accel).landing = BitVec.ofNat 8 ((x.placedBy f accel).nearestLanding (x.placedBy f accel).pos) := by
  refine ⟨rfl, rfl, ?_⟩
  unfold Car.placedBy
  extract_lets y
  exact congrArg (BitVec.ofNat 8) (nearestLanding_congr rfl _)

/-- A car apart from its place and its landing table. -/
def Car.unplaced (x : Car) : Car := { x with pos := 0, speed := 0, accel := 0, landing := 0, table := none, tableNext := none }

theorem placedBy_unplaced (x : Car) (f : Fbk) (accel : Word) : (x.placedBy f accel).unplaced = x.unplaced := by
  unfold Car.placedBy
  split <;> rfl

/-! ### Request, switch and level -/

theorem served_others : (c.served k x).doors = c.doors ∧ (c.served k x).taps = c.taps ∧
    (c.served k x).fbks[(machine k).val] = (c.fbkBoundary k).fbks[(machine k).val] := by
  obtain ⟨doors, taps, fbks⟩ := placed_others c k
  obtain ⟨doors', taps', fbks'⟩ := serviceStep_others (c.placed k) k
  unfold Chip.served
  refine ⟨?_, ?_, ?_⟩
  · rw [switchStep_doors, doors', doors]
  · rw [switchStep_taps, taps', taps]
  · rw [switchStep_machine]
    simp only [fbks', fbks]

theorem served_unslipped : ((c.served k x).cars[k.val]).unslipped = ((c.placed k).cars[k.val]).unslipped := by
  unfold Chip.served
  exact (switchStep_unslipped _ k _).trans (unslipped_of_unfaulted (serviceStep_unfaulted (c.placed k) k))

theorem floorStep_car : ∃ zone relev, (c.floorStep k).cars[k.val] = { c.cars[k.val] with zone := zone, level := c.levelOf k, relev := relev } := by
  obtain ⟨zone, relev, h | h⟩ := floorStep_eq c k
  · exact ⟨zone, relev, by rw [h, Chip.modCar_cars, upd_same]⟩
  · exact ⟨zone, relev, by rw [h, Chip.raiseSee_cars, Chip.modCar_cars, upd_same]⟩

theorem floorStep_others : (c.floorStep k).doors = c.doors ∧ (c.floorStep k).taps = c.taps ∧ (c.floorStep k).fbks = c.fbks := by
  obtain ⟨zone, relev, h | h⟩ := floorStep_eq c k
  · rw [h]
    exact ⟨rfl, rfl, rfl⟩
  · rw [h]
    exact ⟨rfl, rfl, rfl⟩

theorem doorBoundary_others (d : DoorId) (cur : BitVec 12 × BitVec 12) : (c.doorBoundary d cur).cars = c.cars ∧
    (c.doorBoundary d cur).taps = c.taps ∧ (c.doorBoundary d cur).fbks = c.fbks := by
  have placed : (c.doorPlaced d).cars = c.cars ∧ (c.doorPlaced d).taps = c.taps ∧ (c.doorPlaced d).fbks = c.fbks := by
    unfold Chip.doorPlaced
    dsimp only
    split <;> exact ⟨rfl, rfl, rfl⟩
  rw [doorBoundary_eq]
  split
  · simp only [Chip.doorFault_cars, Chip.doorFault_taps, Chip.doorFault_fbks]
    exact placed
  · exact placed

theorem doorsLatched_others : (c.doorsLatched k x).cars = ((c.served k x).floorStep k).cars ∧ (c.doorsLatched k x).taps = c.taps ∧
    (c.doorsLatched k x).fbks = (c.served k x).fbks := by
  obtain ⟨-, taps, -⟩ := served_others c k x
  obtain ⟨-, taps', fbks'⟩ := floorStep_others (c.served k x) k
  obtain ⟨cars1, taps1, fbks1⟩ := doorBoundary_others ((c.served k x).floorStep k) (frontDoor k) x.current[(frontDoor k).val]
  obtain ⟨cars2, taps2, fbks2⟩ := doorBoundary_others
    (((c.served k x).floorStep k).doorBoundary (frontDoor k) x.current[(frontDoor k).val]) (rearDoor k) x.current[(rearDoor k).val]
  unfold Chip.doorsLatched
  exact ⟨cars2.trans cars1, taps2.trans (taps1.trans (taps'.trans taps)), fbks2.trans (fbks1.trans fbks')⟩

/-! ### Taps, drive reply and enables -/

theorem tapsLatched_others : (c.tapsLatched k x).doors = (c.doorsLatched k x).doors ∧ (c.tapsLatched k x).fbks = (c.served k x).fbks ∧
    ((c.tapsLatched k x).cars[k.val]).unclamped = ((c.doorsLatched k x).cars[k.val]).unclamped := by
  unfold Chip.tapsLatched
  refine ⟨?_, ?_, ?_⟩
  · exact foldFin_keeps Chip.doors _ (fun i d => (tapLatch_others d k i _).1) _
  · exact (foldFin_keeps Chip.fbks _ (fun i d => (tapLatch_others d k i _).2.1) _).trans (doorsLatched_others c k x).2.2
  · exact foldFin_keeps (fun d : Chip => (d.cars[k.val]).unclamped) _ (fun i d => (tapLatch_others d k i _).2.2.2) _

theorem latchReply_unreplied (y : Car) : y.latchReply.unreplied = y.unreplied := by
  unfold Car.latchReply
  split
  · rfl
  · dsimp only
    split <;> rfl

theorem enablesLatched_others : (c.enablesLatched k x).doors = (c.doorsLatched k x).doors ∧
    (c.enablesLatched k x).taps = (c.tapsLatched k x).taps ∧ (c.enablesLatched k x).fbks = (c.served k x).fbks := by
  obtain ⟨doors, fbks, -⟩ := tapsLatched_others c k x
  obtain ⟨doors', taps', fbks', -⟩ := enableLatch_others ((c.tapsLatched k x).modCar k Car.latchReply) k x.pads[k.val] x.readbacks[k.val]
    x.pulseRb
  unfold Chip.enablesLatched
  rw [doors', taps', fbks', Chip.modCar_doors, Chip.modCar_taps, Chip.modCar_fbks, doors, fbks]
  exact ⟨rfl, rfl, rfl⟩

/-- The latch of the enables finds the interlock that the taps have left. -/
theorem enablesLatched_untested : ((c.enablesLatched k x).cars[k.val]).untested =
    ({ ((c.tapsLatched k x).cars[k.val]).latchReply with
      ilk := ((c.tapsLatched k x).cars[k.val]).ilk.latch x.pads[k.val] x.readbacks[k.val] } : Car).untested := by
  have ilk := ilk_of_unreplied (latchReply_unreplied ((c.tapsLatched k x).cars[k.val]))
  unfold Chip.enablesLatched
  rw [enableLatch_car, Chip.modCar_cars, upd_same, ilk]

theorem enablesLatched_unlinked : ((c.enablesLatched k x).cars[k.val]).unlinked = (((c.served k x).floorStep k).cars[k.val]).unlinked := by
  have tested := unlinked_of_untested (enablesLatched_untested c k x)
  have replied := unlinked_of_unreplied (latchReply_unreplied ((c.tapsLatched k x).cars[k.val]))
  have clamped := unlinked_of_unclamped (tapsLatched_others c k x).2.2
  have doors : (c.doorsLatched k x).cars[k.val] = ((c.served k x).floorStep k).cars[k.val] := by
    simp only [(doorsLatched_others c k x).1]
  rw [tested, replied, clamped, doors]

/-! ### The rest -/

/-- What the configuration of a car writes: loops, front ends, the calibration group, and the mark of its axes. -/
theorem carConfigure_keeps {β : Type} (g : Chip → β) (h1 : ∀ c l f, g (Chip.modLoop c l f) = g c) (h2 : ∀ c i f, g (Chip.modFe c i f) = g c)
    (h3 : ∀ c f, g (Chip.modCal c k f) = g c) (h4 : ∀ c a, g (Chip.modAxis c a fun x => { x with taken := false }) = g c) :
    g (c.carConfigure k) = g c := by
  unfold Chip.carConfigure
  dsimp only
  rw [Apart.fold (g := g) _ _ _ fun c a _ => h4 c a, h3, foldFin_keeps g _ fun i c => h2 c _ _, Apart.fold (g := g) _ _ _ fun c l _ => h1 c l _]

theorem carConfigure_others : (c.carConfigure k).cars = c.cars ∧ (c.carConfigure k).doors = c.doors ∧ (c.carConfigure k).taps = c.taps ∧
    (c.carConfigure k).fbks = c.fbks := by
  refine ⟨carConfigure_keeps c k Chip.cars ?_ ?_ ?_ ?_, carConfigure_keeps c k Chip.doors ?_ ?_ ?_ ?_,
    carConfigure_keeps c k Chip.taps ?_ ?_ ?_ ?_, carConfigure_keeps c k Chip.fbks ?_ ?_ ?_ ?_⟩ <;> intros <;> rfl

/-- The generator of an axis stands while the boundary marks it. -/
theorem carConfigure_axis (a : AxisId) : ((c.carConfigure k).axes[a.val]).st = (c.axes[a.val]).st ∧
    ((c.carConfigure k).axes[a.val]).e = (c.axes[a.val]).e := by
  refine ⟨carConfigure_keeps c k (fun d => (d.axes[a.val]).st) ?_ ?_ ?_ ?_, carConfigure_keeps c k (fun d => (d.axes[a.val]).e) ?_ ?_ ?_ ?_⟩
  · exact fun _ _ _ => rfl
  · exact fun _ _ _ => rfl
  · exact fun _ _ => rfl
  · intro d b
    refine upd_kept d.axes b _ Axis.st ?_ a
    exact fun _ => rfl
  · exact fun _ _ _ => rfl
  · exact fun _ _ _ => rfl
  · exact fun _ _ => rfl
  · intro d b
    refine upd_kept d.axes b _ Axis.e ?_ a
    exact fun _ => rfl

end

end Sys2Proof.Machine
end

section
/-! What the boundary makes of a car that stays on, clause by clause (R228, R249, R256, R262, R264, R270, R275, R297 to R309). -/

namespace Sys2Proof.Machine

/-! ### The checks of the enables (R309) -/

/-- A mask built bit by bit from a list of places holds those of them that are chosen. -/
theorem maskFold_at (p : Fin 3 → Prop) [DecidablePred p] (e : Fin 3) (l : List (Fin 3)) (m : BitVec 3) :
    (l.foldl (fun (m : BitVec 3) (i : Fin 3) => if p i then m ||| (1#3 <<< i.val) else m) m).getLsbD e.val =
      (m.getLsbD e.val || decide (e ∈ l ∧ p e)) := by
  have bit : ∀ i j : Fin 3, (1#3 <<< i.val).getLsbD j.val = decide (j = i) := by decide
  induction l generalizing m with
  | nil => simp
  | cons i l ih =>
    rw [List.foldl_cons, ih]
    by_cases hi : p i
    · rw [if_pos hi, BitVec.getLsbD_or, bit, Bool.or_assoc]
      congr 1
      by_cases h : e = i
      · subst h
        simp [hi]
      · simp [h]
    · rw [if_neg hi]
      congr 1
      by_cases h : e = i
      · subst h
        simp [hi]
      · simp [h]

/-- An enable mismatches at a latch that checks it where pad or readback differ from its permit (R309). -/
def Ilk.bad (i : Ilk) (pads readbacks : BitVec 3) (e : Fin 3) : Prop :=
  i.skip[e.val] = 0 ∧ (pads.getLsbD e.val ≠ i.permit.getLsbD e.val ∨ readbacks.getLsbD e.val ≠ i.permit.getLsbD e.val)

theorem latch_mismatch (i : Ilk) (pads readbacks : BitVec 3) (e : Fin 3) :
    (i.latch pads readbacks).mismatch.getLsbD e.val = true ↔ i.bad pads readbacks e := by
  unfold Ilk.latch Ilk.bad
  dsimp only
  rw [BitVec.getLsbD_and, maskFold_at (fun e => i.skip[e.val] = 0), BitVec.getLsbD_or, BitVec.getLsbD_xor, BitVec.getLsbD_xor]
  have zero : (0 : BitVec 3).getLsbD e.val = false := BitVec.getLsbD_zero
  simp only [List.mem_finRange, true_and, zero, Bool.false_or, Bool.and_eq_true, decide_eq_true_eq, Bool.or_eq_true, bne_iff_ne]
  exact and_comm

theorem latch_twice (i : Ilk) (pads readbacks : BitVec 3) (e : Fin 3) :
    (i.latch pads readbacks).twice.getLsbD e.val = true ↔ i.bad pads readbacks e ∧ i.missed.getLsbD e.val = true := by
  rw [← latch_mismatch]
  unfold Ilk.latch
  dsimp only
  rw [BitVec.getLsbD_and, Bool.and_eq_true]

theorem latch_skip (i : Ilk) (pads readbacks : BitVec 3) (e : Fin 3) :
    (i.latch pads readbacks).skip[e.val] = if i.skip[e.val] = 0 then 0 else i.skip[e.val] - 1 := by
  unfold Ilk.latch
  dsimp only
  rw [vmap_at]
  split
  · next h => rw [h]
  · rfl

/-! ### What the rest of the boundary leaves of a car -/

/-- Position, speed, nearest landing and landing table. -/
def Car.site (x : Car) : Word × Word × Byte × Option LandingTable := (x.pos, x.speed, x.landing, x.table)

/-- Service, request, fault and slip checks. -/
structure Standing where
  service : Service
  goto : Option Service
  faultActive : Bool
  faultCause : Byte
  slipLast : BitVec 20
  slipChecks : BitVec 12

def Car.standing (x : Car) : Standing := ⟨x.service, x.goto, x.faultActive, x.faultCause, x.slipLast, x.slipChecks⟩

/-- Run, schedule and mode. -/
structure Itinerary where
  run : RunTime
  schedule : Option Schedule
  modeHold : Bool
  mode : BitVec 4
  modeSrc : Bool
  schedSel : Option (BitVec 14 × BitVec 4)

def Car.itinerary (x : Car) : Itinerary := ⟨x.run, x.schedule, x.modeHold, x.mode, x.modeSrc, x.schedSel⟩

section

variable {y z : Car}

theorem bare_of_unlinked (h : y.unlinked = z.unlinked) : y.bare = z.bare := by
  have e := congrArg Car.bare h
  exact e
theorem site_of_bare (h : y.bare = z.bare) : y.site = z.site := by
  have e := congrArg Car.site h
  exact e
theorem standing_of_bare (h : y.bare = z.bare) : y.standing = z.standing := by
  have e := congrArg Car.standing h
  exact e
theorem level_of_bare (h : y.bare = z.bare) : y.level = z.level := by
  have e := congrArg Car.level h
  exact e
theorem itinerary_of_unlinked (h : y.unlinked = z.unlinked) : y.itinerary = z.itinerary := by
  have e := congrArg Car.itinerary h
  exact e
theorem site_of_unslipped (h : y.unslipped = z.unslipped) : y.site = z.site := by
  have e := congrArg Car.site h
  exact e
theorem itinerary_of_unslipped (h : y.unslipped = z.unslipped) : y.itinerary = z.itinerary := by
  have e := congrArg Car.itinerary h
  exact e
theorem ilk_of_unslipped (h : y.unslipped = z.unslipped) : y.ilk = z.ilk := by
  have e := congrArg Car.ilk h
  exact e
theorem itinerary_of_unplaced (h : y.unplaced = z.unplaced) : y.itinerary = z.itinerary := by
  have e := congrArg Car.itinerary h
  exact e
theorem ilk_of_unplaced (h : y.unplaced = z.unplaced) : y.ilk = z.ilk := by
  have e := congrArg Car.ilk h
  exact e
theorem standing_of_unplaced (h : y.unplaced = z.unplaced) : y.standing = z.standing := by
  have e := congrArg Car.standing h
  exact e

theorem scheduled_bare (x : Car) (r : RunTime) (wall : BitVec 48) : (({ x with run := r } : Car).scheduled wall).bare = x.bare := by
  unfold Car.scheduled
  dsimp only
  split
  · rfl
  · split
    · rfl
    · split
      · rfl
      · split <;> rfl

theorem scheduled_run (x : Car) (wall : BitVec 48) : (x.scheduled wall).run = x.run ∧ (x.scheduled wall).ilk = x.ilk := by
  unfold Car.scheduled
  split
  · exact ⟨rfl, rfl⟩
  · split
    · exact ⟨rfl, rfl⟩
    · split
      · exact ⟨rfl, rfl⟩
      · split <;> exact ⟨rfl, rfl⟩

/-- A schedule changes the mode when its selection changes, unless the mode is held (R270). -/
theorem scheduled_mode (x : Car) (wall : BitVec 48) :
    (x.schedule = none ∨ x.modeHold = true → (x.scheduled wall).mode = x.mode ∧ (x.scheduled wall).schedSel = x.schedSel) ∧
    ∀ t e, x.schedule = some t → x.modeHold = false → t.select wall = some e →
      (x.scheduled wall).schedSel = some e ∧
      (x.schedSel = some e → (x.scheduled wall).mode = x.mode ∧ (x.scheduled wall).modeSrc = x.modeSrc) ∧
      (x.schedSel ≠ some e → (x.scheduled wall).mode = e.2 ∧ (x.scheduled wall).modeSrc = true) := by
  unfold Car.scheduled
  refine ⟨fun idle => ?_, fun t e schedule free chosen => ?_⟩
  · rcases idle with none_ | held
    · rw [none_]
      exact ⟨rfl, rfl⟩
    · cases x.schedule with
      | none => exact ⟨rfl, rfl⟩
      | some t => simp only [held, if_true, and_self]
  · simp only [schedule, free, chosen, Bool.false_eq_true, if_false]
    by_cases same : x.schedSel = some e
    · simp only [same, if_true, ne_eq, not_true_eq_false, false_implies, implies_true, and_self]
    · simp only [same, if_false, false_implies, ne_eq, not_false_eq_true, implies_true, and_self]

end

/-! ### The whole -/

/-- A car that stays on, behind its latches and its configuration. -/
@[irreducible] def Chip.carSettled (c : Chip) (k : CarId) (x : TickInputs) : Chip := (c.carLatch k x).carConfigure k

section

variable (c : Chip) (k : CarId) (x : TickInputs)

theorem placed_common : (c.placed k).common = c.common := by
  have h := (common_farApart k).toApart
  unfold Chip.placed
  rw [h.positionStep, h.fbkBoundary]

theorem served_common : (c.served k x).common = c.common := by
  have h := (common_farApart k).toApart
  unfold Chip.served
  rw [h.switchStep, h.serviceStep, placed_common]

theorem doorsLatched_common : (c.doorsLatched k x).common = c.common := by
  have h := (common_farApart k).toApart
  unfold Chip.doorsLatched
  rw [h.doorBoundary _ (carOfDoor_rearDoor k), h.doorBoundary _ (carOfDoor_frontDoor k), h.floorStep, served_common]

theorem enablesLatched_common : (c.enablesLatched k x).common = c.common := by
  have h := (common_farApart k).toApart
  unfold Chip.enablesLatched
  rw [h.enableLatch, h.car]
  unfold Chip.tapsLatched
  rw [foldFin_keeps Chip.common _ fun i d => h.tapLatch d i _, doorsLatched_common]

theorem carConfigure_car : (c.carConfigure k).cars[k.val] = c.cars[k.val] := by simp only [(carConfigure_others c k).1]

theorem carSettled_eq : c.carSettled k x =
    (((c.enablesLatched k x).modCar k fun y =>
      { y with run := ((c.enablesLatched k x).cars[k.val]).run.after ((c.enablesLatched k x).rests k) }).modCar k
        fun y => y.scheduled c.dev.wall).carConfigure k := by
  have dev : (c.enablesLatched k x).dev = c.dev := congrArg Common.dev (enablesLatched_common c k x)
  unfold Chip.carSettled
  rw [carLatch_eq, scheduleStep_eq, runTimeStep_eq, Chip.modCar_dev, dev]

theorem carSettled_car : (c.carSettled k x).cars[k.val] =
    ({ (c.enablesLatched k x).cars[k.val] with
      run := ((c.enablesLatched k x).cars[k.val]).run.after ((c.enablesLatched k x).rests k) } : Car).scheduled c.dev.wall := by
  rw [carSettled_eq, carConfigure_car, Chip.modCar_cars, upd_same, Chip.modCar_cars, upd_same]

theorem carSettled_others : (c.carSettled k x).doors = (c.doorsLatched k x).doors ∧ (c.carSettled k x).taps = (c.tapsLatched k x).taps ∧
    (c.carSettled k x).fbks = (c.served k x).fbks := by
  obtain ⟨doors, taps, fbks⟩ := enablesLatched_others c k x
  rw [carSettled_eq]
  obtain ⟨-, doors', taps', fbks'⟩ := carConfigure_others (((c.enablesLatched k x).modCar k fun y =>
    { y with run := ((c.enablesLatched k x).cars[k.val]).run.after ((c.enablesLatched k x).rests k) }).modCar k
      fun y => y.scheduled c.dev.wall) k
  rw [doors', taps', fbks']
  simp only [Chip.modCar_doors, Chip.modCar_taps, Chip.modCar_fbks]
  exact ⟨doors, taps, fbks⟩

theorem carSettled_axis (a : AxisId) : ((c.carSettled k x).axes[a.val]).st = ((c.enablesLatched k x).axes[a.val]).st ∧
    ((c.carSettled k x).axes[a.val]).e = ((c.enablesLatched k x).axes[a.val]).e := by
  rw [carSettled_eq]
  exact carConfigure_axis _ k a

/-- What is latched of the car behind its level is its interlock, its drive port, its run and its mode. -/
theorem carSettled_bare : ((c.carSettled k x).cars[k.val]).bare = (((c.served k x).floorStep k).cars[k.val]).bare := by
  rw [carSettled_car, scheduled_bare]
  exact bare_of_unlinked (enablesLatched_unlinked c k x)

theorem carSettled_site : ((c.carSettled k x).cars[k.val]).site = ((c.placed k).cars[k.val]).site := by
  obtain ⟨zone, relev, h⟩ := floorStep_car (c.served k x) k
  rw [site_of_bare (carSettled_bare c k x), h]
  have e := site_of_unslipped (served_unslipped c k x)
  exact e

theorem carSettled_standing : ((c.carSettled k x).cars[k.val]).standing = ((c.served k x).cars[k.val]).standing := by
  obtain ⟨zone, relev, h⟩ := floorStep_car (c.served k x) k
  rw [standing_of_bare (carSettled_bare c k x), h]
  rfl

theorem placed_unplaced : ((c.placed k).cars[k.val]).unplaced = (c.cars[k.val]).unplaced := by
  obtain ⟨accel, h⟩ := placed_car c k
  rw [h]
  exact placedBy_unplaced ..

theorem floored_ilk : (((c.served k x).floorStep k).cars[k.val]).ilk = (c.cars[k.val]).ilk := by
  obtain ⟨zone, relev, h⟩ := floorStep_car (c.served k x) k
  rw [h]
  have e := (ilk_of_unslipped (served_unslipped c k x)).trans (ilk_of_unplaced (placed_unplaced c k))
  exact e

theorem enablesLatched_itinerary : ((c.enablesLatched k x).cars[k.val]).itinerary = (c.cars[k.val]).itinerary := by
  obtain ⟨zone, relev, h⟩ := floorStep_car (c.served k x) k
  rw [itinerary_of_unlinked (enablesLatched_unlinked c k x), h]
  have e := (itinerary_of_unslipped (served_unslipped c k x)).trans (itinerary_of_unplaced (placed_unplaced c k))
  exact e

end

end Sys2Proof.Machine
end

section
/-! What each clause reads of a car that stays on, behind its boundary (R228, R242, R249, R256, R262, R264, R270, R275, R297 to R309). -/

namespace Sys2Proof.Machine

section

variable {y z : Car}

theorem table_of_site (h : y.site = z.site) : y.table = z.table := congrArg (fun p => p.2.2.2) h
theorem pos_of_site (h : y.site = z.site) : y.pos = z.pos := congrArg (fun p => p.1) h
theorem speed_of_site (h : y.site = z.site) : y.speed = z.speed := congrArg (fun p => p.2.1) h
theorem landing_of_site (h : y.site = z.site) : y.landing = z.landing := congrArg (fun p => p.2.2.1) h
theorem landings_of_site (h : y.site = z.site) : y.landings = z.landings := by simp only [Car.landings, table_of_site h]

end

section

variable (c : Chip) (k : CarId) (x : TickInputs)

/-! ### Position, nearest landing and level (R256) -/

theorem carSettled_place :
    ((c.carSettled k x).cars[k.val]).pos = BitVec.ofInt 32 ((c.carSettled k x).fbks[(machine k).val]).measured ∧
    ((c.carSettled k x).cars[k.val]).speed = ((c.carSettled k x).fbks[(machine k).val]).speed ∧
    ((c.carSettled k x).cars[k.val]).landing =
      BitVec.ofNat 8 (((c.carSettled k x).cars[k.val]).nearestLanding ((c.carSettled k x).cars[k.val]).pos) := by
  obtain ⟨accel, h⟩ := placed_car c k
  obtain ⟨pos, speed, landing⟩ := placedBy_place c.cars[k.val] ((c.fbkBoundary k).fbks[(machine k).val]) accel
  rw [← h] at pos speed landing
  have site := carSettled_site c k x
  have fbk : (c.carSettled k x).fbks[(machine k).val] = (c.fbkBoundary k).fbks[(machine k).val] := by
    simp only [(carSettled_others c k x).2.2]
    exact (served_others c k x).2.2
  rw [fbk, pos_of_site site, speed_of_site site, landing_of_site site, nearestLanding_congr (table_of_site site)]
  exact ⟨pos, speed, landing⟩

/-- The level of a car, in the words of R256. -/
theorem levelOf_iff : c.levelOf k = true ↔ ∃ l w, (c.cars[k.val]).landing? (c.cars[k.val]).landing.toNat = some l ∧
    c.sps.get (.car 4 k) = some w ∧ ((c.cars[k.val]).pos.toInt - l.p.toInt).natAbs ≤ w.toNat := by
  unfold Chip.levelOf
  cases (c.cars[k.val]).landing? (c.cars[k.val]).landing.toNat with
  | none => simp
  | some l =>
    cases c.sps.get (.car 4 k) with
    | none => simp
    | some w => simp

theorem carSettled_level : ((c.carSettled k x).cars[k.val]).level = true ↔
    ∃ l w, ((c.carSettled k x).cars[k.val]).landing? ((c.carSettled k x).cars[k.val]).landing.toNat = some l ∧
      c.sps.get (.car 4 k) = some w ∧ (((c.carSettled k x).cars[k.val]).pos.toInt - l.p.toInt).natAbs ≤ w.toNat := by
  obtain ⟨zone, relev, h⟩ := floorStep_car (c.served k x) k
  have level : ((c.carSettled k x).cars[k.val]).level = (c.served k x).levelOf k := by
    rw [level_of_bare (carSettled_bare c k x), h]
  have site : ((c.carSettled k x).cars[k.val]).site = ((c.served k x).cars[k.val]).site :=
    (carSettled_site c k x).trans (site_of_unslipped (served_unslipped c k x)).symm
  have sps : (c.served k x).sps = c.sps := congrArg Common.sps (served_common c k x)
  rw [level, levelOf_iff, sps]
  simp only [Car.landing?, landings_of_site site, landing_of_site site, pos_of_site site]

/-! ### Run time and mode (R264, R270) -/

theorem rests_iff : c.rests k = true ↔ ((c.axes[(carAxis k).val]).st = .idle ∨ (c.axes[(carAxis k).val]).st = .held) ∧
    (c.cars[k.val]).speed = 0 ∧ ∃ w, c.sps.get (.car 4 k) = some w ∧
      ((c.cars[k.val]).pos.toInt * unit - (c.axes[(carAxis k).val]).e.toInt).natAbs ≤ w.toNat * 2 ^ 48 := by
  unfold Chip.rests
  cases c.sps.get (.car 4 k) with
  | none => simp
  | some w => simp [and_assoc]

theorem enablesLatched_site : ((c.enablesLatched k x).cars[k.val]).site = ((c.carSettled k x).cars[k.val]).site := by
  rw [carSettled_car]
  exact (site_of_bare (scheduled_bare _ _ _)).symm

theorem carSettled_run (z : Car) (hz : z.itinerary = (c.cars[k.val]).itinerary) :
    let y := (c.carSettled k x).cars[k.val]
    let a := (c.carSettled k x).axes[(carAxis k).val]
    let rests := (a.st = .idle ∨ a.st = .held) ∧ y.speed = 0 ∧
      ∃ w, c.sps.get (.car 4 k) = some w ∧ (y.pos.toInt * unit - a.e.toInt).natAbs ≤ w.toNat * 2 ^ 48
    (z.run.running = false → y.run = z.run) ∧ (z.run.running = true → rests → y.run = { z.run with running := false }) ∧
    (z.run.running = true → ¬ rests → y.run = { z.run with ticks := satInc z.run.ticks }) := by
  intro y a rests
  have start : ((c.enablesLatched k x).cars[k.val]).run = z.run :=
    (congrArg Itinerary.run (enablesLatched_itinerary c k x)).trans (congrArg Itinerary.run hz).symm
  have run : y.run = z.run.after ((c.enablesLatched k x).rests k) := by
    simp only [y]
    rw [carSettled_car, (scheduled_run _ _).1, start]
  have rests_ : (c.enablesLatched k x).rests k = true ↔ rests := by
    have sps : (c.enablesLatched k x).sps = c.sps := congrArg Common.sps (enablesLatched_common c k x)
    obtain ⟨st, e⟩ := carSettled_axis c k x (carAxis k)
    rw [rests_iff, sps, pos_of_site (enablesLatched_site c k x), speed_of_site (enablesLatched_site c k x), ← st, ← e]
  rw [run, RunTime.after]
  refine ⟨fun idle => ?_, fun runs still => ?_, fun runs going => ?_⟩
  · rw [if_neg (by simp [idle])]
  · rw [if_pos runs, if_pos (rests_.2 still)]
  · rw [if_pos runs, if_neg fun h => going (rests_.1 h)]

theorem carSettled_mode (z : Car) (hz : z.itinerary = (c.cars[k.val]).itinerary) :
    let y := (c.carSettled k x).cars[k.val]
    (z.schedule = none ∨ z.modeHold = true → y.mode = z.mode ∧ y.schedSel = z.schedSel) ∧
    ∀ t e, z.schedule = some t → z.modeHold = false → t.select c.dev.wall = some e →
      y.schedSel = some e ∧ (z.schedSel = some e → y.mode = z.mode ∧ y.modeSrc = z.modeSrc) ∧
      (z.schedSel ≠ some e → y.mode = e.2 ∧ y.modeSrc = true) := by
  intro y
  have same := (enablesLatched_itinerary c k x).trans hz.symm
  have schedule := congrArg Itinerary.schedule same
  have modeHold := congrArg Itinerary.modeHold same
  have mode := congrArg Itinerary.mode same
  have modeSrc := congrArg Itinerary.modeSrc same
  have schedSel := congrArg Itinerary.schedSel same
  simp only [Car.itinerary] at schedule modeHold mode modeSrc schedSel
  have h := scheduled_mode ({ (c.enablesLatched k x).cars[k.val] with
    run := ((c.enablesLatched k x).cars[k.val]).run.after ((c.enablesLatched k x).rests k) } : Car) c.dev.wall
  rw [← carSettled_car] at h
  simp only [schedule, modeHold, mode, modeSrc, schedSel] at h
  exact h

/-! ### Enables (R309) -/

/-- The interlock of a car as the enables find it: its own, with the clamps of this tick. -/
theorem tapsLatched_unclamped : ({ (c.cars[k.val]).ilk with clampLive := 0, clampSticky := 0, winTaps := 0 } : Ilk) =
    { ((c.tapsLatched k x).cars[k.val]).ilk with clampLive := 0, clampSticky := 0, winTaps := 0 } := by
  have doors : (c.doorsLatched k x).cars[k.val] = ((c.served k x).floorStep k).cars[k.val] := by
    simp only [(doorsLatched_others c k x).1]
  have h := congrArg Car.ilk (tapsLatched_others c k x).2.2
  rw [doors] at h
  simp only [Car.unclamped, floored_ilk] at h
  exact h.symm

theorem carSettled_ilk : ({ ((c.carSettled k x).cars[k.val]).ilk with test := none, pulseRun := 0 } : Ilk) =
    { ((c.tapsLatched k x).cars[k.val]).ilk.latch x.pads[k.val] x.readbacks[k.val] with test := none, pulseRun := 0 } := by
  rw [carSettled_car, (scheduled_run _ _).2]
  have h := congrArg Car.ilk (enablesLatched_untested c k x)
  exact h

theorem carSettled_enables (z : Ilk) (hz : z = (c.cars[k.val]).ilk) :
    let i := ((c.carSettled k x).cars[k.val]).ilk
    i.pad = x.pads[k.val] ∧ i.out = x.pads[k.val] ∧ i.rb = x.readbacks[k.val] ∧ ∀ e : Fin 3,
      let bad := z.skip[e.val] = 0 ∧ ((x.pads[k.val]).getLsbD e.val ≠ z.permit.getLsbD e.val ∨
        (x.readbacks[k.val]).getLsbD e.val ≠ z.permit.getLsbD e.val)
      (i.mismatch.getLsbD e.val = true ↔ bad) ∧ (i.twice.getLsbD e.val = true ↔ bad ∧ z.missed.getLsbD e.val = true) ∧
      i.skip[e.val] = (if z.skip[e.val] = 0 then 0 else z.skip[e.val] - 1) := by
  subst hz
  have found := tapsLatched_unclamped c k x
  have permit := congrArg Ilk.permit found
  have skip := congrArg Ilk.skip found
  have missed := congrArg Ilk.missed found
  have latched := carSettled_ilk c k x
  have pad := congrArg Ilk.pad latched
  have out := congrArg Ilk.out latched
  have rb := congrArg Ilk.rb latched
  have mismatch := congrArg Ilk.mismatch latched
  have twice := congrArg Ilk.twice latched
  have skip' := congrArg Ilk.skip latched
  simp only at permit skip missed pad out rb mismatch twice skip'
  refine ⟨pad, out, rb, fun e => ?_⟩
  rw [mismatch, twice, permit, skip, missed]
  simp only [skip']
  exact ⟨latch_mismatch .., latch_twice .., latch_skip ..⟩

/-! ### Taps (R297 to R301) -/

theorem latch_code (u : Tap) (h : ThWin) (v : Byte) : (u.latch h v).code = v := rfl

theorem tapLatched_code (s : TapId) (v : Byte) : (c.tapLatched s v).code = v := by
  unfold Chip.tapLatched
  split
  · rfl
  · exact latch_code ..

theorem tapLatched_idle (i : Fin 8) (v : Byte) (idle : c.tapUsed (carTap k i) = false ∨ c.thWin k = none) : c.tapLatched (carTap k i) v =
    { c.taps[(carTap k i).val] with code := v, tracking := false, outWin := false, high := false } := by
  have none_ : (if c.tapUsed (carTap k i) then c.thWin (carOfTap (carTap k i)) else none) = none := by
    rw [carOfTap_carTap]
    rcases idle with h | h <;> simp [h]
  unfold Chip.tapLatched
  rw [none_]

theorem tapLatched_used (i : Fin 8) (v : Byte) {h : ThWin} (used : c.tapUsed (carTap k i) = true) (win : c.thWin k = some h) :
    c.tapLatched (carTap k i) v = (c.taps[(carTap k i).val]).latch h v := by
  have some_ : (if c.tapUsed (carTap k i) then c.thWin (carOfTap (carTap k i)) else none) = some h := by
    rw [carOfTap_carTap, if_pos used, win]
  unfold Chip.tapLatched
  rw [some_]

theorem carSettled_tap (i : Fin 8) :
    let w := (c.carSettled k x).taps[(carTap k i).val]
    let u := c.taps[(carTap k i).val]
    let mv := (x.tapMv[(carTap k i).val]).toNat
    let y := ((c.carSettled k x).cars[k.val]).ilk
    let live := y.clampLive.getLsbD i.val
    (5000 < mv → w.code = 255) ∧ (mv ≤ 5000 → ((w.code.toNat : Int) - (min 255 (mv * 256 / 5000) : Nat)).natAbs ≤ 2) ∧
    (5250 < mv → live = true) ∧ (mv ≤ 5150 → live = false) ∧
    y.clampSticky.getLsbD i.val = ((c.cars[k.val]).ilk.clampSticky.getLsbD i.val || live) ∧
    (c.tapUsed (carTap k i) = false ∨ c.thWin k = none →
      w = { u with code := w.code, tracking := false, outWin := false, high := false }) ∧
    ∀ h, c.tapUsed (carTap k i) = true → c.thWin k = some h → w = u.latch h w.code := by
  obtain ⟨err, live, high, low, tap, clampLive, clampSticky⟩ :=
    tapLatches_at (c.doorsLatched k x) k (fun i => x.tapMv[(carTap k i).val]) i
  have sps : (c.doorsLatched k x).sps = c.sps := congrArg Common.sps (doorsLatched_common c k x)
  have latched := carSettled_ilk c k x
  have live' := congrArg Ilk.clampLive latched
  have sticky' := congrArg Ilk.clampSticky latched
  have ilk : ((c.doorsLatched k x).cars[k.val]).ilk = (c.cars[k.val]).ilk := by
    simp only [(doorsLatched_others c k x).1]
    exact floored_ilk c k x
  have w : (c.carSettled k x).taps[(carTap k i).val] =
      c.tapLatched (carTap k i) (tapCode x.tapMv[(carTap k i).val] (smallError err)) := by
    simp only [(carSettled_others c k x).2.1]
    unfold Chip.tapsLatched
    rw [tap, tapLatched_congr c _ sps]
    simp only [(doorsLatched_others c k x).2.1]
  have clamp : (((c.carSettled k x).cars[k.val]).ilk.clampLive.getLsbD i.val = live) ∧
      ((c.carSettled k x).cars[k.val]).ilk.clampSticky.getLsbD i.val = ((c.cars[k.val]).ilk.clampSticky.getLsbD i.val || live) := by
    rw [show ((c.carSettled k x).cars[k.val]).ilk.clampLive = ((c.tapsLatched k x).cars[k.val]).ilk.clampLive from live',
      show ((c.carSettled k x).cars[k.val]).ilk.clampSticky = ((c.tapsLatched k x).cars[k.val]).ilk.clampSticky from sticky', ← ilk]
    unfold Chip.tapsLatched
    exact ⟨clampLive, clampSticky⟩
  dsimp only
  rw [w, clamp.1, tapLatched_code]
  exact ⟨tapCode_high _, tapCode_near err, high, low, clamp.2, tapLatched_idle c k i _, fun h used win => tapLatched_used c k i _ used win⟩

end

end Sys2Proof.Machine
end

section
/-! What each clause reads of a car that stays on: its doors, its switch, its service and the settings in force
(R228, R242, R249, R262, R272, R275, R386). -/

namespace Sys2Proof.Machine

section

variable {y z : Car}

theorem on_of_unslipped (h : y.unslipped = z.unslipped) : y.on = z.on := by
  have e := congrArg Car.on h
  exact e
theorem on_of_unplaced (h : y.unplaced = z.unplaced) : y.on = z.on := by
  have e := congrArg Car.on h
  exact e

end

section

variable (c : Chip) (k : CarId) (x : TickInputs)

/-! ### Doors (R272, R275) -/

theorem floored_on : (((c.served k x).floorStep k).cars[k.val]).on = (c.cars[k.val]).on := by
  obtain ⟨zone, relev, h⟩ := floorStep_car (c.served k x) k
  have e := (on_of_unslipped (served_unslipped c k x)).trans (on_of_unplaced (placed_unplaced c k))
  rw [h]
  exact e

theorem floored_doors : ((c.served k x).floorStep k).doors = c.doors :=
  (floorStep_others (c.served k x) k).1.trans (served_others c k x).1

theorem floored_common : ((c.served k x).floorStep k).common = c.common := by
  rw [(common_farApart k).toApart.floorStep, served_common]

theorem frontDoor_ne_rearDoor : frontDoor k ≠ rearDoor k := fun h => by
  have := congrArg Fin.val h
  simp only [frontDoor, rearDoor] at this
  omega

/-- The stored settings of a door are in force behind the boundary (R272). -/
theorem carSettled_doorSettings {d : DoorId} (own : d = frontDoor k ∨ d = rearDoor k) : ((c.carSettled k x).doors[d.val]).settings =
    ((c.doors[d.val]).cfg, (c.doors[d.val]).cfg, (c.doors[d.val]).zeroU, (c.doors[d.val]).zeroV) := by
  have start (d : DoorId) : ((c.served k x).floorStep k).doors[d.val] = c.doors[d.val] := by simp only [floored_doors]
  simp only [(carSettled_others c k x).1]
  unfold Chip.doorsLatched
  rcases own with rfl | rfl
  · rw [doorBoundary_settings_other _ _ _ (frontDoor_ne_rearDoor k), doorBoundary_settings, start]
  · rw [doorBoundary_settings]
    have other := doorBoundary_settings_other ((c.served k x).floorStep k) (frontDoor k) x.current[(frontDoor k).val]
      (frontDoor_ne_rearDoor k).symm
    rw [start] at other
    simp only [Door.settings, Prod.mk.injEq] at other
    obtain ⟨cfg, -, zeroU, zeroV⟩ := other
    rw [cfg, zeroU, zeroV]

/-- A current lies above the bound of R275. -/
theorem currentHigh_of {d : DoorId} {cur : BitVec 12 × BitVec 12} {q : Door} (same : q.settings = (c.doors[d.val]).settings) {m : Word}
    (bound : c.sps.get (.door 0 d) = some m)
    (above : 3 * m.toNat < 2 * (inputCurrent q cur.1 q.zeroU).toInt.natAbs ∨
      (q.act.type ≠ .bdc ∧ 3 * m.toNat < 2 * (inputCurrent q cur.2 q.zeroV).toInt.natAbs)) : c.currentHigh d cur = true := by
  simp only [Door.settings, Prod.mk.injEq] at same
  obtain ⟨-, act, zeroU, zeroV⟩ := same
  simp only [inputCurrent, act, zeroU, zeroV] at above
  have high (i : BitVec 16) (h : 3 * m.toNat < 2 * i.toInt.natAbs) : c.overCurrent d i = true := by simp [Chip.overCurrent, bound, h]
  unfold Chip.currentHigh
  rcases above with u | ⟨three, v⟩
  · simp [inputCurrent, high _ u]
  · simp [inputCurrent, high _ v, three]

/-- The boundary of a door that reads a current above its bound faults it (R275). -/
theorem doorBoundary_overCurrent {b : Chip} {d : DoorId} {cur : BitVec 12 × BitVec 12} {q : Door} {m : Word}
    (settings : q.settings = ((b.doors[d.val]).cfg, (b.doors[d.val]).cfg, (b.doors[d.val]).zeroU, (b.doors[d.val]).zeroV))
    (bound : b.sps.get (.door 0 d) = some m)
    (above : 3 * m.toNat < 2 * (inputCurrent q cur.1 q.zeroU).toInt.natAbs ∨
      (q.act.type ≠ .bdc ∧ 3 * m.toNat < 2 * (inputCurrent q cur.2 q.zeroV).toInt.natAbs))
    (used : (b.doors[d.val]).cfg.type ≠ .none) (on : (b.cars[(carOfDoor d).val]).on = true) (running : b.running = true)
    (before : (b.doors[d.val]).st ≠ .fault ∨ (b.doors[d.val]).FaultedWith 9 (b.stamp 0)) :
    ((b.doorBoundary d cur).doors[d.val]).FaultedWith 2 (b.stamp 0) := by
  refine doorBoundary_trips cur used on running (currentHigh_of _ (q := q) ?_ (m := m) ?_ above) before
  · rw [settings, doorMeasured_settings]
  · have sps : (b.doorMeasured d cur).sps = b.sps := congrArg Common.sps (doorMeasured_common cur)
    rw [sps]
    exact bound

theorem stamp_of_common {b c : Chip} (h : b.common = c.common) : b.stamp 0 = c.stamp 0 := by
  have dev : b.dev = c.dev := congrArg Common.dev h
  have lnk : b.lnk = c.lnk := congrArg Common.lnk h
  simp only [Chip.stamp, dev, lnk]

theorem running_of_common {b c : Chip} (h : b.common = c.common) : b.running = c.running := by
  have dev : b.dev = c.dev := congrArg Common.dev h
  simp only [Chip.running, dev]

/-- Over-current faults the door that shows it, whichever of the two it is, and whatever a cam carries between them (R275, R292). -/
theorem doorPair_overCurrent {b : Chip} {d : DoorId} (cur : DoorId → BitVec 12 × BitVec 12) (own : d = frontDoor k ∨ d = rearDoor k)
    {q : Door} {m : Word}
    (settings : q.settings = ((b.doors[d.val]).cfg, (b.doors[d.val]).cfg, (b.doors[d.val]).zeroU, (b.doors[d.val]).zeroV))
    (bound : b.sps.get (.door 0 d) = some m)
    (above : 3 * m.toNat < 2 * (inputCurrent q (cur d).1 q.zeroU).toInt.natAbs ∨
      (q.act.type ≠ .bdc ∧ 3 * m.toNat < 2 * (inputCurrent q (cur d).2 q.zeroV).toInt.natAbs))
    (used : (b.doors[d.val]).cfg.type ≠ .none) (on : (b.cars[k.val]).on = true) (running : b.running = true)
    (runs : (b.doors[d.val]).st ≠ .fault) :
    (((b.doorBoundary (frontDoor k) (cur (frontDoor k))).doorBoundary (rearDoor k) (cur (rearDoor k))).doors[d.val]).FaultedWith 2
      (b.stamp 0) := by
  have common : (b.doorBoundary (frontDoor k) (cur (frontDoor k))).common = b.common :=
    (common_farApart k).toApart.doorBoundary b (carOfDoor_frontDoor k) _
  rcases own with rfl | rfl
  · have first := doorBoundary_overCurrent settings bound above used (by simpa only [carOfDoor_frontDoor] using on) running (.inl runs)
    rw [← stamp_of_common common] at first ⊢
    have stays := doorBoundary_stays (d := rearDoor k) (cur (rearDoor k)) (c := b.doorBoundary (frontDoor k) (cur (frontDoor k)))
    simp only [otherDoor_rearDoor] at stays
    exact stays first
  · have beside := doorBoundary_couples (d := frontDoor k) (cur (frontDoor k)) (c := b)
    simp only [otherDoor_frontDoor] at beside
    have same := doorBoundary_settings_other b (frontDoor k) (cur (frontDoor k)) (frontDoor_ne_rearDoor k).symm
    simp only [Door.settings, Prod.mk.injEq] at same
    obtain ⟨cfg, -, zeroU, zeroV⟩ := same
    have before := beside runs
    generalize hb : b.doorBoundary (frontDoor k) (cur (frontDoor k)) = b1 at *
    rw [← stamp_of_common common] at before ⊢
    refine doorBoundary_overCurrent (q := q) ?_ (m := m) ?_ above ?_ ?_ ?_ before
    · rw [settings, cfg, zeroU, zeroV]
    · have sps : b1.sps = b.sps := congrArg Common.sps common
      rw [sps]
      exact bound
    · rw [cfg]
      exact used
    · have cars : b1.cars = b.cars := by rw [← hb]; exact (doorBoundary_others b _ _).1
      simp only [carOfDoor_rearDoor, cars]
      exact on
    · rw [running_of_common common]
      exact running

theorem carSettled_overCurrent (on : (c.cars[k.val]).on = true) (running : c.running = true) {d : DoorId}
    (own : d = frontDoor k ∨ d = rearDoor k) (used : (c.doors[d.val]).cfg.type ≠ .none) (runs : (c.doors[d.val]).st ≠ .fault) {m : Word}
    (bound : c.sps.get (.door 0 d) = some m)
    (above : 3 * m.toNat < 2 * (inputCurrent ((c.carSettled k x).doors[d.val]) (x.current[d.val]).1
        ((c.carSettled k x).doors[d.val]).zeroU).toInt.natAbs ∨
      (((c.carSettled k x).doors[d.val]).act.type ≠ .bdc ∧ 3 * m.toNat < 2 * (inputCurrent ((c.carSettled k x).doors[d.val])
        (x.current[d.val]).2 ((c.carSettled k x).doors[d.val]).zeroV).toInt.natAbs)) :
    ((c.carSettled k x).doors[d.val]).FaultedWith 2 (c.stamp 0) := by
  have settings := carSettled_doorSettings c k x own
  have common := floored_common c k x
  have start : ((c.served k x).floorStep k).doors[d.val] = c.doors[d.val] := by simp only [floored_doors]
  have sps : ((c.served k x).floorStep k).sps = c.sps := congrArg Common.sps common
  have latched : (c.carSettled k x).doors[d.val] = (((((c.served k x).floorStep k).doorBoundary (frontDoor k)
      x.current[(frontDoor k).val]).doorBoundary (rearDoor k) x.current[(rearDoor k).val])).doors[d.val] := by
    simp only [(carSettled_others c k x).1]
    unfold Chip.doorsLatched
    rfl
  have faulted := doorPair_overCurrent k (b := (c.served k x).floorStep k) (fun d => x.current[d.val]) own
    (q := (c.carSettled k x).doors[d.val]) (m := m) (by rw [start, settings]) (by rw [sps, bound]) above (by rw [start]; exact used)
    (by rw [floored_on]; exact on) ((running_of_common common).trans running) (by rw [start]; exact runs)
  rw [stamp_of_common common] at faulted
  rw [latched]
  exact faulted

/-! ### The switch (R228, R262) -/

theorem configured_latch (f : Fbk) (l len : Nat) (tick : BitVec 48) : (f.configure.latch l len tick).act = f.cfg ∧
    (f.configure.latch l len tick).cfg = f.cfg := by
  simp only [Fbk.latch, Fbk.configure]
  split <;> exact ⟨rfl, rfl⟩

/-- The car behind an accepted request, as the switch finds it. -/
theorem requested_others : ((c.placed k).serviceStep k).common = c.common ∧
    ((c.placed k).serviceStep k).fbks[(hoistway k).val] =
      (c.fbks[(hoistway k).val]).configure.latch (c.stamp 0) c.lnk.ticklen.toNat c.dev.tick ∧
    (((c.placed k).serviceStep k).cars[k.val]).site = ((c.carSettled k x).cars[k.val]).site ∧
    (((c.placed k).serviceStep k).cars[k.val]).slipChecks = (c.cars[k.val]).slipChecks := by
  have unfaulted := serviceStep_unfaulted (c.placed k) k
  refine ⟨?_, ?_, ?_, ?_⟩
  · rw [(common_farApart k).toApart.serviceStep, placed_common]
  · simp only [(serviceStep_others (c.placed k) k).2.2, (placed_others c k).2.2]
    exact fbkBoundary_fbk c k (.inr rfl)
  · rw [carSettled_site]
    have e := congrArg Car.site unfaulted
    exact e
  · have e := congrArg Car.slipChecks unfaulted
    have e' := congrArg Standing.slipChecks (standing_of_unplaced (placed_unplaced c k))
    exact e.trans e'

theorem nearestEdge_congr {y z : Car} (h : y.site = z.site) (p : Int) : y.nearestEdge p = z.nearestEdge p := by
  simp only [Car.nearestEdge, landings_of_site h]

theorem carSettled_switch (z : Car) (hz : z.standing = (c.cars[k.val]).standing) (mode : (c.fbks[(hoistway k).val]).cfg.mode = .switch) :
    let y := (c.carSettled k x).cars[k.val]
    let q := (c.fbks[(hoistway k).val]).configure.latch (c.stamp 0) c.lnk.ticklen.toNat c.dev.tick
    let g := q.switchLatch c.dev.tick (c.stamp 0) x.switches[k.val] y.pos
    (g.zoneLine = q.zoneLine → (c.carSettled k x).fbks[(hoistway k).val] = g ∧ y.slipChecks = z.slipChecks) ∧
    (g.zoneLine ≠ q.zoneLine → (c.carSettled k x).fbks[(hoistway k).val] = { g with t0 := none } ∧
      ∀ edge, z.goto = none → z.service = .homing ∨ z.service = .inspect ∨ z.service = .in_ →
        y.nearestEdge (g.t0.getD y.pos).toInt = some edge →
        let e := (g.t0.getD y.pos).toInt - edge
        y.slipLast = clampInt 20 e ∧ y.slipChecks = z.slipChecks + 1 ∧
        ∀ w, c.sps.get (.car 6 k) = some w → w.toNat < e.natAbs → y.service = .stoppedFault ∧ y.faultCause = 1) := by
  obtain ⟨common, fbk, site, checks⟩ := requested_others c k x
  have standing := carSettled_standing c k x
  have checksZ : (c.cars[k.val]).slipChecks = z.slipChecks := (congrArg Standing.slipChecks hz).symm
  have fbkEnd : (c.carSettled k x).fbks[(hoistway k).val] = (c.served k x).fbks[(hoistway k).val] := by
    simp only [(carSettled_others c k x).2.2]
  have standingPlaced := (standing_of_unplaced (placed_unplaced c k)).trans hz.symm
  intro y q g
  have still (idle : z.goto = none) : (c.placed k).serviceStep k = c.placed k :=
    serviceStep_none _ k ((congrArg Standing.goto standingPlaced).trans idle)
  have served : c.served k x = ((c.placed k).serviceStep k).switchStep k x.switches[k.val] := by unfold Chip.served; rfl
  generalize hb : (c.placed k).serviceStep k = b at *
  have dev : b.dev = c.dev := congrArg Common.dev common
  have sps : b.sps = c.sps := congrArg Common.sps common
  have pos : (b.cars[k.val]).pos = y.pos := pos_of_site site
  have switched : b.switched k x.switches[k.val] = g := by
    simp only [Chip.switched, fbk, dev, stamp_of_common common, pos]
    rfl
  have place : b.zonePlace k x.switches[k.val] = g.t0.getD y.pos := by rw [Chip.zonePlace, switched, pos]
  have mode' : (b.fbks[(hoistway k).val]).act.mode = .switch := by
    rw [fbk, (configured_latch _ _ _ _).1]
    exact mode
  have slipChecks : y.slipChecks = ((c.served k x).cars[k.val]).slipChecks := congrArg Standing.slipChecks standing
  rw [fbkEnd]
  refine ⟨fun same => ?_, fun differs => ?_⟩
  · have eq := switchStep_same b k mode' (by rw [switched, fbk]; exact same)
    rw [switched] at eq
    rw [slipChecks, served, eq]
    refine ⟨upd_same .., ?_⟩
    rw [Chip.modFbk_cars, checks, checksZ]
  · obtain ⟨fbk', slip⟩ := switchStep_change b k mode' (by rw [switched, fbk]; exact differs)
    rw [switched] at fbk'
    rw [served]
    refine ⟨fbk', fun edge idle moves near => ?_⟩
    have service : (b.cars[k.val]).service = z.service := by
      rw [still idle]
      exact congrArg Standing.service standingPlaced
    have slip := slip edge (by rw [service]; exact moves) (by rw [nearestEdge_congr site, place]; exact near)
    rw [place, checks, checksZ, sps, ← served] at slip
    obtain ⟨last, count, far⟩ := slip
    refine ⟨(congrArg Standing.slipLast standing).trans last, slipChecks.trans count, fun w hw out => ?_⟩
    obtain ⟨stopped, cause⟩ := far w hw out
    exact ⟨(congrArg Standing.service standing).trans stopped, (congrArg Standing.faultCause standing).trans cause⟩

/-! ### Service (R249) -/

theorem carSettled_service (z : Car) (hz : z.standing = (c.cars[k.val]).standing) (dest : Service) (asked : z.goto = some dest) :
    ((c.carSettled k x).cars[k.val]).goto = none ∧
    (((c.carSettled k x).cars[k.val]).faultActive = false → ((c.carSettled k x).cars[k.val]).service = dest) := by
  have standing := carSettled_standing c k x
  have goto : ((c.placed k).cars[k.val]).goto = some dest :=
    (congrArg Standing.goto ((standing_of_unplaced (placed_unplaced c k)).trans hz.symm)).trans asked
  obtain ⟨idle, reached⟩ := serviceStep_reaches _ k goto
  obtain ⟨idle', settled⟩ := switchStep_settled _ k x.switches[k.val] idle
  have served : c.served k x = ((c.placed k).serviceStep k).switchStep k x.switches[k.val] := by unfold Chip.served; rfl
  rw [← served] at idle' settled
  refine ⟨(congrArg Standing.goto standing).trans idle', fun calm => ?_⟩
  have calm' : ((c.served k x).cars[k.val]).faultActive = false := (congrArg Standing.faultActive standing).symm.trans calm
  rcases settled with active | same
  · rw [calm'] at active
    exact absurd active (by decide)
  · exact (congrArg Standing.service standing).trans (same.trans reached)

end

end Sys2Proof.Machine
end

section
/-! The settings in force behind the boundary of a car, and a car that is switched off at it (R90, R193, R242, R386). -/

namespace Sys2Proof.Machine

section

variable (c : Chip) (k : CarId) (x : TickInputs)

/-! ### Settings in force (R386) -/

/-- A fold of loop boundaries puts the stored settings of each loop of the list in force. -/
theorem loopFold_act (off low : Chip → LoopId → Bool) (L : List LoopId) (l : LoopId) : ∀ c : Chip,
    ((L.foldl (fun c l => c.modLoop l fun x => x.boundary (off c l) (low c l)) c).loops[l.val]).cfg = (c.loops[l.val]).cfg ∧
    (((c.loops[l.val]).act = (c.loops[l.val]).cfg ∨ l ∈ L) →
      ((L.foldl (fun c l => c.modLoop l fun x => x.boundary (off c l) (low c l)) c).loops[l.val]).act = (c.loops[l.val]).cfg) := by
  induction L with
  | nil => exact fun c => ⟨rfl, fun h => h.resolve_right (List.not_mem_nil)⟩
  | cons i L ih =>
    intro c
    obtain ⟨cfg, act⟩ := ih (c.modLoop i fun x => x.boundary (off c i) (low c i))
    have kept : ((c.modLoop i fun x => x.boundary (off c i) (low c i)).loops[l.val]).cfg = (c.loops[l.val]).cfg :=
      upd_kept c.loops i _ Loop.cfg (fun x => (loopBoundary_settings x _ _).1) l
    rw [List.foldl_cons, cfg, kept]
    refine ⟨rfl, fun h => ?_⟩
    rw [act, kept]
    by_cases same : l = i
    · left
      subst same
      rw [Chip.modLoop_loops, upd_same, (loopBoundary_settings _ _ _).1, (loopBoundary_settings _ _ _).2]
    · rcases h with h | h
      · left
        rw [kept, Chip.modLoop_loops, upd_other _ _ same, h]
      · exact .inr ((List.mem_cons.1 h).resolve_left same)

/-- The device with the settings of a car's loops in force. -/
@[irreducible] def Chip.loopsConfigured (c : Chip) (k : CarId) : Chip :=
  (carLoop k :: [frontDoor k, rearDoor k].flatMap fun d => (List.finRange 3).map (doorLoop d)).foldl
    (fun c l => c.modLoop l fun x => x.boundary (c.loopForced l || !c.loopUsed l) (c.enableLow l)) c

/-- The device with the settings of a car's front ends in force. -/
@[irreducible] def Chip.fesConfigured (c : Chip) (k : CarId) : Chip := foldFin 4 (fun i c => c.modFe (carFe k i) Fe.boundary) c

theorem carConfigure_eq {β : Type} (g : Chip → β) (cal : ∀ c f, g (Chip.modCal c k f) = g c) (axis : ∀ c a f, g (Chip.modAxis c a f) = g c) :
    g (c.carConfigure k) = g ((c.loopsConfigured k).fesConfigured k) := by
  unfold Chip.carConfigure Chip.fesConfigured Chip.loopsConfigured
  dsimp only
  rw [Apart.fold (g := g) _ _ _ fun c a _ => axis c a _, cal]

theorem fesConfigured_keeps {β : Type} (g : Chip → β) (fe : ∀ c i f, g (Chip.modFe c i f) = g c) : g (c.fesConfigured k) = g c := by
  unfold Chip.fesConfigured
  exact foldFin_keeps g _ (fun i c => fe c _ _) c

theorem loopsConfigured_keeps {β : Type} (g : Chip → β) (loop : ∀ c l f, g (Chip.modLoop c l f) = g c) : g (c.loopsConfigured k) = g c := by
  unfold Chip.loopsConfigured
  exact Apart.fold (g := g) c _ _ fun c l _ => loop c l _

theorem carConfigure_loops (l : LoopId)
    (own : l ∈ carLoop k :: [frontDoor k, rearDoor k].flatMap fun d => (List.finRange 3).map (doorLoop d)) :
    ((c.carConfigure k).loops[l.val]).act = (c.loops[l.val]).cfg := by
  have h := (loopFold_act (fun c l => c.loopForced l || !c.loopUsed l) (fun c l => c.enableLow l) _ l c).2 (.inr own)
  rw [carConfigure_eq c k (fun d => (d.loops[l.val]).act) (fun _ _ => rfl) (fun _ _ _ => rfl),
    fesConfigured_keeps _ k (fun d => (d.loops[l.val]).act) fun _ _ _ => rfl]
  unfold Chip.loopsConfigured
  exact h

theorem carConfigure_fes (i : Fin 4) : ((c.carConfigure k).fes[(carFe k i).val]).act = (c.fes[(carFe k i).val]).cfg := by
  let g : Chip → FeCfg × FeCfg := fun d => ((d.fes[(carFe k i).val]).act, (d.fes[(carFe k i).val]).cfg)
  have apart (j : Fin 4) (hj : j ≠ i) : carFe k i ≠ carFe k j := fun h => hj (by
    have := congrArg Fin.val h
    simp only [carFe] at this
    exact Fin.ext (by omega))
  have start : g (c.loopsConfigured k) = g c := loopsConfigured_keeps c k g fun _ _ _ => rfl
  rw [carConfigure_eq c k (fun d => (d.fes[(carFe k i).val]).act) (fun _ _ => rfl) (fun _ _ _ => rfl)]
  generalize c.loopsConfigured k = b at start
  obtain ⟨r, same, last⟩ := foldFin_at g (fun i (c : Chip) => c.modFe (carFe k i) Fe.boundary) i (fun j hj d => by
    simp only [g, Chip.modFe_fes, upd_other _ _ (apart j hj)]) b
  have act := congrArg Prod.fst last
  have cfg := congrArg Prod.snd (same.trans start)
  simp only [g] at act cfg
  unfold Chip.fesConfigured
  rw [act, Chip.modFe_fes, upd_same, (feBoundary_settings _).2, cfg]

theorem switchStep_act (raw : BitVec 3) : ((c.switchStep k raw).fbks[(hoistway k).val]).act = (c.fbks[(hoistway k).val]).act := by
  have latched : (c.switched k raw).act = (c.fbks[(hoistway k).val]).act := (switchLatch_settings ..).2
  refine switchStep_leaves c k (fun d => (d.fbks[(hoistway k).val]).act) raw ?_ ?_ fun d e => ?_
  · rw [Chip.modFbk_fbks, upd_same]
    exact latched
  · simp only [(zoneChanged_others c k raw).2.2.2.2, upd_same]
    exact latched
  · simp only [(slipCheck_others d k e).2.2]

theorem loops_of_stored {b c : Chip} (h : b.stored = c.stored) (l : LoopId) : (b.loops[l.val]).cfg = (c.loops[l.val]).cfg :=
  congrFun (congrArg Stored.loops h) l

theorem fes_of_stored {b c : Chip} (h : b.stored = c.stored) (i : FeId) : (b.fes[i.val]).cfg = (c.fes[i.val]).cfg :=
  congrFun (congrArg Stored.fes h) i

theorem carSettled_fbks {i : FbkId} (own : i = machine k ∨ i = hoistway k) :
    ((c.carSettled k x).fbks[i.val]).act = (c.fbks[i.val]).cfg := by
  simp only [(carSettled_others c k x).2.2]
  rcases own with rfl | rfl
  · rw [(served_others c k x).2.2, fbkBoundary_fbk c k (.inl rfl), (configured_latch _ _ _ _).1]
  · unfold Chip.served
    rw [switchStep_act, (requested_others c k x).2.1, (configured_latch _ _ _ _).1]

theorem carSettled_loops (l : LoopId)
    (own : l ∈ carLoop k :: [frontDoor k, rearDoor k].flatMap fun d => (List.finRange 3).map (doorLoop d)) :
    ((c.carSettled k x).loops[l.val]).act = (c.loops[l.val]).cfg := by
  have stored : (c.carLatch k x).stored = c.stored := (stored_apart k).carLatch c x
  unfold Chip.carSettled
  rw [carConfigure_loops _ k l own]
  exact loops_of_stored stored l

theorem carSettled_fes (i : Fin 4) : ((c.carSettled k x).fes[(carFe k i).val]).act = (c.fes[(carFe k i).val]).cfg := by
  have stored : (c.carLatch k x).stored = c.stored := (stored_apart k).carLatch c x
  unfold Chip.carSettled
  rw [carConfigure_fes]
  exact fes_of_stored stored (carFe k i)

/-! ### Switch-off (R90, R193) -/

/-- A door with its axis and its loops at their reset values. -/
@[irreducible] def Chip.doorReset (c : Chip) (d : DoorId) : Chip :=
  foldFin 3 (fun s c => c.modLoop (doorLoop d s) fun _ => Loop.init (doorLoop d s))
    ((c.modDoor d fun _ => Door.init).modAxis (doorAxis d) fun _ => Axis.init (doorAxis d))

theorem doorReset_keeps {β : Type} (g : Chip → β) (d : DoorId) (loop : ∀ c l f, g (Chip.modLoop c l f) = g c) :
    g (c.doorReset d) = g ((c.modDoor d fun _ => Door.init).modAxis (doorAxis d) fun _ => Axis.init (doorAxis d)) := by
  unfold Chip.doorReset
  exact foldFin_keeps g _ (fun i c => loop c _ _) _

/-- A car and its axis at their reset values. -/
def Chip.mastReset (c : Chip) (k : CarId) : Chip :=
  (c.modCar k fun x => { x.off with islandReq := x.islandReq }).modAxis (carAxis k) fun _ => Axis.init (carAxis k)

/-- What the reset of a car leaves behind that of its axes and doors. -/
theorem resetCar_keeps {β : Type} (g : Chip → β) (fbk : ∀ c i f, g (Chip.modFbk c i f) = g c) (loop : ∀ c l f, g (Chip.modLoop c l f) = g c)
    (fe : ∀ c i f, g (Chip.modFe c i f) = g c) (tap : ∀ (c : Chip) s f, g { c with taps := upd c.taps s f } = g c)
    (cal : ∀ c f, g (Chip.modCal c k f) = g c) :
    g (c.resetCar k) = g (((c.mastReset k).doorReset (frontDoor k)).doorReset (rearDoor k)) := by
  unfold Chip.resetCar Chip.doorReset Chip.mastReset
  dsimp only
  rw [cal, foldFin_keeps g _ fun i c => tap c _ _, foldFin_keeps g _ fun i c => fe c _ _, loop, fbk, fbk]

theorem resetCar_car : (c.resetCar k).cars[k.val] = { (c.cars[k.val]).off with islandReq := (c.cars[k.val]).islandReq } := by
  let g : Chip → Car := fun d => d.cars[k.val]
  have door (c : Chip) (d : DoorId) : g (c.doorReset d) = g c := doorReset_keeps c g d fun _ _ _ => rfl
  have reset : g (c.resetCar k) = g (((c.mastReset k).doorReset (frontDoor k)).doorReset (rearDoor k)) :=
    resetCar_keeps c k g (fun _ _ _ => rfl) (fun _ _ _ => rfl) (fun _ _ _ => rfl) (fun _ _ _ => rfl) fun _ _ => rfl
  refine reset.trans ?_
  rw [door, door]
  exact upd_same ..

/-- The axes of a car: its own, and one of each door. -/
theorem carOfAxis_own {a : AxisId} (own : carOfAxis a = k) : a = carAxis k ∨ a = doorAxis (frontDoor k) ∨ a = doorAxis (rearDoor k) := by
  subst own
  unfold carOfAxis
  split
  · exact .inl rfl
  · next h =>
    right
    have parity : a.val = 12 + 2 * ((a.val - 12) / 2) ∨ a.val = 12 + (2 * ((a.val - 12) / 2) + 1) := by omega
    rcases parity with e | e
    · exact .inl (Fin.ext e)
    · exact .inr (Fin.ext e)

theorem carAxes_apart : carAxis k ≠ doorAxis (frontDoor k) ∧ carAxis k ≠ doorAxis (rearDoor k) ∧
    doorAxis (frontDoor k) ≠ doorAxis (rearDoor k) := by
  simp only [ne_eq, Fin.ext_iff, carAxis, doorAxis, frontDoor, rearDoor]
  omega

theorem resetCar_axis {a : AxisId} (own : carOfAxis a = k) : (c.resetCar k).axes[a.val] = Axis.init a := by
  let g : Chip → Axis := fun d => d.axes[a.val]
  have door (c : Chip) (d : DoorId) : g (c.doorReset d) = if a = doorAxis d then Axis.init (doorAxis d) else g c :=
    (doorReset_keeps c g d fun _ _ _ => rfl).trans (upd_at ..)
  have mast : g (c.mastReset k) = if a = carAxis k then Axis.init (carAxis k) else g c := upd_at ..
  have reset : g (c.resetCar k) = g (((c.mastReset k).doorReset (frontDoor k)).doorReset (rearDoor k)) :=
    resetCar_keeps c k g (fun _ _ _ => rfl) (fun _ _ _ => rfl) (fun _ _ _ => rfl) (fun _ _ _ => rfl) fun _ _ => rfl
  refine reset.trans ?_
  rw [door, door, mast]
  obtain ⟨apartFront, apartRear, apartDoors⟩ := carAxes_apart k
  rcases carOfAxis_own k own with rfl | rfl | rfl
  · rw [if_neg apartRear, if_neg apartFront, if_pos rfl]
  · rw [if_neg apartDoors, if_pos rfl]
  · rw [if_pos rfl]

end

end Sys2Proof.Machine
end

section
/-! The boundary of a car, in its three cases: switched off at it, on, and off (R90, R193, R249). -/

namespace Sys2Proof.Machine

/-! ### Threads of a car that goes dark (R15) -/

/-- The threads of a car. -/
theorem mem_carThreads {n : ThreadId} {k : CarId} (own : carOfThread n = some k) : n ∈ carThreads k := by
  unfold carOfThread at own
  split at own
  · obtain rfl := Option.some.inj own
    exact List.mem_cons_self
  · split at own
    · next high low =>
      obtain rfl := Option.some.inj own
      have parity : n.val = 12 + 2 * ((n.val - 12) / 2) ∨ n.val = 12 + (2 * ((n.val - 12) / 2) + 1) := by omega
      rcases parity with e | e
      · exact List.mem_cons_of_mem _ (List.mem_cons.2 (.inl (Fin.ext e)))
      · exact List.mem_cons_of_mem _ (List.mem_cons_of_mem _ (List.mem_singleton.2 (Fin.ext e)))
    · cases own

/-- A thread that neither runs nor waits. -/
def Thread.idles (x : Thread) : Prop := x.st ≠ .ready ∧ x.st ≠ .waiting

theorem darken_idles (x : Thread) : x.darken.idles := by
  unfold Thread.darken Thread.idles
  by_cases busy : (x.st = .ready || x.st = .waiting) = true
  · rw [if_pos busy]
    exact ⟨nofun, nofun⟩
  · rw [if_neg busy]
    simpa using busy

/-- Darkening the threads of a list stops each of them. -/
theorem darkenFold_idles {n : ThreadId} (l : List ThreadId) : ∀ c : Chip, (n ∈ l ∨ (c.threads[n.val]).idles) →
    ((l.foldl (fun c t => c.modThread t Thread.darken) c).threads[n.val]).idles := by
  induction l with
  | nil => exact fun c h => h.resolve_left List.not_mem_nil
  | cons t l ih =>
    refine fun c h => ih _ ?_
    by_cases same : n = t
    · right
      subst same
      rw [Chip.modThread_threads, upd_same]
      exact darken_idles _
    · rcases h with h | h
      · exact .inl ((List.mem_cons.1 h).resolve_left same)
      · right
        rw [Chip.modThread_threads, upd_other _ _ same]
        exact h

/-- Darkening threads leaves all else. -/
theorem darkenFold_keeps {β : Type} (g : Chip → β) (thread : ∀ c t f, g (Chip.modThread c t f) = g c) (c : Chip) (l : List ThreadId) :
    g (l.foldl (fun c t => c.modThread t Thread.darken) c) = g c :=
  Apart.fold (g := g) c _ l fun c t _ => thread c t _

section

variable (c : Chip) (k : CarId) (x : TickInputs)

/-! ### A car that is switched off -/

/-- The boundary of a car at which an accepted switch-off acts (R90, R193). -/
theorem carBoundary_off (off : (c.cars[k.val]).powerOff = true) : ∃ d : Chip, c.carBoundary k x =
    ((carThreads k).foldl (fun c t => c.modThread t Thread.darken) (d.resetCar k)).modCar k fun y => { y with powerFresh := false } := by
  have latched : ((c.latchPositions k).cars[k.val]).powerOff = true := by
    have cars : (c.latchPositions k).cars = c.cars := Apart.fold (g := Chip.cars) _ _ _ fun c a _ => rfl
    simp only [cars, off]
  refine ⟨(((c.latchPositions k).endCarCaptures k).emptied k).setService k .islandOff, ?_⟩
  have step : (c.latchPositions k).powerOffStep k = (carThreads k).foldl (fun c t => c.modThread t Thread.darken)
      (((((c.latchPositions k).endCarCaptures k).emptied k).setService k .islandOff).resetCar k) := by
    rw [Chip.powerOffStep, if_pos latched, switchOff_eq]
  generalize (((c.latchPositions k).endCarCaptures k).emptied k).setService k .islandOff = d at step
  have car : ((((carThreads k).foldl (fun c t => c.modThread t Thread.darken) (d.resetCar k)).modCar k fun y =>
      { y with powerFresh := false }).cars[k.val]) = { (d.cars[k.val]).off with islandReq := (d.cars[k.val]).islandReq, powerFresh := false } := by
    rw [Chip.modCar_cars, upd_same]
    have kept : ((carThreads k).foldl (fun c t => c.modThread t Thread.darken) (d.resetCar k)).cars[k.val] = (d.resetCar k).cars[k.val] :=
      darkenFold_keeps (fun c : Chip => c.cars[k.val]) (fun _ _ _ => rfl) _ _
    rw [kept, resetCar_car]
  unfold Chip.carBoundary
  dsimp only
  rw [step, if_neg, serviceStep_none _ k]
  · rw [car]
    rfl
  · rw [car]
    exact Bool.false_ne_true

/-- A car that is switched off: its islands off, its axes at rest with empty queues, and none of its threads running (R90, R193). -/
theorem carBoundary_switchedOff (off : (c.cars[k.val]).powerOff = true) :
    (((c.carBoundary k x).cars[k.val]).on = false ∧ ((c.carBoundary k x).cars[k.val]).service = .islandOff ∧
      ((c.carBoundary k x).cars[k.val]).ilk.req = 0) ∧
    (∀ a : AxisId, carOfAxis a = k → ((c.carBoundary k x).axes[a.val]).st = .off ∧ ((c.carBoundary k x).axes[a.val]).queue = []) ∧
    ∀ n : ThreadId, carOfThread n = some k → ((c.carBoundary k x).threads[n.val]).idles := by
  obtain ⟨d, h⟩ := carBoundary_off c k x off
  rw [h]
  refine ⟨?_, fun a own => ?_, fun n own => ?_⟩
  · have kept : ((carThreads k).foldl (fun c t => c.modThread t Thread.darken) (d.resetCar k)).cars[k.val] = (d.resetCar k).cars[k.val] :=
      darkenFold_keeps (fun c : Chip => c.cars[k.val]) (fun _ _ _ => rfl) _ _
    rw [Chip.modCar_cars, upd_same, kept, resetCar_car]
    exact ⟨rfl, rfl, rfl⟩
  · have kept : ((carThreads k).foldl (fun c t => c.modThread t Thread.darken) (d.resetCar k)).axes[a.val] = (d.resetCar k).axes[a.val] :=
      darkenFold_keeps (fun c : Chip => c.axes[a.val]) (fun _ _ _ => rfl) _ _
    rw [Chip.modCar_axes, kept, resetCar_axis _ k own]
    exact ⟨rfl, rfl⟩
  · exact darkenFold_idles _ _ (.inl (mem_carThreads own))

/-! ### A car that is not -/

/-- The device with a car's positions of the last Profile phase taken, as its latches find it. -/
def Chip.carOpened (c : Chip) (k : CarId) : Chip := (c.latchPositions k).modCar k fun y => { y with powerFresh := false }

theorem carOpened_car : (c.carOpened k).cars[k.val] = { c.cars[k.val] with powerFresh := false } := by
  have cars : (c.latchPositions k).cars = c.cars := Apart.fold (g := Chip.cars) _ _ _ fun c a _ => rfl
  rw [Chip.carOpened, Chip.modCar_cars, upd_same]
  simp only [cars]

/-- Taking the positions changes the car's axes and its mark alone. -/
theorem carOpened_keeps {β : Type} (g : Chip → β) (axis : ∀ c a f, g (Chip.modAxis c a f) = g c) (car : ∀ c f, g (Chip.modCar c k f) = g c) :
    g (c.carOpened k) = g c := by
  unfold Chip.carOpened Chip.latchPositions
  rw [car, Apart.fold (g := g) _ _ _ fun c a _ => axis c a _]

theorem carBoundary_kept (stays : (c.cars[k.val]).powerOff = false) : c.carBoundary k x =
    if (c.cars[k.val]).on then (c.carOpened k).carSettled k x else (c.carOpened k).serviceStep k := by
  have cars : (c.latchPositions k).cars = c.cars := Apart.fold (g := Chip.cars) _ _ _ fun c a _ => rfl
  have step : (c.latchPositions k).powerOffStep k = c.latchPositions k := by
    rw [Chip.powerOffStep, if_neg]
    simp only [cars, stays, Bool.false_eq_true, not_false_eq_true]
  have on : ((c.carOpened k).cars[k.val]).on = (c.cars[k.val]).on := by
    rw [carOpened_car]
    rfl
  unfold Chip.carSettled
  rw [← on]
  unfold Chip.carBoundary
  dsimp only
  rw [step]
  rfl

theorem carBoundary_on (stays : (c.cars[k.val]).powerOff = false) (on : (c.cars[k.val]).on = true) :
    c.carBoundary k x = (c.carOpened k).carSettled k x := by
  rw [carBoundary_kept c k x stays, if_pos on]

/-- An accepted request changes the state of a car, on or off, unless a fault stands behind the boundary (R249). -/
theorem carBoundary_service (stays : (c.cars[k.val]).powerOff = false) {dest : Service} (asked : (c.cars[k.val]).goto = some dest) :
    ((c.carBoundary k x).cars[k.val]).goto = none ∧
    (((c.carBoundary k x).cars[k.val]).faultActive = false → ((c.carBoundary k x).cars[k.val]).service = dest) := by
  have goto : ((c.carOpened k).cars[k.val]).goto = some dest := by
    rw [carOpened_car]
    exact asked
  rw [carBoundary_kept c k x stays]
  split
  · exact carSettled_service _ k x _ rfl dest goto
  · exact ⟨(serviceStep_reaches _ k goto).1, fun _ => (serviceStep_reaches _ k goto).2⟩

end

end Sys2Proof.Machine
end

section
/-! What the boundary of a tick does ahead of the monitors: the scan engine, the link, the threads, the sessions and the admission
(R32, R40, R42, R59, R68, R338, R386). -/

namespace Sys2Proof.Machine

/-! ### What this part leaves -/

/-- The channels of the cars, the parameter set and the supplies. -/
structure Plant where
  pwr : Pwr
  sps : Sps
  cars : Vector Car 12
  doors : Vector Door 24
  taps : Vector Tap 96
  axes : Vector Axis 36
  fbks : Vector Fbk 24
  loops : Vector Loop 84
  fes : Vector Fe 48

def Chip.plant (c : Chip) : Plant := ⟨c.pwr, c.sps, c.cars, c.doors, c.taps, c.axes, c.fbks, c.loops, c.fes⟩

/-- Time, state, standing trip and run above TRIP of the device. -/
structure Clock where
  tick : BitVec 48
  wall : BitVec 48
  state : DevState
  cause : BitVec 5
  tripAt : Option (BitVec 48 × BitVec 14)
  hotRun : BitVec 3

def Dev.clock (d : Dev) : Clock := ⟨d.tick, d.wall, d.state, d.cause, d.tripAt, d.hotRun⟩

/-- What the link holds for the tick. -/
structure Ticked where
  act : LnkCfg
  section_ : List WirePacket
  results : List Result
  slot : Option Slot
  frameIn : Bool
  ticklen : BitVec 14

def Lnk.ticked (l : Lnk) : Ticked := ⟨l.act, l.section_, l.results, l.slot, l.frameIn, l.ticklen⟩

/-- What sessions and admission leave at a boundary. -/
def Chip.basis (c : Chip) : Plant × Clock × Ticked := (c.plant, c.dev.clock, c.lnk.ticked)

section

variable (c : Chip)

variable {c} in
theorem state_of_basis {p : Plant} {q : Clock} {t : Ticked} (h : c.basis = (p, q, t)) : c.dev.state = q.state :=
  congrArg (fun b => b.2.1.state) h

/-! ### The scan engine (R338, R340) -/

theorem scanRead_eq (m : Mems) (r : ScanRun) (n : Nat) : ∃ scan, c.scanRead m r n = { c with scan := scan } := ⟨_, rfl⟩

theorem scanned_eq (m : Mems) (r : ScanRun) (n : Nat) (mem : Fin 6) (words : Nat → Bool) :
    ∃ scan inputs, (c.scanRead m r n).noteReads mem words = { c with scan := scan, inputs := inputs } := by
  obtain ⟨scan, h⟩ := scanRead_eq c m r n
  refine ⟨scan, ((c.scanRead m r n).noteReads mem words).inputs, ?_⟩
  rw [h]
  exact Chip.noteReads_eq ..

/-- An engine that meets no uncorrectable word of its job changes itself and the input record alone. -/
theorem scanTo_calm (m : Mems) {cycle : Nat} (calm : c.scanFails cycle = false) :
    ∃ scan inputs, c.scanTo m cycle = { c with scan := scan, inputs := inputs } := by
  cases running : c.scan.running with
  | none => exact ⟨c.scan, c.inputs, by simp only [Chip.scanTo, running]⟩
  | some r =>
    have good : c.firstBad (spaceMemory r.job.space) (c.scanWords r cycle) = none := by
      simpa only [Chip.scanFails, running, Option.isSome_eq_false_iff, Option.isNone_iff_eq_none] using calm
    simp only [Chip.scanTo, running, good]
    exact scanned_eq ..

theorem scanProgress_calm (m : Mems) (calm : ∀ cycle, c.scanStop = some cycle → c.scanFails cycle = false) :
    ∃ scan inputs, c.scanProgress m = { c with scan := scan, inputs := inputs } := by
  unfold Chip.scanProgress
  cases stop : c.scanStop with
  | none => exact ⟨c.scan, c.inputs, rfl⟩
  | some cycle => exact scanTo_calm c m (calm cycle stop)

/-- A scan reads none of the journal. -/
theorem spaceMemory_ne (space : BitVec 2) : (spaceMemory space).val ≠ 3 := by
  unfold spaceMemory
  split <;> decide

/-- An uncorrectable word that the engine has read trips a device in RUN with ECC_DOUBLE (R338, R340). -/
theorem scanProgress_fails (m : Mems) (running : c.running = true) (fails : c.scanFails c.lnk.ticklen.toNat = true) :
    ∃ scan inputs syndrome cycle, c.scanProgress m = ({ c with scan := scan, inputs := inputs } : Chip).trip 5 syndrome cycle := by
  have stop : c.scanStop = some c.lnk.ticklen.toNat := by rw [Chip.scanStop, if_pos running]
  cases job : c.scan.running with
  | none => simp [Chip.scanFails, job] at fails
  | some r =>
    obtain ⟨w, bad⟩ : ∃ w, c.firstBad (spaceMemory r.job.space) (c.scanWords r c.lnk.ticklen.toNat) = some w := by
      simpa only [Chip.scanFails, job, Option.isSome_iff_exists] using fails
    simp only [Chip.scanProgress, stop, Chip.scanTo, job, bad]
    obtain ⟨scan, inputs, h⟩ := scanned_eq c m r ((4 * w - (r.job.start.toNat + 4 * r.spent)) / 4) (spaceMemory r.job.space)
      fun x => c.scanWords r c.lnk.ticklen.toNat x && decide (x < w)
    rw [h, Chip.eccFail, if_neg (spaceMemory_ne _)]
    exact ⟨scan, inputs, _, _, rfl⟩

/-! ### The link (R32, R40, R42, R59, R68) -/

/-- The device with a frame taken for the ended tick, a dark one where none has come. -/
def Chip.framed (c : Chip) : Chip := if c.lnk.frameIn then c else c.darkFrame false

theorem darkFrame_kept (syncGood : Bool) : (c.darkFrame syncGood).lnk.cfg = c.lnk.cfg ∧
    (c.darkFrame syncGood).lnk.ticklen = c.lnk.ticklen := by
  unfold Chip.darkFrame
  dsimp only
  split <;> exact ⟨rfl, rfl⟩

/-- The frame of the ended tick: what it has brought, or nothing where it is missing (R68). -/
theorem framed_eq : ∃ lnk free, c.framed = { c with lnk := lnk, free := free } ∧ lnk.cfg = c.lnk.cfg ∧ lnk.ticklen = c.lnk.ticklen ∧
    lnk.received = (if c.lnk.frameIn then c.lnk.received else []) ∧ lnk.nextWall = (if c.lnk.frameIn then c.lnk.nextWall else none) := by
  unfold Chip.framed
  cases frame : c.lnk.frameIn with
  | true => exact ⟨c.lnk, c.free, rfl, rfl, rfl, rfl, rfl⟩
  | false =>
    obtain ⟨lnk, free, h, -, -, received, wall, -⟩ := darkFrame_eq c false
    obtain ⟨cfg, ticklen⟩ := darkFrame_kept c false
    rw [h] at cfg ticklen
    exact ⟨lnk, free, h, cfg, ticklen, received, wall⟩

/-- A stream selection changes the stream and the journal pointer of its session alone (R195). -/
theorem streamBoundary_keeps {β : Type} (g : Chip → β) (sec : ∀ c f, g (Chip.modSec c f) = g c)
    (stream : ∀ (c : Chip) owner sel, g (c.modLnk fun l =>
      { l with streamNext := none, stream := sel, streamOwner := if sel = .none then 0 else owner, chunk := none }) = g c) :
    g c.streamBoundary = g c := by
  unfold Chip.streamBoundary
  split
  · rfl
  · dsimp only
    split
    · exact (sec _ _).trans (stream _ _ _)
    · exact stream _ _ _
    · exact stream _ _ _
    · exact stream _ _ _

/-- The device's block behind a boundary (R40, R42). -/
def Dev.ticks (d : Dev) (wall : Option (BitVec 48)) : Dev :=
  { d with
    tick := d.tick + 1, hostCycles := 0, hostStopped := false, tripThisTick := false, wall := wall.getD d.wall,
    wallSeen := d.wallSeen.orElse fun _ => wall, runTicks := if d.state = .run then satInc d.runTicks else 0 }

theorem linkBoundary_keeps : c.linkBoundary.plant = c.plant ∧ c.linkBoundary.threads = c.threads := by
  obtain ⟨lnk, free, h, -⟩ := framed_eq c
  have plant : c.framed.plant = c.plant := by rw [h]; rfl
  have threads : c.framed.threads = c.threads := by rw [h]
  unfold Chip.linkBoundary
  exact ⟨(streamBoundary_keeps _ Chip.plant (fun _ _ => rfl) fun _ _ _ => rfl).trans plant,
    (streamBoundary_keeps _ Chip.threads (fun _ _ => rfl) fun _ _ _ => rfl).trans threads⟩

/-- Time and wall time behind a boundary (R40, R42). -/
theorem linkBoundary_dev : c.linkBoundary.dev = c.dev.ticks (if c.lnk.frameIn then c.lnk.nextWall else none) := by
  obtain ⟨lnk, free, h, -, -, -, wall⟩ := framed_eq c
  have dev : c.linkBoundary.dev = c.framed.dev.ticks c.framed.lnk.nextWall := by
    unfold Chip.linkBoundary
    exact streamBoundary_keeps _ Chip.dev (fun _ _ => rfl) fun _ _ _ => rfl
  rw [dev, h, ← wall]

/-- What the link holds behind a boundary (R59, R68, R386). -/
theorem linkBoundary_lnk : c.linkBoundary.lnk.ticked =
    ⟨c.lnk.cfg, if c.lnk.frameIn then c.lnk.received else [], [], none, false, c.lnk.ticklen⟩ := by
  obtain ⟨lnk, free, h, cfg, ticklen, received, -⟩ := framed_eq c
  have link : c.linkBoundary.lnk.ticked = ⟨c.framed.lnk.cfg, c.framed.lnk.received, [], none, false, c.framed.lnk.ticklen⟩ := by
    unfold Chip.linkBoundary
    exact streamBoundary_keeps _ (g := fun d : Chip => d.lnk.ticked) (fun _ _ => rfl) fun _ _ _ => rfl
  rw [link, h, ← received, ← cfg, ← ticklen]

/-! ### Threads, sessions and admission -/

theorem boundary_acts (x : Thread) (running : Bool) (now : BitVec 48) (lit : Bool) :
    (x.boundary running now lit).acts = (x.budget, x.stallMax, x.actMask, x.seeMask) := by
  have spare (y : Thread) : y.spare.acts = y.acts := by
    unfold Thread.spare
    split <;> rfl
  have command (y : Thread) : (y.command lit).acts = y.acts := by
    unfold Thread.command
    split
    · rfl
    · rfl
    · dsimp only
      split
      · rfl
      · split <;> rfl
  unfold Thread.boundary
  dsimp only
  rw [command, spare]
  rfl

theorem closeSession_keeps (n : SessionId) (reason : Byte) :
    (c.closeSession n reason).basis = c.basis ∧ (c.closeSession n reason).threads = c.threads := by
  have ended : (c.endSession n).basis = c.basis ∧ (c.endSession n).threads = c.threads := by
    unfold Chip.endSession
    dsimp only
    refine ⟨?_, rfl⟩
    unfold Chip.basis Chip.modLnk Lnk.ticked
    dsimp only
    split
    · rfl
    · split
      · split <;> rfl
      · rfl
  unfold Chip.closeSession
  split
  · obtain ⟨journal, h⟩ := record_eq (c.endSession n) 133 none [BitVec.ofNat 8 n.val, ((c.sec.sessions[n.val]).seat).setWidth 8, reason]
    dsimp only
    rw [h]
    exact ended
  · exact ⟨rfl, rfl⟩

/-- The sessions that were to close at the boundary closed (R114). -/
@[irreducible] def Chip.sessionsClosed (c : Chip) : Chip :=
  foldFin 16 (fun n c => match (c.sec.sessions[n.val]).closing with
    | none => c
    | some reason => c.closeSession n reason) c

theorem sessionsClosed_keeps {β : Type} (g : Chip → β) (close : ∀ c n reason, g (Chip.closeSession c n reason) = g c) :
    g c.sessionsClosed = g c := by
  unfold Chip.sessionsClosed
  refine foldFin_keeps g _ (fun n c => ?_) c
  split
  · rfl
  · exact close _ _ _

theorem sessionBoundary_eq : ∃ sec, c.sessionBoundary = { c.sessionsClosed with sec := sec } := by
  unfold Chip.sessionsClosed
  exact ⟨_, rfl⟩

/-- Sessions at a boundary change the security block, the stream and the journal alone (R103, R114, R133). -/
theorem sessionBoundary_keeps : c.sessionBoundary.basis = c.basis ∧ c.sessionBoundary.threads = c.threads := by
  obtain ⟨sec, h⟩ := sessionBoundary_eq c
  have basis := sessionsClosed_keeps c Chip.basis fun c n reason => (closeSession_keeps c n reason).1
  have threads := sessionsClosed_keeps c Chip.threads fun c n reason => (closeSession_keeps c n reason).2
  rw [h]
  exact ⟨basis, threads⟩

theorem beginPhase_basis (phase : BitVec 4) : (c.beginPhase phase).basis = c.basis := by
  unfold Chip.beginPhase
  dsimp only
  split <;> rfl

theorem endStep_basis (m : Mems) : (c.endStep m).basis = c.basis := by
  unfold Chip.endStep
  dsimp only
  split
  · exact beginPhase_basis _ _
  · exact beginPhase_basis _ _
  · split
    · exact beginPhase_basis c _
    · split
      · exact beginPhase_basis c _
      · exact beginPhase_basis _ _
  · exact beginPhase_basis _ _
  · exact beginPhase_basis _ _
  · rfl

/-- Admission at a boundary advances its own steps alone (R76 to R78). -/
theorem admissionBoundary_basis (m : Mems) : (c.admissionBoundary m).basis = c.basis := by
  unfold Chip.admissionBoundary
  split
  · rfl
  · extract_lets ended c1
    have stepped : c1.basis = c.basis := by
      unfold c1
      split
      · exact endStep_basis c m
      · split
        · exact beginPhase_basis c 4
        · rfl
    split
    · exact (beginPhase_basis _ _).trans stepped
    · exact stepped

theorem admissionBoundary_running (m : Mems) (running : c.running = true) : c.admissionBoundary m = c := by
  have state : c.dev.state = .run := by simpa only [Chip.running, decide_eq_true_eq] using running
  rw [Chip.admissionBoundary, if_pos (by rw [state]; decide)]

/-! ### The whole -/

/-- The device of a tick once its link and its threads have passed the boundary. -/
@[irreducible] def Chip.threadsOpened (c : Chip) (x : TickInputs) (wasRunning : Bool) : Chip :=
  let c1 := (c.captureBoundary.linkBoundary).openTick x
  { c1 with threads := vmap (fun n (t : Thread) => t.boundary wasRunning c1.dev.tick (c1.lit n)) c1.threads }

/-- The same with sessions and admission. -/
@[irreducible] def Chip.opened (c : Chip) (m : Mems) (x : TickInputs) (wasRunning : Bool) : Chip :=
  (c.threadsOpened x wasRunning).sessionBoundary.admissionBoundary m

theorem tickBoundary_eq (m : Mems) (x : TickInputs) : c.tickBoundary m x =
    foldFin 12 (fun k c => c.carBoundary k x) (((c.scanProgress m).opened m x c.running).powerBoundary x).sineBoundary := by
  unfold Chip.opened Chip.threadsOpened
  rfl

theorem threadsOpened_basis (x : TickInputs) (wasRunning : Bool) : (c.threadsOpened x wasRunning).basis =
    (c.plant, (c.dev.ticks (if c.lnk.frameIn then c.lnk.nextWall else none)).clock,
      ⟨c.lnk.cfg, if c.lnk.frameIn then c.lnk.received else [], [], none, false, c.lnk.ticklen⟩) := by
  unfold Chip.threadsOpened
  exact Prod.ext (linkBoundary_keeps c.captureBoundary).1 (Prod.ext (congrArg Dev.clock (linkBoundary_dev c.captureBoundary))
    (linkBoundary_lnk c.captureBoundary))

theorem threadsOpened_acts (x : TickInputs) (wasRunning : Bool) (n : ThreadId) : ((c.threadsOpened x wasRunning).threads[n.val]).acts =
    ((c.threads[n.val]).budget, (c.threads[n.val]).stallMax, (c.threads[n.val]).actMask, (c.threads[n.val]).seeMask) := by
  have threads : (c.captureBoundary.linkBoundary.openTick x).threads = c.threads := (linkBoundary_keeps c.captureBoundary).2
  unfold Chip.threadsOpened
  dsimp only
  rw [vmap_at, boundary_acts]
  simp only [threads]

theorem opened_basis (m : Mems) (x : TickInputs) (wasRunning : Bool) : (c.opened m x wasRunning).basis =
    (c.plant, (c.dev.ticks (if c.lnk.frameIn then c.lnk.nextWall else none)).clock,
      ⟨c.lnk.cfg, if c.lnk.frameIn then c.lnk.received else [], [], none, false, c.lnk.ticklen⟩) := by
  unfold Chip.opened
  rw [admissionBoundary_basis, (sessionBoundary_keeps _).1, threadsOpened_basis]

/-- The settings of the threads act in RUN (R386). -/
theorem opened_acts (m : Mems) (x : TickInputs) (wasRunning : Bool) (running : c.running = true) (n : ThreadId) :
    ((c.opened m x wasRunning).threads[n.val]).acts =
      ((c.threads[n.val]).budget, (c.threads[n.val]).stallMax, (c.threads[n.val]).actMask, (c.threads[n.val]).seeMask) := by
  have runs : (c.threadsOpened x wasRunning).sessionBoundary.running = true := by
    have basis := (sessionBoundary_keeps (c.threadsOpened x wasRunning)).1.trans (threadsOpened_basis c x wasRunning)
    rw [Chip.running, state_of_basis basis]
    exact running
  unfold Chip.opened
  rw [admissionBoundary_running _ m runs]
  simp only [(sessionBoundary_keeps _).2]
  exact threadsOpened_acts ..

end

end Sys2Proof.Machine
end

section
/-! What the monitors leave of the device at a boundary, whether they trip it or not (R81, R87 to R89, R281). -/

namespace Sys2Proof.Machine

/-! ### What a trip leaves of the channels -/

/-- A car's islands, standing, run and mode, and the clamps that its taps have shown. -/
structure Gist where
  power : Power
  powerOff : Bool
  standing : Standing
  itinerary : Itinerary
  clampSticky : Byte

def Car.gist (x : Car) : Gist := ⟨x.power, x.powerOff, x.standing, x.itinerary, x.ilk.clampSticky⟩

/-- The channels but for what a trip makes harmless of them. -/
structure Lasting where
  lnk : Lnk
  sps : Sps
  threads : Vector Thread 48
  taps : Vector Tap 96
  axes : Vector Axis 36
  loops : Vector Loop 84
  fes : Vector Fe 48
  cars : CarId → Gist
  doors : DoorId → DoorCfg × DoorState
  fbks : FbkId → FbkCfg

def Chip.lasting (c : Chip) : Lasting where
  lnk := c.lnk
  sps := c.sps
  threads := c.threads
  taps := c.taps
  axes := c.axes
  loops := c.loops
  fes := c.fes
  cars k := (c.cars[k.val]).gist
  doors d := ((c.doors[d.val]).cfg, (c.doors[d.val]).st)
  fbks i := (c.fbks[i.val]).cfg

/-- A mapped vector keeps of every channel what the map keeps. -/
theorem vmap_kept {α β : Type} {n : Nat} (f : Fin n → α → α) (v : Vector α n) (p : α → β) (h : ∀ i x, p (f i x) = p x) :
    (fun i : Fin n => p (vmap f v)[i.val]) = fun i => p v[i.val] :=
  funext fun i => by rw [vmap_at, h]

section

variable (c : Chip) (x : TickInputs)

theorem harmless_lasting : c.harmless.lasting = c.lasting := by
  unfold Chip.harmless Chip.lasting
  dsimp only
  rw [vmap_kept (p := Car.gist), vmap_kept (p := fun x : Door => (x.cfg, x.st)), vmap_kept (p := Fbk.cfg)]
  all_goals exact fun _ _ => rfl

theorem dropPowerCredits_lasting : c.dropPowerCredits.lasting = c.lasting := by
  obtain ⟨credits, h⟩ := dropPowerCredits_eq c
  rw [h]
  unfold Chip.lasting
  dsimp only
  rw [vmap_kept (p := Car.gist)]
  exact fun _ _ => rfl

/-- A trip of any state leaves what lasts of the channels (R81). -/
theorem trip_lasting (cause : BitVec 5) (syndrome : Word) (cycle : BitVec 14) : (c.trip cause syndrome cycle).lasting = c.lasting := by
  refine trip_keeps Chip.lasting (fun _ _ => rfl) (fun _ _ => rfl) (fun _ _ => rfl) harmless_lasting dropPowerCredits_lasting
    (fun c stamp => ?_) c cause syndrome cycle
  unfold Chip.lasting
  dsimp only
  rw [vmap_kept (p := Fbk.cfg)]
  exact fun _ _ => rfl

/-! ### Time and sensors through a trip -/

/-- Time, wall time and temperature of the device. -/
def Dev.readings (d : Dev) : BitVec 48 × BitVec 48 × BitVec 16 × Bool × BitVec 3 := (d.tick, d.wall, d.temp, d.otWarn, d.hotRun)

theorem trip_readings (cause : BitVec 5) (syndrome : Word) (cycle : BitVec 14) :
    (c.trip cause syndrome cycle).dev.readings = c.dev.readings := by
  obtain ⟨inputs, noted⟩ := noted_eq c (cause = 2 || cause = 8 || cause = 10 || cause = 11) (.async cause syndrome)
  cases state : c.dev.state
  case admitting =>
    obtain ⟨credits, inputs, h⟩ := trip_eq_tripped (c := c) cause syndrome cycle (.inl state)
    rw [h]
    rfl
  case run =>
    obtain ⟨credits, inputs, h⟩ := trip_eq_tripped (c := c) cause syndrome cycle (.inr state)
    rw [h]
    rfl
  case dark =>
    unfold Chip.trip
    simp only [noted, state]
  case hunt =>
    unfold Chip.trip
    simp only [noted, state]
    split <;> rfl
  case tripped =>
    unfold Chip.trip
    simp only [noted, state]
    split
    · rfl
    · split <;> rfl

/-- The settings of the supplies that act, and the lowest slack, through a trip. -/
theorem trip_supply (cause : BitVec 5) (syndrome : Word) (cycle : BitVec 14) :
    ((c.trip cause syndrome cycle).pwr.act, (c.trip cause syndrome cycle).pwr.worst) = (c.pwr.act, c.pwr.worst) :=
  trip_keeps (fun d : Chip => (d.pwr.act, d.pwr.worst)) (fun _ _ => rfl) (fun _ _ => rfl) (fun _ _ => rfl) (fun _ => rfl)
    (dropPowerCredits_keeps (fun d : Chip => (d.pwr.act, d.pwr.worst)) (fun _ _ => rfl) fun _ _ => rfl) (fun _ _ => rfl) c cause syndrome
    cycle

/-! ### The monitors (R87 to R89) -/

/-- The monitors of a tick, before a trip. -/
@[irreducible] def Chip.monitored (c : Chip) (x : TickInputs) : Chip := (c.powered x).tempBoundary x.temp

theorem monitored_eq : ∃ pwr journal, c.monitored x = { c with pwr := pwr, dev := c.dev.warmed c.pwr.cfg x.temp, journal := journal } ∧
    pwr.act = c.pwr.cfg ∧ pwr.worst = (leastSlack x.slack).1 ∧ pwr.vid = (if c.running then c.pwr.vid else c.pwr.cfg.vboot) := by
  obtain ⟨journal, h⟩ := tempBoundary_eq (c.powered x) x.temp
  refine ⟨(c.powered x).pwr, journal, ?_, powered_act c x, ?_, ?_⟩
  · unfold Chip.monitored
    rw [h, powered_act]
    rfl
  · unfold Chip.powered Chip.modPwr
    dsimp only
    split <;> rfl
  · unfold Chip.powered Chip.modPwr
    dsimp only
    split <;> rfl

theorem powerBoundary_eq : c.powerBoundary x = if (leastSlack x.slack).1.toNat ≤ 4 then
    (c.monitored x).trip 12 (field (c.monitored x).pwr.vid 4 ||| field (leastSlack x.slack).2 0) 0 else c.monitored x := by
  unfold Chip.monitored
  rfl

/-- What the monitors leave and what they take, whether they trip the device or not (R87, R88). -/
theorem powerBoundary_keeps : (c.powerBoundary x).lasting = c.lasting ∧
    (c.powerBoundary x).dev.readings = (c.dev.warmed c.pwr.cfg x.temp).readings ∧
    (c.powerBoundary x).pwr.act = c.pwr.cfg ∧ (c.powerBoundary x).pwr.worst = (leastSlack x.slack).1 := by
  obtain ⟨pwr, journal, h, act, worst, -⟩ := monitored_eq c x
  have lasting : (c.monitored x).lasting = c.lasting := by rw [h]; rfl
  have readings : (c.monitored x).dev.readings = (c.dev.warmed c.pwr.cfg x.temp).readings := by rw [h]
  have act' : (c.monitored x).pwr.act = c.pwr.cfg := by rw [h]; exact act
  have worst' : (c.monitored x).pwr.worst = (leastSlack x.slack).1 := by rw [h]; exact worst
  rw [powerBoundary_eq]
  split
  · have supply := trip_supply (c.monitored x) 12 (field (c.monitored x).pwr.vid 4 ||| field (leastSlack x.slack).2 0) 0
    rw [Prod.mk.injEq, act', worst'] at supply
    exact ⟨(trip_lasting ..).trans lasting, (trip_readings ..).trans readings, supply⟩
  · exact ⟨lasting, readings, act', worst'⟩

/-- A tick without a slack at the floor trips nothing (R89). -/
theorem powerBoundary_quiet (calm : ¬ (leastSlack x.slack).1.toNat ≤ 4) : (c.powerBoundary x).dev.state = c.dev.state ∧
    (c.powerBoundary x).cars = c.cars ∧ (c.powerBoundary x).fbks = c.fbks := by
  obtain ⟨pwr, journal, h, -⟩ := monitored_eq c x
  rw [powerBoundary_eq, if_neg calm, h]
  exact ⟨rfl, rfl, rfl⟩

/-- A slack at the floor trips a device of ADMIT or RUN with AVS_MARGIN (R89). -/
theorem powerBoundary_avs {m : Fin 16} (least : LeastAt x.slack m) (floor : (x.slack[m.val]).toNat ≤ 4)
    (acting : c.dev.state = .admitting ∨ c.dev.state = .run) :
    (c.powerBoundary x).dev.state = .tripped ∧ (c.powerBoundary x).dev.cause = 12 ∧
    (c.powerBoundary x).dev.syndrome = field (if c.running then c.pwr.vid else c.pwr.cfg.vboot) 4 ||| BitVec.ofNat 32 m.val := by
  have monitor : ∀ m : Fin 16, field (BitVec.ofNat 4 m.val) 0 = BitVec.ofNat 32 m.val := by decide
  obtain ⟨pwr, journal, h, -, -, vid⟩ := monitored_eq c x
  have found := leastSlack_eq least
  have acting' : (c.monitored x).dev.state = .admitting ∨ (c.monitored x).dev.state = .run := by rw [h]; exact acting
  have vid' : (c.monitored x).pwr.vid = (if c.running then c.pwr.vid else c.pwr.cfg.vboot) := by rw [h]; exact vid
  rw [powerBoundary_eq, found, if_pos floor, vid', monitor]
  obtain ⟨credits, inputs, tripped⟩ := trip_eq_tripped 12
    (field (if c.running then c.pwr.vid else c.pwr.cfg.vboot) 4 ||| BitVec.ofNat 32 m.val) 0 acting'
  rw [tripped]
  exact ⟨rfl, rfl, rfl⟩

end

end Sys2Proof.Machine
end

section
/-! The device of a tick ahead of its cars, and each car's part of it through the boundary (R26, R32, R40, R42, R59, R68, R386). -/

namespace Sys2Proof.Machine

/-! ### Ahead of the cars -/

/-- How the device stands ahead of the cars' boundaries, by the device that began the tick. -/
structure TickOpened (c : Chip) (x : TickInputs) (q : Chip) : Prop where
  tick : q.dev.tick = c.dev.tick + 1
  wall : q.dev.wall = (if c.lnk.frameIn then c.lnk.nextWall else none).getD c.dev.wall
  temp : q.dev.temp = x.temp
  otWarn : q.dev.otWarn = decide (c.pwr.cfg.tempWarn.toInt ≤ x.temp.toInt)
  hotRun : q.dev.hotRun = if decide (c.pwr.cfg.tempTrip.toInt ≤ x.temp.toInt) then
    (if c.dev.hotRun.toNat < 4 then c.dev.hotRun + 1 else 4) else 0
  link : q.lnk.ticked = ⟨c.lnk.cfg, if c.lnk.frameIn then c.lnk.received else [], [], none, false, c.lnk.ticklen⟩
  supplies : q.pwr.act = c.pwr.cfg
  worst : q.pwr.worst = (leastSlack x.slack).1
  quiet : ¬ (leastSlack x.slack).1.toNat ≤ 4 → q.dev.state = c.dev.state
  avs : ∀ m : Fin 16, LeastAt x.slack m → (x.slack[m.val]).toNat ≤ 4 → c.dev.state = .admitting ∨ c.dev.state = .run →
    q.dev.state = .tripped ∧ q.dev.cause = 12 ∧
      q.dev.syndrome = field (if c.running then c.pwr.vid else c.pwr.cfg.vboot) 4 ||| BitVec.ofNat 32 m.val
  acts : c.running = true → ∀ n : ThreadId, (q.threads[n.val]).acts =
    ((c.threads[n.val]).budget, (c.threads[n.val]).stallMax, (c.threads[n.val]).actMask, (c.threads[n.val]).seeMask)
  channels : { q.lasting with lnk := c.lnk, threads := c.threads } = c.lasting
  calm : ¬ (leastSlack x.slack).1.toNat ≤ 4 → q.cars = c.cars ∧ q.fbks = c.fbks

section

variable {c : Chip} {x : TickInputs} {m : Mems}

/-- What sessions and admission have left of the plant lasts to the cars. -/
theorem lasting_of_plant {b c : Chip} (h : b.plant = c.plant) : { b.lasting with lnk := c.lnk, threads := c.threads } = c.lasting := by
  have cars : b.cars = c.cars := congrArg Plant.cars h
  have doors : b.doors = c.doors := congrArg Plant.doors h
  have fbks : b.fbks = c.fbks := congrArg Plant.fbks h
  have sps : b.sps = c.sps := congrArg Plant.sps h
  have taps : b.taps = c.taps := congrArg Plant.taps h
  have axes : b.axes = c.axes := congrArg Plant.axes h
  have loops : b.loops = c.loops := congrArg Plant.loops h
  have fes : b.fes = c.fes := congrArg Plant.fes h
  unfold Chip.lasting
  simp only [cars, doors, fbks, sps, taps, axes, loops, fes]

/-- The monitors find the device that the link, the threads, the sessions and the admission have left. -/
theorem tickOpened_of_basis {b : Chip} (plant : b.plant = c.plant)
    (clock : b.dev.clock = (c.dev.ticks (if c.lnk.frameIn then c.lnk.nextWall else none)).clock)
    (link : b.lnk.ticked = ⟨c.lnk.cfg, if c.lnk.frameIn then c.lnk.received else [], [], none, false, c.lnk.ticklen⟩)
    (acts : c.running = true → ∀ n : ThreadId, (b.threads[n.val]).acts =
      ((c.threads[n.val]).budget, (c.threads[n.val]).stallMax, (c.threads[n.val]).actMask, (c.threads[n.val]).seeMask)) :
    TickOpened c x (b.powerBoundary x).sineBoundary := by
  obtain ⟨lasting, readings, act, worst⟩ := powerBoundary_keeps b x
  have pwr : b.pwr = c.pwr := congrArg Plant.pwr plant
  have state : b.dev.state = c.dev.state := congrArg Clock.state clock
  have running : b.running = c.running := by simp only [Chip.running, state]
  have tick : b.dev.tick = c.dev.tick + 1 := congrArg Clock.tick clock
  have wall : b.dev.wall = (if c.lnk.frameIn then c.lnk.nextWall else none).getD c.dev.wall := congrArg Clock.wall clock
  have hotRun : b.dev.hotRun = c.dev.hotRun := congrArg Clock.hotRun clock
  rw [pwr] at act readings
  have readings' : (b.powerBoundary x).dev.readings = (c.dev.tick + 1, (if c.lnk.frameIn then c.lnk.nextWall else none).getD c.dev.wall, x.temp,
      decide (c.pwr.cfg.tempWarn.toInt ≤ x.temp.toInt), if decide (c.pwr.cfg.tempTrip.toInt ≤ x.temp.toInt) then
        (if c.dev.hotRun.toNat < 4 then c.dev.hotRun + 1 else 4) else 0) := by
    rw [readings, ← tick, ← wall, ← hotRun]
    rfl
  simp only [Dev.readings, Prod.mk.injEq] at readings'
  obtain ⟨tick', wall', temp, otWarn, hotRun'⟩ := readings'
  refine
    { tick := tick', wall := wall', temp := temp, otWarn := otWarn, hotRun := hotRun', link := ?_, supplies := act, worst := worst,
      quiet := fun calm => ?_, avs := fun m least floor acting => ?_, acts := fun runs n => ?_, channels := ?_, calm := fun calm => ?_ }
  · have lnk : (b.powerBoundary x).lnk = b.lnk := congrArg Lasting.lnk lasting
    exact (congrArg Lnk.ticked lnk).trans link
  · exact (powerBoundary_quiet b x calm).1.trans state
  · have avs := powerBoundary_avs b x least floor (by rw [state]; exact acting)
    rw [running, pwr] at avs
    exact avs
  · have threads : (b.powerBoundary x).threads = b.threads := congrArg Lasting.threads lasting
    have same : ((b.powerBoundary x).sineBoundary.threads[n.val]).acts = (b.threads[n.val]).acts := by
      show ((b.powerBoundary x).threads[n.val]).acts = _
      simp only [threads]
    exact same.trans (acts runs n)
  · exact (congrArg (fun z : Lasting => { z with lnk := c.lnk, threads := c.threads }) lasting).trans (lasting_of_plant plant)
  · obtain ⟨-, cars, fbks⟩ := powerBoundary_quiet b x calm
    exact ⟨cars.trans (congrArg Plant.cars plant), fbks.trans (congrArg Plant.fbks plant)⟩

/-- A tick whose scan has met no uncorrectable word opens as its link, its threads and its monitors have it. -/
theorem tickBoundary_opens (calm : ∀ cycle, c.scanStop = some cycle → c.scanFails cycle = false) :
    ∃ q, c.tickBoundary m x = foldFin 12 (fun k c => c.carBoundary k x) q ∧ TickOpened c x q := by
  obtain ⟨scan, inputs, h⟩ := scanProgress_calm c m calm
  refine ⟨_, tickBoundary_eq c m x, ?_⟩
  rw [h]
  have basis := opened_basis { c with scan := scan, inputs := inputs } m x c.running
  have acts := opened_acts { c with scan := scan, inputs := inputs } m x c.running
  generalize ({ c with scan := scan, inputs := inputs } : Chip).opened m x c.running = b at basis acts
  simp only [Chip.basis, Prod.mk.injEq] at basis
  obtain ⟨plant, clock, link⟩ := basis
  exact tickOpened_of_basis plant clock link acts

end

end Sys2Proof.Machine
end

section
/-! Each car through a tick: the device as its boundary finds it, and what the tick makes of its part (R26, R90, R193, R249, R386). -/

namespace Sys2Proof.Machine

/-! ### Reading a car's part -/

section

variable {b d : Chip} {k : CarId} (h : b.part k = d.part k)
include h

theorem car_of_part : b.cars[k.val] = d.cars[k.val] := congrArg CarPart.car h
theorem door_of_part {i : DoorId} (own : carOfDoor i = k) : b.doors[i.val] = d.doors[i.val] := congrFun (congrArg CarPart.doors h) ⟨i, own⟩
theorem axis_of_part {i : AxisId} (own : carOfAxis i = k) : b.axes[i.val] = d.axes[i.val] := congrFun (congrArg CarPart.axes h) ⟨i, own⟩
theorem fbk_of_part {i : FbkId} (own : carOfFbk i = k) : b.fbks[i.val] = d.fbks[i.val] := congrFun (congrArg CarPart.fbks h) ⟨i, own⟩
theorem tap_of_part {i : TapId} (own : carOfTap i = k) : b.taps[i.val] = d.taps[i.val] := congrFun (congrArg CarPart.taps h) ⟨i, own⟩
theorem fe_of_part {i : FeId} (own : carOfFe i = k) : b.fes[i.val] = d.fes[i.val] := congrFun (congrArg CarPart.fes h) ⟨i, own⟩
theorem thread_of_part {n : ThreadId} (own : carOfThread n = some k) : (b.threads[n.val]).st = (d.threads[n.val]).st :=
  congrFun (congrArg CarPart.threads h) ⟨n, own⟩
theorem loop_of_part {l : LoopId} (own : carOfLoop l = k) :
    ((b.loops[l.val]).cfg, (b.loops[l.val]).act) = ((d.loops[l.val]).cfg, (d.loops[l.val]).act) :=
  congrFun (congrArg CarPart.loops h) ⟨l, own⟩

end

theorem carOfDoor_own {k : CarId} {d : DoorId} (own : d = frontDoor k ∨ d = rearDoor k) : carOfDoor d = k := by
  rcases own with rfl | rfl
  · exact carOfDoor_frontDoor k
  · exact carOfDoor_rearDoor k

theorem carOfFbk_own {k : CarId} {i : FbkId} (own : i = machine k ∨ i = hoistway k) : carOfFbk i = k := by
  rcases own with rfl | rfl
  · exact carOfFbk_machine k
  · exact carOfFbk_hoistway k

/-! ### A car as its boundary finds it -/

/-- How car k's part of the device stands where its boundary begins, by the device that began the tick. -/
structure CarFound (c : Chip) (x : TickInputs) (k : CarId) (e : Chip) : Prop where
  sps : e.sps = c.sps
  gist : (e.cars[k.val]).gist = (c.cars[k.val]).gist
  door : ∀ d, carOfDoor d = k → (e.doors[d.val]).cfg = (c.doors[d.val]).cfg ∧ (e.doors[d.val]).st = (c.doors[d.val]).st
  fbk : ∀ i, carOfFbk i = k → (e.fbks[i.val]).cfg = (c.fbks[i.val]).cfg
  tap : ∀ s, carOfTap s = k → e.taps[s.val] = c.taps[s.val]
  fe : ∀ i, carOfFe i = k → e.fes[i.val] = c.fes[i.val]
  loop : ∀ l, carOfLoop l = k → (e.loops[l.val]).cfg = (c.loops[l.val]).cfg
  calm : Calm x → (e.cars[k.val]).ilk = (c.cars[k.val]).ilk ∧ ∀ i, carOfFbk i = k → e.fbks[i.val] = c.fbks[i.val]

section

variable {c q r : Chip} {x : TickInputs} {k : CarId}

theorem carFound_of_opened (opened : TickOpened c x q) (common : r.common = q.common) (part : r.part k = q.part k) : CarFound c x k r := by
  have channels := opened.channels
  refine
    { sps := (congrArg Common.sps common).trans (congrArg Lasting.sps channels), gist := ?_, door := fun d own => ?_, fbk := fun i own => ?_,
      tap := fun s own => ?_, fe := fun i own => ?_, loop := fun l own => ?_, calm := fun calm => ⟨?_, fun i own => ?_⟩ }
  · exact (congrArg Car.gist (car_of_part part)).trans (congrFun (congrArg Lasting.cars channels) k)
  · have same := congrFun (congrArg Lasting.doors channels) d
    exact ⟨(congrArg Door.cfg (door_of_part part own)).trans (congrArg Prod.fst same),
      (congrArg Door.st (door_of_part part own)).trans (congrArg Prod.snd same)⟩
  · exact (congrArg Fbk.cfg (fbk_of_part part own)).trans (congrFun (congrArg Lasting.fbks channels) i)
  · have taps : q.taps = c.taps := congrArg Lasting.taps channels
    rw [tap_of_part part own]
    simp only [taps]
  · have fes : q.fes = c.fes := congrArg Lasting.fes channels
    rw [fe_of_part part own]
    simp only [fes]
  · have loops : q.loops = c.loops := congrArg Lasting.loops channels
    refine (congrArg Prod.fst (loop_of_part part own)).trans ?_
    simp only [loops]
  · rw [car_of_part part]
    simp only [(opened.calm calm.least).1]
  · rw [fbk_of_part part own]
    simp only [(opened.calm calm.least).2]

theorem CarFound.itinerary (h : CarFound c x k r) : (c.cars[k.val]).itinerary = (r.cars[k.val]).itinerary :=
  (congrArg Gist.itinerary h.gist).symm

theorem CarFound.standing (h : CarFound c x k r) : (c.cars[k.val]).standing = (r.cars[k.val]).standing :=
  (congrArg Gist.standing h.gist).symm

/-- Taking the positions leaves what the latches of the car read. -/
theorem CarFound.opened (h : CarFound c x k r) : CarFound c x k (r.carOpened k) := by
  have car := carOpened_car r k
  have sps : (r.carOpened k).sps = r.sps := carOpened_keeps r k Chip.sps (fun _ _ _ => rfl) fun _ _ => rfl
  have doors : (r.carOpened k).doors = r.doors := carOpened_keeps r k Chip.doors (fun _ _ _ => rfl) fun _ _ => rfl
  have fbks : (r.carOpened k).fbks = r.fbks := carOpened_keeps r k Chip.fbks (fun _ _ _ => rfl) fun _ _ => rfl
  have taps : (r.carOpened k).taps = r.taps := carOpened_keeps r k Chip.taps (fun _ _ _ => rfl) fun _ _ => rfl
  have fes : (r.carOpened k).fes = r.fes := carOpened_keeps r k Chip.fes (fun _ _ _ => rfl) fun _ _ => rfl
  have loops : (r.carOpened k).loops = r.loops := carOpened_keeps r k Chip.loops (fun _ _ _ => rfl) fun _ _ => rfl
  constructor
  case sps => exact sps.trans h.sps
  case gist =>
    rw [car]
    exact h.gist
  case door => simpa only [doors] using h.door
  case fbk => simpa only [fbks] using h.fbk
  case tap => simpa only [taps] using h.tap
  case fe => simpa only [fes] using h.fe
  case loop => simpa only [loops] using h.loop
  case calm => simpa only [fbks, car] using h.calm

end

/-! ### The tick of a car that stays on -/

/-- What the tick has made of car k is what the latches make of the device e. -/
structure CarDone (k : CarId) (e : Chip) (x : TickInputs) (t : Chip) : Prop where
  common : t.common = e.common
  part : t.part k = (e.carSettled k x).part k

section

variable {c e t : Chip} {x : TickInputs} {k : CarId} (found : CarFound c x k e) (done : CarDone k e x t)
include found done

/-- The stored settings of a car's channels act (R386). -/
theorem tick_settings :
    (t.loops[(carLoop k).val]).act = (c.loops[(carLoop k).val]).cfg ∧
    (∀ i : FbkId, i = machine k ∨ i = hoistway k → (t.fbks[i.val]).act = (c.fbks[i.val]).cfg) ∧
    (∀ i : Fin 4, (t.fes[(carFe k i).val]).act = (c.fes[(carFe k i).val]).cfg) ∧
    ∀ d : DoorId, d = frontDoor k ∨ d = rearDoor k → (t.doors[d.val]).act = (c.doors[d.val]).cfg ∧
      ∀ i : Fin 3, (t.loops[(doorLoop d i).val]).act = (c.loops[(doorLoop d i).val]).cfg := by
  have loop (l : LoopId) (own : carOfLoop l = k)
      (mem : l ∈ carLoop k :: [frontDoor k, rearDoor k].flatMap fun d => (List.finRange 3).map (doorLoop d)) :
      (t.loops[l.val]).act = (c.loops[l.val]).cfg :=
    ((congrArg Prod.snd (loop_of_part done.part own)).trans (carSettled_loops e k x l mem)).trans (found.loop l own)
  refine ⟨loop _ (carOfLoop_carLoop k) List.mem_cons_self, fun i own => ?_, fun i => ?_, fun d own => ⟨?_, fun i => loop _ ?_ ?_⟩⟩
  · rw [fbk_of_part done.part (carOfFbk_own own), carSettled_fbks e k x own, found.fbk i (carOfFbk_own own)]
  · rw [fe_of_part done.part (carOfFe_carFe k i), carSettled_fes, found.fe _ (carOfFe_carFe k i)]
  · have settings := carSettled_doorSettings e k x own
    simp only [Door.settings, Prod.mk.injEq] at settings
    rw [door_of_part done.part (carOfDoor_own own), settings.2.1, (found.door d (carOfDoor_own own)).1]
  · rw [carOfLoop_doorLoop, carOfDoor_own own]
  · refine List.mem_cons_of_mem _ (List.mem_flatMap.2 ⟨d, ?_, List.mem_map_of_mem (List.mem_finRange i)⟩)
    simpa only [List.mem_cons, List.not_mem_nil, or_false] using own

/-- Position, speed, nearest landing and level (R256). -/
theorem tick_place :
    let y := t.cars[k.val]
    let f := t.fbks[(machine k).val]
    y.pos = BitVec.ofInt 32 f.measured ∧ y.speed = f.speed ∧ y.landing = BitVec.ofNat 8 (y.nearestLanding y.pos) ∧
      (y.level = true ↔ ∃ l w, y.landing? y.landing.toNat = some l ∧ c.sps.get (.car 4 k) = some w ∧
        (y.pos.toInt - l.p.toInt).natAbs ≤ w.toNat) := by
  obtain ⟨pos, speed, landing⟩ := carSettled_place e k x
  have level := carSettled_level e k x
  rw [found.sps] at level
  rw [car_of_part done.part, fbk_of_part done.part (carOfFbk_machine k)]
  exact ⟨pos, speed, landing, level⟩

/-- The run-time count (R264). -/
theorem tick_run :
    let z := c.cars[k.val]
    let y := t.cars[k.val]
    let a := t.axes[(carAxis k).val]
    let rests := (a.st = .idle ∨ a.st = .held) ∧ y.speed = 0 ∧
      ∃ w, c.sps.get (.car 4 k) = some w ∧ (y.pos.toInt * unit - a.e.toInt).natAbs ≤ w.toNat * 2 ^ 48
    (z.run.running = false → y.run = z.run) ∧ (z.run.running = true → rests → y.run = { z.run with running := false }) ∧
    (z.run.running = true → ¬ rests → y.run = { z.run with ticks := satInc z.run.ticks }) := by
  have run := carSettled_run e k x _ found.itinerary
  rw [found.sps] at run
  rw [car_of_part done.part, axis_of_part done.part (carOfAxis_carAxis k)]
  exact run

/-- The scheduled mode (R270). -/
theorem tick_mode :
    let z := c.cars[k.val]
    let y := t.cars[k.val]
    (z.schedule = none ∨ z.modeHold = true → y.mode = z.mode ∧ y.schedSel = z.schedSel) ∧
    ∀ tb e, z.schedule = some tb → z.modeHold = false → tb.select t.dev.wall = some e →
      y.schedSel = some e ∧ (z.schedSel = some e → y.mode = z.mode ∧ y.modeSrc = z.modeSrc) ∧
      (z.schedSel ≠ some e → y.mode = e.2 ∧ y.modeSrc = true) := by
  have dev : t.dev = e.dev := congrArg Common.dev done.common
  rw [car_of_part done.part, dev]
  exact carSettled_mode e k x _ found.itinerary

/-- Pads and readbacks (R309). -/
theorem tick_enables (calm : Calm x) :
    let z := c.cars[k.val]
    let y := t.cars[k.val]
    y.ilk.pad = x.pads[k.val] ∧ y.ilk.out = x.pads[k.val] ∧ y.ilk.rb = x.readbacks[k.val] ∧
      ∀ e : Fin 3,
        let bad := z.ilk.skip[e.val] = 0 ∧ ((x.pads[k.val]).getLsbD e.val ≠ z.ilk.permit.getLsbD e.val ∨
          (x.readbacks[k.val]).getLsbD e.val ≠ z.ilk.permit.getLsbD e.val)
        (y.ilk.mismatch.getLsbD e.val = true ↔ bad) ∧
        (y.ilk.twice.getLsbD e.val = true ↔ bad ∧ z.ilk.missed.getLsbD e.val = true) ∧
        y.ilk.skip[e.val] = (if z.ilk.skip[e.val] = 0 then 0 else z.ilk.skip[e.val] - 1) := by
  have enables := carSettled_enables e k x _ (found.calm calm).1.symm
  rw [car_of_part done.part]
  exact enables

/-- A door current above its bound (R275). -/
theorem tick_overCurrent (on : (c.cars[k.val]).on = true) (running : t.running = true) {d : DoorId} (own : d = frontDoor k ∨ d = rearDoor k)
    (used : (c.doors[d.val]).cfg.type ≠ .none) (runs : (c.doors[d.val]).st ≠ .fault) :
    let q := t.doors[d.val]
    let above := fun (m : Word) (code zero : BitVec 12) => 3 * m.toNat < 2 * (inputCurrent q code zero).toInt.natAbs
    (∃ m, c.sps.get (.door 0 d) = some m ∧ (above m (x.current[d.val]).1 q.zeroU ∨
      (q.act.type ≠ .bdc ∧ above m (x.current[d.val]).2 q.zeroV))) →
    q.st = .fault ∧ q.faultActive = true ∧ q.faultCause = 2 := by
  obtain ⟨cfg, st⟩ := found.door d (carOfDoor_own own)
  have power := congrArg Gist.power found.gist
  have on' : (e.cars[k.val]).on = true := (congrArg (fun p : Power => decide (p = .on)) power).trans on
  rw [door_of_part done.part (carOfDoor_own own)]
  intro q above h
  obtain ⟨m, bound, above⟩ := h
  have faulted := carSettled_overCurrent e k x on' ((running_of_common done.common).symm.trans running) own (by rw [cfg]; exact used)
    (by rw [st]; exact runs) (by rw [found.sps]; exact bound) above
  exact ⟨faulted.st, faulted.active, faulted.cause⟩

/-- A switch code with its slip check (R228, R262). -/
theorem tick_switch (calm : Calm x) (mode : (c.fbks[(hoistway k).val]).cfg.mode = .switch) :
    let z := c.cars[k.val]
    let y := t.cars[k.val]
    let tick := t.dev.tick
    let q := (c.fbks[(hoistway k).val]).configure.latch (t.stamp 0) t.lnk.ticklen.toNat tick
    let g := q.switchLatch tick (t.stamp 0) x.switches[k.val] y.pos
    (g.zoneLine = q.zoneLine → t.fbks[(hoistway k).val] = g ∧ y.slipChecks = z.slipChecks) ∧
    (g.zoneLine ≠ q.zoneLine → t.fbks[(hoistway k).val] = { g with t0 := none } ∧
      ∀ edge, z.goto = none → z.service = .homing ∨ z.service = .inspect ∨ z.service = .in_ →
        y.nearestEdge (g.t0.getD y.pos).toInt = some edge →
        let e := (g.t0.getD y.pos).toInt - edge
        y.slipLast = clampInt 20 e ∧ y.slipChecks = z.slipChecks + 1 ∧
        ∀ w, c.sps.get (.car 6 k) = some w → w.toNat < e.natAbs → y.service = .stoppedFault ∧ y.faultCause = 1) := by
  have dev : t.dev = e.dev := congrArg Common.dev done.common
  have lnk : t.lnk = e.lnk := congrArg Common.lnk done.common
  have fbk := (found.calm calm).2 _ (carOfFbk_hoistway k)
  rw [car_of_part done.part, fbk_of_part done.part (carOfFbk_hoistway k), stamp_of_common done.common, dev, lnk, ← fbk, ← found.sps]
  exact carSettled_switch e k x _ found.standing (by rw [fbk]; exact mode)

/-- A tap with its clamp bits (R297 to R301). -/
theorem tick_tap (i : Fin 8) :
    let z := c.cars[k.val]
    let y := t.cars[k.val]
    let mv := (x.tapMv[(carTap k i).val]).toNat
    let u := c.taps[(carTap k i).val]
    let w := t.taps[(carTap k i).val]
    let live := y.ilk.clampLive.getLsbD i.val
    (5000 < mv → w.code = 255) ∧ (mv ≤ 5000 → ((w.code.toNat : Int) - (min 255 (mv * 256 / 5000) : Nat)).natAbs ≤ 2) ∧
    (5250 < mv → live = true) ∧ (mv ≤ 5150 → live = false) ∧
    y.ilk.clampSticky.getLsbD i.val = (z.ilk.clampSticky.getLsbD i.val || live) ∧
    (c.tapUsed (carTap k i) = false ∨ c.thWin k = none →
      w = { u with code := w.code, tracking := false, outWin := false, high := false }) ∧
    ∀ h, c.tapUsed (carTap k i) = true → c.thWin k = some h → w = u.latch h w.code := by
  have tap := carSettled_tap e k x i
  have used : e.tapUsed (carTap k i) = c.tapUsed (carTap k i) := by simp only [Chip.tapUsed, Chip.sps0, found.sps]
  have win : e.thWin k = c.thWin k := by simp only [Chip.thWin, found.sps]
  have sticky : (e.cars[k.val]).ilk.clampSticky = (c.cars[k.val]).ilk.clampSticky := congrArg Gist.clampSticky found.gist
  rw [used, win, sticky, found.tap _ (carOfTap_carTap k i)] at tap
  rw [car_of_part done.part, tap_of_part done.part (carOfTap_carTap k i)]
  exact tap

end

end Sys2Proof.Machine
end

section
/-! The tick as a whole: a trip of the scan engine, the law of a tap, the temperature's record, and the obligation
(R87, R299, R300, R338, R340). -/

namespace Sys2Proof.Machine

/-! ### The cars together -/

/-- The device behind the boundaries of all cars. -/
@[irreducible] def Chip.carsDone (q : Chip) (x : TickInputs) : Chip := foldFin 12 (fun k c => c.carBoundary k x) q

theorem carsDone_common (q : Chip) (x : TickInputs) : (q.carsDone x).common = q.common := by
  unfold Chip.carsDone
  exact foldFin_keeps Chip.common _ (fun j d => (common_farApart j).carBoundary d x) q

/-- Each car finds its part of the device as the tick has opened it, and the boundaries of the others leave what its own makes of it. -/
theorem carsDone_part {c q : Chip} {x : TickInputs} (opened : TickOpened c x q) (k : CarId) : ∃ r, CarFound c x k r ∧
    (q.carsDone x).common = r.common ∧ (q.carsDone x).part k = (r.carBoundary k x).part k := by
  obtain ⟨r, common, part, -, done⟩ := carBoundaries_part q x k
  refine ⟨r, carFound_of_opened opened common part, (carsDone_common q x).trans common.symm, ?_⟩
  unfold Chip.carsDone
  exact done

theorem tickBoundary_cars (c : Chip) (m : Mems) (x : TickInputs) : c.tickBoundary m x =
    (((c.scanProgress m).opened m x c.running).powerBoundary x).sineBoundary.carsDone x := by
  rw [tickBoundary_eq]
  unfold Chip.carsDone
  rfl

theorem runTickStart_due {s : State} (x : TickInputs) (link : s.chip.linkUp = true) (settled : s.chip.changeDue = false) :
    runTickStart x s = s.act fun c => c.tickBoundary s.mem x :=
  act_congr (by simp [link, settled])

/-! ### A trip of the scan engine (R338, R340) -/

theorem tickBoundary_scanTrip {c : Chip} {m : Mems} {x : TickInputs} (running : c.running = true)
    (fails : c.scanFails c.lnk.ticklen.toNat = true) :
    (c.tickBoundary m x).dev.tick = c.dev.tick + 1 ∧ (c.tickBoundary m x).dev.state = .tripped ∧ (c.tickBoundary m x).dev.cause = 5 := by
  have state : c.dev.state = .run := by simpa only [Chip.running, decide_eq_true_eq] using running
  obtain ⟨scan, inputs, syndrome, cycle, h⟩ := scanProgress_fails c m running fails
  obtain ⟨credits, inputs', tripped⟩ :=
    trip_eq_tripped (c := ({ c with scan := scan, inputs := inputs } : Chip)) 5 syndrome cycle (.inr state)
  rw [tripped] at h
  have basis := opened_basis (c.scanProgress m) m x c.running
  have scanned : (c.scanProgress m).dev.clock = ⟨c.dev.tick, c.dev.wall, .tripped, 5, some (c.dev.tick, cycle), c.dev.hotRun⟩ := by
    rw [h]
    rfl
  rw [tickBoundary_cars]
  generalize (c.scanProgress m).opened m x c.running = b at basis
  have clock : b.dev.clock = _ := congrArg (fun b => b.2.1) basis
  have tick : b.dev.tick = c.dev.tick + 1 := (congrArg Clock.tick clock).trans (congrArg (fun c => c.tick + 1) scanned)
  have tripState : b.dev.state = .tripped := (congrArg Clock.state clock).trans (congrArg Clock.state scanned)
  have cause : b.dev.cause = 5 := (congrArg Clock.cause clock).trans (congrArg Clock.cause scanned)
  have moment : b.dev.tripAt = some (c.dev.tick, cycle) := (congrArg Clock.tripAt clock).trans (congrArg Clock.tripAt scanned)
  have later : b.dev.tripAt ≠ some (b.dev.tick, 0) := by
    rw [moment, tick]
    intro same
    have ticks : c.dev.tick = c.dev.tick + 1 := congrArg Prod.fst (Option.some.inj same)
    bv_omega
  obtain ⟨others, dev⟩ := powerBoundary_tripped x tripState later
  have same : ((b.powerBoundary x).sineBoundary.carsDone x).dev = (b.powerBoundary x).dev := congrArg Common.dev (carsDone_common _ x)
  rw [same, dev]
  exact ⟨tick, tripState, cause⟩

/-! ### The law of a tap (R299, R300) -/

/-- A tap that begins to track against its windows (R300). -/
def Tap.seeded (u : Tap) (w : ThWin) : Tap :=
  { u with
    h := BitVec.ofNat 16 (w.hi * 256), lo := BitVec.ofNat 16 (w.lo * 256), t := BitVec.ofNat 8 ((w.lo + w.hi) / 2),
    fresh := true, tracking := true, outWin := false }

/-- The first latch of a tap is that of one which begins to track. -/
theorem latch_seeded {u : Tap} (w : ThWin) (v : Byte) (idle : u.tracking = false) : u.latch w v = (u.seeded w).latch w v := by
  simp only [Tap.latch, idle, Bool.false_eq_true, if_false]
  rfl

/-- The decision of a tracked tap with hysteresis, and the tracking of its threshold (R299, R300). -/
theorem latch_tracked {u : Tap} (w : ThWin) (v : Byte) (tracks : u.tracking = true) :
    let y := u.latch w v
    let track := fun (e : BitVec 16) => BitVec.ofInt 16 ((e.toNat : Int) + ((v.toNat : Int) * 256 - e.toNat) / 2 ^ w.tc)
    let des := (y.h.toNat + y.lo.toNat) / 512
    y.code = v ∧ y.tracking = true ∧ y.fresh = false ∧
      (u.fresh = true → y.high = decide (u.t.toNat ≤ v.toNat)) ∧
      (u.fresh = false → u.high = true → y.high = decide ((u.t.toNat : Int) - w.hys < v.toNat)) ∧
      (u.fresh = false → u.high = false → y.high = decide (u.t.toNat + w.hys ≤ v.toNat)) ∧
      y.h = (if y.high then track u.h else u.h) ∧ y.lo = (if y.high then u.lo else track u.lo) ∧
      y.outWin = !decide (w.lo ≤ des ∧ des ≤ w.hi) ∧
      y.t = BitVec.ofNat 8 (if des < w.lo then w.lo else if w.hi < des then w.hi else des) := by
  simp only [Tap.latch, tracks, if_true, true_and]
  refine ⟨fun fresh => ?_, fun old high => ?_, fun old low => ?_, ?_, ?_⟩
  · rw [if_pos fresh]
  · rw [if_neg (by simp [old]), if_pos high, ← decide_not, decide_eq_decide]
    exact Int.not_le
  · rw [if_neg (by simp [old]), if_neg (by simp [low])]
  · rw [Bool.decide_and]
  · congr 1
    simp only [Bool.and_eq_true, decide_eq_true_eq]
    split_ifs <;> omega

/-- The law of a tap, tracked or not (R299, R300). -/
theorem latch_law (u : Tap) (w : ThWin) (v : Byte) :
    let y := u.latch w v
    let t : Nat := if u.tracking then u.t.toNat else (BitVec.ofNat 8 ((w.lo + w.hi) / 2)).toNat
    let h0 := if u.tracking then u.h else BitVec.ofNat 16 (w.hi * 256)
    let lo0 := if u.tracking then u.lo else BitVec.ofNat 16 (w.lo * 256)
    let fresh := u.tracking = false ∨ u.fresh = true
    let track := fun (e : BitVec 16) => BitVec.ofInt 16 ((e.toNat : Int) + ((v.toNat : Int) * 256 - e.toNat) / 2 ^ w.tc)
    let des := (y.h.toNat + y.lo.toNat) / 512
    y.code = v ∧ y.tracking = true ∧ y.fresh = false ∧
      (fresh → y.high = decide (t ≤ v.toNat)) ∧
      (¬ fresh → u.high = true → y.high = decide ((t : Int) - w.hys < v.toNat)) ∧
      (¬ fresh → u.high = false → y.high = decide (t + w.hys ≤ v.toNat)) ∧
      y.h = (if y.high then track h0 else h0) ∧ y.lo = (if y.high then lo0 else track lo0) ∧
      y.outWin = !decide (w.lo ≤ des ∧ des ≤ w.hi) ∧
      y.t = BitVec.ofNat 8 (if des < w.lo then w.lo else if w.hi < des then w.hi else des) := by
  cases tracks : u.tracking with
  | false =>
    obtain ⟨code, tracking, fresh, first, -, -, rest⟩ := latch_tracked (u := u.seeded w) w v rfl
    rw [← latch_seeded w v tracks] at code tracking fresh first rest
    exact ⟨code, tracking, fresh, fun _ => first rfl, fun old => absurd (.inl rfl) old, fun old => absurd (.inl rfl) old, rest⟩
  | true =>
    obtain ⟨code, tracking, fresh, first, high, low, rest⟩ := latch_tracked w v tracks
    have stale (old : ¬ (true = false ∨ u.fresh = true)) : u.fresh = false := by simpa using old
    exact ⟨code, tracking, fresh, fun h => first (h.resolve_left nofun), fun old => high (stale old), fun old => low (stale old), rest⟩

/-! ### The temperature's record (R87) -/

/-- The records of the journal queue. -/
def Chip.listed (c : Chip) : List (Byte × List Byte) := c.journal.queue.map fun r => (r.type, r.body)

/-- A record for which the queue has a place stands at its end (R354). -/
theorem record_listed (c : Chip) (type : Byte) (body : List Byte) (room : c.journal.queue.length < c.journal.places) :
    (c.record type none body).listed = c.listed ++ [(type, body)] := by
  unfold Chip.record Chip.listed
  rw [if_pos room]
  dsimp only
  rw [Chip.modJournal_journal]
  dsimp only
  rw [Chip.enqueueRecord_queue, List.map_append]
  rfl

/-- A crossing of WARN is journaled where the queue has a place, and nothing else is (R87). -/
theorem tempBoundary_listed (c : Chip) (temp : BitVec 16) :
    (c.pwr.act.tempWarn.toInt ≤ temp.toInt → c.dev.otWarn = false → c.journal.queue.length < c.journal.places →
      (c.tempBoundary temp).listed = c.listed ++ [(132, bytesBE temp 2)]) ∧
    (temp.toInt < c.pwr.act.tempWarn.toInt ∨ c.dev.otWarn = true → (c.tempBoundary temp).listed = c.listed) := by
  unfold Chip.tempBoundary
  dsimp only
  refine ⟨fun warm calm room => ?_, fun still => ?_⟩
  · rw [if_pos (by simp [warm, calm])]
    exact record_listed _ 132 _ room
  · rw [if_neg]
    · rfl
    · rcases still with cool | warned
      · simp [cool]
      · simp [warned]

end Sys2Proof.Machine
end

section
/-! The obligation on TICK_START (R32, R40, R42, R59, R68, R87 to R90, R193, R228, R249, R256 to R275, R297 to R309, R338 to R340, R386). -/

namespace Sys2Proof.Machine

section

variable {c q t : Chip} {x : TickInputs} (opened : TickOpened c x q) (common : t.common = q.common)
include opened common

/-- Time, frame and results of a tick (R40, R42, R59, R68). -/
theorem tick_frame : t.dev.tick = c.dev.tick + 1 ∧ t.lnk.results = [] ∧ t.lnk.frameIn = false ∧ t.lnk.slot = none ∧
    (c.lnk.frameIn = true → t.lnk.section_ = c.lnk.received ∧ t.dev.wall = c.lnk.nextWall.getD c.dev.wall) ∧
    (c.lnk.frameIn = false → t.lnk.section_ = [] ∧ t.dev.wall = c.dev.wall) := by
  have dev : t.dev = q.dev := congrArg Common.dev common
  have lnk : t.lnk = q.lnk := congrArg Common.lnk common
  have link := opened.link
  simp only [Lnk.ticked, Ticked.mk.injEq] at link
  obtain ⟨-, received, results, slot, frameIn, -⟩ := link
  rw [dev, lnk, opened.wall, received]
  refine ⟨opened.tick, results, frameIn, slot, fun frame => ?_, fun dark => ?_⟩
  · simp only [frame, if_true, and_self]
  · simp only [dark, Bool.false_eq_true, if_false, Option.getD_none, and_self]

/-- Settings of link and supplies, and the temperature (R87, R386). -/
theorem tick_monitors : t.lnk.act = c.lnk.cfg ∧ t.pwr.act = c.pwr.cfg ∧ t.dev.temp = x.temp ∧
    t.dev.otWarn = decide (c.pwr.cfg.tempWarn.toInt ≤ x.temp.toInt) ∧
    t.dev.hotRun = (if c.pwr.cfg.tempTrip.toInt ≤ x.temp.toInt then (if c.dev.hotRun.toNat < 4 then c.dev.hotRun + 1 else 4) else 0) := by
  have dev : t.dev = q.dev := congrArg Common.dev common
  have pwr : t.pwr = q.pwr := congrArg Common.pwr common
  have lnk : t.lnk = q.lnk := congrArg Common.lnk common
  rw [dev, pwr, lnk]
  refine ⟨congrArg Ticked.act opened.link, opened.supplies, opened.temp, opened.otWarn, ?_⟩
  simpa only [decide_eq_true_eq] using opened.hotRun

/-- The lowest slack, and a trip at the floor (R88, R89). -/
theorem tick_slack (m : Fin 16) (least : LeastAt x.slack m) : t.pwr.worst = x.slack[m.val] ∧
    (4 < (x.slack[m.val]).toNat → t.dev.state = c.dev.state) ∧
    ((x.slack[m.val]).toNat ≤ 4 → c.dev.state = .admitting ∨ c.dev.state = .run →
      t.dev.state = .tripped ∧ t.dev.cause = 12 ∧
      t.dev.syndrome = field (if c.running then c.pwr.vid else c.pwr.cfg.vboot) 4 ||| BitVec.ofNat 32 m.val) := by
  have dev : t.dev = q.dev := congrArg Common.dev common
  have pwr : t.pwr = q.pwr := congrArg Common.pwr common
  have lowest := leastSlack_eq least
  have worst := opened.worst
  have quiet := opened.quiet
  rw [lowest] at worst quiet
  rw [dev, pwr]
  exact ⟨worst, fun calm => quiet (Nat.not_le.2 calm), opened.avs m least⟩

/-- The settings of the threads in RUN (R386). -/
theorem tick_threads (running : c.running = true) (n : ThreadId) :
    (t.threads[n.val]).budgetAct = (c.threads[n.val]).budget ∧ (t.threads[n.val]).stallMaxAct = (c.threads[n.val]).stallMax ∧
    (t.threads[n.val]).actMaskAct = (c.threads[n.val]).actMask ∧ (t.threads[n.val]).seeMaskAct = (c.threads[n.val]).seeMask := by
  have acts := (congrFun (congrArg Common.acts common) n).trans (opened.acts running n)
  simp only [Chip.common, Thread.acts, Prod.mk.injEq] at acts
  exact acts

end

/-- Settles O42: the scan engine's trip, the device ahead of its cars, each car by what its own boundary makes of it, the law of a tap, and
the temperature's record. -/
theorem tickStartAdvancesTime : Obligations.TickStartAdvancesTime := by
  refine ⟨fun s x link settled running fails => ?_, fun s x link settled calm => ?_, latch_law, tempBoundary_listed⟩
  · refine ⟨_, congrArg Host.Outcome.next (runTickStart_due x link settled), State.act_pending .., State.act_mem .., ?_⟩
    rw [State.act_chip]
    exact tickBoundary_scanTrip running fails
  · obtain ⟨q, ends, opened⟩ := tickBoundary_opens (m := s.mem) (x := x) calm
    have cars : s.chip.tickBoundary s.mem x = q.carsDone x := by
      unfold Chip.carsDone
      exact ends
    have ran := (runTickStart_due x link settled).trans (act_congr (g := fun _ => q.carsDone x) cars)
    have common := carsDone_common q x
    obtain ⟨tick, results, frameIn, slot, frame, dark⟩ := tick_frame opened common
    obtain ⟨lnkAct, pwrAct, temp, otWarn, hotRun⟩ := tick_monitors opened common
    refine ⟨_, congrArg Host.Outcome.next ran, rfl, rfl, tick, results, frameIn, slot, frame, dark, lnkAct, pwrAct, temp, otWarn, hotRun,
      fun m least first => tick_slack opened common m ⟨least, first⟩, tick_threads opened common, fun k => ?_⟩
    obtain ⟨r, found, same, part⟩ := carsDone_part opened k
    rw [State.act_chip]
    generalize q.carsDone x = t at same part
    clear ran cars common tick results frameIn slot frame dark lnkAct pwrAct temp otWarn hotRun
    have powerOff : (r.cars[k.val]).powerOff = (s.chip.cars[k.val]).powerOff := congrArg Gist.powerOff found.gist
    have power : (r.cars[k.val]).power = (s.chip.cars[k.val]).power := congrArg Gist.power found.gist
    have goto : (r.cars[k.val]).goto = (s.chip.cars[k.val]).goto := congrArg (fun g => g.standing.goto) found.gist
    have done (stays : (s.chip.cars[k.val]).powerOff = false) (on : (s.chip.cars[k.val]).on = true) : CarDone k (r.carOpened k) x t := by
      have boundary := carBoundary_on r k x (powerOff.trans stays) ((congrArg (fun p : Power => decide (p = .on)) power).trans on)
      refine ⟨same.trans ?_, part.trans (congrArg (Chip.part k) boundary)⟩
      exact (carOpened_keeps r k Chip.common (fun _ _ _ => rfl) fun _ _ => rfl).symm
    refine ⟨fun stays on => tick_settings found.opened (done stays on), fun stays dest asked => ?_, fun off => ?_, fun stays on => ?_⟩
    · have service := carBoundary_service r k x (powerOff.trans stays) (goto.trans asked)
      rw [car_of_part part]
      exact service
    · obtain ⟨car, axes, threads⟩ := carBoundary_switchedOff r k x (powerOff.trans off)
      rw [car_of_part part]
      refine ⟨car.1, car.2.1, car.2.2, fun a own => ?_, fun n own => ?_⟩
      · rw [axis_of_part part own]
        exact axes a own
      · rw [thread_of_part part own]
        exact threads n own
    · have ready := found.opened
      have done := done stays on
      exact ⟨tick_place ready done, tick_run ready done, tick_mode ready done, tick_enables ready done,
        fun d own used runs running => tick_overCurrent ready done on running own used runs, tick_switch ready done, tick_tap ready done⟩

end Sys2Proof.Machine
end

section
/-! SUPPORT. Rows that fix bit 15 of the immediate, and a packet of an instruction that the host alone issues (R11, R58, R146). -/

namespace Sys2Proof.Machine

/-! ### The immediate of a row that fixes bit 15 -/

theorem getLsbD_fix15 {f : Enc} {b : Bool} {i : Nat} (low : i < 15) : (fix15 f b).imm.getLsbD i = f.imm.getLsbD i := by
  have mask : ∀ j : Fin 15, (0x7FFF : BitVec 16).getLsbD j.val = true ∧
      (if b then (0x8000 : BitVec 16) else 0).getLsbD j.val = false := by
    cases b <;> decide
  obtain ⟨kept, clear⟩ := mask ⟨i, low⟩
  simp only [fix15, BitVec.getLsbD_or, BitVec.getLsbD_and, kept, clear, Bool.and_true, Bool.or_false]

theorem immBits_fix15 {f : Enc} {b : Bool} {k w : Nat} (low : k + w ≤ 15) : immBits (fix15 f b).imm k w = immBits f.imm k w := by
  apply BitVec.eq_of_getLsbD_eq
  intro i hi
  simp only [immBits, BitVec.getLsbD_extractLsb', getLsbD_fix15 (f := f) (b := b) (i := k + i) (by omega)]

/-- The seat that the immediate of such a row names. -/
theorem fix15_seat {f : Enc} {b : Bool} : immBits (fix15 f b).imm 0 3 = immBits f.imm 0 3 := immBits_fix15 (by decide)

/-- The session that it names. -/
theorem fix15_session {f : Enc} {b : Bool} : immBits (fix15 f b).imm 8 4 = immBits f.imm 8 4 := immBits_fix15 (by decide)

theorem ctxOf_imm (i : Issuer) (f : Enc) (s : State) : (ctxOf i f s).f.imm = f.imm := rfl

theorem noFields_eq {f : Enc} (d : f.d = 0) (a : f.a = 0) (m : f.m = 0) : noFields f = false := by simp [noFields, d, a, m]

theorem fin?_eq {n k : Nat} {i : Fin n} (h : k = i.val) : fin? n k = some i := by
  subst h
  exact dif_pos i.isLt

/-! ### Plans for the host alone -/

section

variable {p : Packet} {op : BitVec 6} {f : Enc} {cycles : Nat} {body : Body} {s : State}
  (ready : Ready (.host p) op f cycles s) (legal : (body (ctxOf (.host p) f s) s.mem (found (.host p) cycles s)).illegal = false)
include ready legal

/-- An accepted packet takes the effect of its plan (R11, R58). -/
theorem issue_hostOnly_accepted {r : Reply} (clear : Clear (body (ctxOf (.host p) f s) s.mem (found (.host p) cycles s)).checks)
    (effect : (body (ctxOf (.host p) f s) s.mem (found (.host p) cycles s)).act (begun (.host p) cycles s) = r) (ok : r.status.ok = true) :
    issue (.host p) op f cycles (hostOnly body) s = answered (.host p) r s :=
  issue_plan ready rfl ((Bool.or_false _).trans legal) clear effect ok

/-- A refused packet leaves what its plan says of the refusal (R11, R58, R117). -/
theorem issue_hostOnly_refused {st : Status} {d : Chip}
    (refused : refusal (body (ctxOf (.host p) f s) s.mem (found (.host p) cycles s)).checks = some st)
    (left : (body (ctxOf (.host p) f s) s.mem (found (.host p) cycles s)).onRefusal st (begun (.host p) cycles s) = d)
    (bad : st.ok = false) :
    issue (.host p) op f cycles (hostOnly body) s = refusedPacket p st d s := by
  refine hostIssue_refused ready rfl ((Bool.or_false _).trans legal) ?_ bad
  simp only [Plan.answer, hostOnly, List.nil_append, refused, left]

end

end Sys2Proof.Machine
end

section
/-! CHAL and SESSION: accepted, and a SESSION with a false proof (R103 to R105, R112, R114). -/

namespace Sys2Proof.Machine

/-- Beginning a packet draws nothing from the entropy buffer (R110). -/
theorem begun_entropy (p : Packet) (cycles : Nat) (s : State) : (begun (.host p) cycles s).sec.entropyBuf = s.chip.sec.entropyBuf := by
  simp only [begun, Chip.countGate]
  split <;> rfl

/-! ### CHAL -/

/-- A challenge comes from the entropy buffer and stands for its session (R103). -/
theorem runChal_accepted {p : Packet} {f : Enc} {s : State} {ch : Block} {rest : List Block} (ready : Ready (.host p) 0x36 f 12 s)
    (d : f.d = 0) (a : f.a = 0) (m : f.m = 0) (range : openingRange f.imm = false) (open_ : (whoOf (.host p) s).sid = 0)
    (closed : (s.chip.sec.sessions[((immBits f.imm 8 4).toFin : SessionId).val]).isOpen = false) (sound : s.chip.sec.entropyCause = 0)
    (buffer : s.chip.sec.entropyBuf = ch :: rest) :
    runChal (.host p) f s = answered (.host p)
      ⟨.done, [(0, ch.extractLsb' 96 32), (1, ch.extractLsb' 64 32), (2, ch.extractLsb' 32 32), (3, ch.extractLsb' 0 32)], [],
        (begun (.host p) 12 s).modSec fun x =>
          { x with
            entropyBuf := rest,
            challenges := upd (begun (.host p) 12 s).sec.challenges ((immBits f.imm 8 4).toFin : SessionId) fun _ =>
              some ⟨ch, immBits f.imm 0 3, 0⟩ }⟩ s := by
  have fails : (found (.host p) 12 s).entropyFailed = false := by simp [Chip.entropyFailed, found, sound]
  have isEmpty : (found (.host p) 12 s).sec.entropyBuf.isEmpty = false := by simp [found, buffer]
  have drawn : (begun (.host p) 12 s).sec.entropyBuf = ch :: rest := (begun_entropy ..).trans buffer
  refine issue_hostOnly_accepted ready (noFields_eq d a m) ?_ ?_ rfl
  · exact clear_cons.2 ⟨range, clear_cons.2 ⟨by simp [ctxOf, open_], clear_cons.2 ⟨closed,
      clear_pair.2 ⟨fails, by rw [fails, isEmpty]; rfl⟩⟩⟩⟩
  · simp only [bodyChal, drawn]
    rfl

/-! ### SESSION -/

section

variable {p : Packet} {f : Enc} {s : State}
  (readable : (found (.host p) 40 s).badWord 5 (sessionKeyWords (immBits f.imm 0 3)) = none)
include readable

/-- Where the seat's key can be read, SESSION follows the plan of R104 and R105 behind the reads (R25). -/
theorem bodySessionOpen_readable :
    bodySessionOpen (ctxOf (.host p) (fix15 f false) s) s.mem (found (.host p) 40 s) =
      let plan := sessionOpenPlan (ctxOf (.host p) (fix15 f false) s) s.mem (found (.host p) 40 s)
      { plan with
        checks := plan.checks ++ [], act := fun c => plan.act (c.noteReads 5 (sessionKeyWords (immBits f.imm 0 3))) } := by
  simp only [bodySessionOpen, Plan.reads, ctxOf_imm, fix15_seat, readable, Option.isSome_none, Bool.false_eq_true, if_false]

variable (ready : Ready (.host p) 0x37 (fix15 f false) 40 s) (d : f.d = 0) (a : f.a = 0) (m : f.m = 0) {j : Fin 7}
  (seat : (immBits f.imm 0 3).toNat = j.val) {h : Challenge}
  (pending : (found (.host p) 40 s).challenge (immBits f.imm 8 4).toFin = some h) (own : h.seat = immBits f.imm 0 3)
  (key : (found (.host p) 40 s).sec.hasKey j = true)
include ready d a m seat pending own key

/-- A SESSION whose proof does not fit ends the challenge, counts against the seat and is answered MAC ahead of every other refusal
(R11, R105, R112). -/
theorem runSessionOpen_false (false_ : cmacTag ((found (.host p) 40 s).sec.keys[j.val]).key
      (proofInput (found (.host p) 40 s) (immBits f.imm 0 3) (immBits f.imm 8 4) h.ch p.a) ≠ (p.b ++ p.c : Tag)) :
    runSessionOpen (.host p) f s = refusedPacket p .mac
      ((begun (.host p) 40 s).proofFailed (immBits f.imm 8 4).toFin (some j)) s := by
  refine issue_hostOnly_refused ready ?_ ?_ ?_ rfl
  · rw [bodySessionOpen_readable readable]
    exact noFields_eq d a m
  · rw [bodySessionOpen_readable readable]
    refine refusal_eq_of_first ?_ fun _ _ _ => Nat.zero_le _
    simp only [sessionOpenPlan, ctxOf, fix15_seat, fix15_session, fin?_eq seat, pending, own, key, if_true, List.append_nil]
    exact List.mem_cons.2 (.inl (Prod.ext (decide_eq_true false_).symm rfl))
  · rw [bodySessionOpen_readable readable]
    simp only [sessionOpenPlan, ctxOf, fix15_seat, fix15_session, fin?_eq seat, if_true]

/-- A SESSION whose proof fits opens its session with keys of both nonces and journals it (R104, R105). -/
theorem runSessionOpen_opens {v : Block} {rest : List Block} (range : openingRange (fix15 f false).imm = false)
    (open_ : (whoOf (.host p) s).sid = 0) (allowed : (found (.host p) 40 s).seatDenied j = false)
    (fits : cmacTag ((found (.host p) 40 s).sec.keys[j.val]).key
      (proofInput (found (.host p) 40 s) (immBits f.imm 0 3) (immBits f.imm 8 4) h.ch p.a) = (p.b ++ p.c : Tag))
    (closed : ((found (.host p) 40 s).sec.sessions[((immBits f.imm 8 4).toFin : SessionId).val]).isOpen = false)
    (sound : (found (.host p) 40 s).sec.entropyCause = 0) (buffer : (found (.host p) 40 s).sec.entropyBuf = v :: rest)
    (few : (found (.host p) 40 s).seatSessions (immBits f.imm 0 3) < 4)
    (room : (found (.host p) 40 s).journal.queue.length < (found (.host p) 40 s).journal.places) :
    let b := (begun (.host p) 40 s).noteReads 5 (sessionKeyWords (immBits f.imm 0 3))
    let sid := immBits f.imm 8 4
    let seat := immBits f.imm 0 3
    let nn : BitVec 64 := v.extractLsb' 64 64
    let key := sessionKey b ((found (.host p) 40 s).sec.keys[j.val]).key seat sid h.ch p.a nn
    let pd := deviceProof b (key 2) seat sid h.ch p.a nn
    runSessionOpen (.host p) f s = answered (.host p)
      ⟨.done, [(0, nn.extractLsb' 32 32), (1, nn.extractLsb' 0 32), (2, pd.extractLsb' 32 32), (3, pd.extractLsb' 0 32)], [],
        (b.modSec fun x =>
          { x with
            entropyBuf := rest, challenges := upd x.challenges sid.toFin fun _ => none,
            sessions := upd x.sessions sid.toFin fun _ =>
              { Session.init with
                isOpen := true, seat := seat, kMacDown := key 1, kMacUp := key 2, kEncDown := key 3, kEncUp := key 4,
                nonce := nn.extractLsb' 32 32 } }).record 133 none [sid.setWidth 8, seat.setWidth 8, 0]⟩ s := by
  have works : (found (.host p) 40 s).entropyFailed = false := by simp [Chip.entropyFailed, sound]
  have drawn : ((begun (.host p) 40 s).noteReads 5 (sessionKeyWords (immBits f.imm 0 3))).sec.entropyBuf = v :: rest := by
    rw [Chip.noteReads_sec, begun_entropy]
    exact buffer
  refine issue_hostOnly_accepted ready ?_ ?_ ?_ rfl
  · rw [bodySessionOpen_readable readable]
    exact noFields_eq d a m
  · rw [bodySessionOpen_readable readable]
    simp only [sessionOpenPlan, ctxOf, fix15_seat, fix15_session, fin?_eq seat, pending, own, key, if_true, List.append_nil, clear_cons]
    exact ⟨decide_eq_false (not_not_intro fits), allowed, range, decide_eq_false (not_not_intro open_), rfl, rfl, closed,
      by rw [works, buffer]; rfl, decide_eq_false (Nat.not_le.2 few), decide_eq_false (Nat.not_le.2 room), works, nofun⟩
  · rw [bodySessionOpen_readable readable]
    simp only [sessionOpenPlan, ctxOf, fix15_seat, fix15_session, fin?_eq seat, pending, own, key, if_true, drawn]
    rfl

end

/-- A closing SESSION asks for the end of the session that it came in (R114). -/
theorem runSessionClose_accepted {p : Packet} {f : Enc} {s : State} (ready : Ready (.host p) 0x37 (fix15 f true) 40 s)
    (d : f.d = 0) (a : f.a = 0) (m : f.m = 0) (imm : immBits f.imm 0 15 = 0) (keyed : (whoOf (.host p) s).sid ≠ 0) :
    runSessionClose (.host p) f s =
      answered (.host p) (reply .done ((begun (.host p) 40 s).toClose (whoOf (.host p) s).sid.toFin 1)) s := by
  have reserved : immBits (fix15 f true).imm 0 15 = 0 := (immBits_fix15 (by decide)).trans imm
  refine issue_hostOnly_accepted ready (noFields_eq d a m) ?_ rfl rfl
  exact clear_pair.2 ⟨decide_eq_false (not_not_intro reserved), decide_eq_false keyed⟩

/-- Settles O23: each form passes its checks or fails its proof first of all. -/
theorem challengesAndSessions : Obligations.ChallengesAndSessions := by
  refine ⟨fun p f s ch rest ready d a m range open_ closed sound buffer =>
    congrArg _ (runChal_accepted ready d a m range open_ closed sound buffer), fun p f s d a m => ⟨?_, ?_, ?_⟩⟩
  · intro j h v rest ready seat range open_ allowed pending own key fits closed sound buffer few room readable
    exact congrArg _ (runSessionOpen_opens readable ready d a m seat pending own key range open_ allowed fits closed sound buffer few room)
  · intro j h ready seat pending own key false_ readable
    exact congrArg _ (runSessionOpen_false readable ready d a m seat pending own key false_)
  · exact fun ready imm keyed => congrArg _ (runSessionClose_accepted ready d a m imm keyed)

end Sys2Proof.Machine
end

section
/-! KEYSET: accepted in both parts, and a part 1 with a false check value (R98 to R101). -/

namespace Sys2Proof.Machine

section

variable {x : Ctx} {m : Mems} {c : Chip} {first : BitVec 64}
  (stage : (c.sec.sessions[(x.who.sid.toFin : SessionId).val]).stage = some (immBits x.f.imm 0 3, first))
include stage

/-- The refusals of a KEYSET part 1 that completes a key (R100, R128). -/
theorem keysetPart1_checks : (bodyKeysetPart1 x m c).checks =
    [(!x.who.isSeat 0, .denied), (keysetRange x || some (first ++ x.opA ++ x.opB : Block) == some 0, .range), (false, .state),
      (decide ((keyCheck (first ++ x.opA ++ x.opB)).extractLsb' 96 32 ≠ x.opC), .refused)] ++ c.auditRefusals x.who 1 := by
  simp only [bodyKeysetPart1, stage, if_true]
  rfl

/-- The key that KEYSET part 1 queues (R100, R101). -/
theorem keysetPart1_act {j : Fin 7} (seat : (immBits x.f.imm 0 3).toNat = j.val) (b : Chip) : (bodyKeysetPart1 x m c).act b =
    (b.modSession x.who.sid.toFin fun s => { s with stage := none }).acceptAudit x.who (.keyset j (first ++ x.opA ++ x.opB))
      (b.wouldBreak && (j.val = 1 || j.val = 2)) none
      [(193, (immBits x.f.imm 0 3).setWidth 8 :: bytesBE ((keyCheck (first ++ x.opA ++ x.opB)).extractLsb' 112 16) 2)] := by
  simp only [bodyKeysetPart1, stage, if_true, fin?_eq seat]

end

section

variable {p : Packet} {f : Enc} {s : State} {last : Bool} (keeper : (whoOf (.host p) s).isSeat 0 = true) (imm : immBits f.imm 3 12 = 0)
  (conf : p.flags.getLsbD 0 = true) (named : immBits f.imm 0 3 ≠ 7)
include imm conf named

theorem keysetRange_packet : keysetRange (ctxOf (.host p) (fix15 f last) s) = false := by
  simpa [keysetRange, ctxOf, whoOf, fix15_seat, immBits_fix15, imm, conf] using named

include keeper

/-- Of the refusals of a KEYSET part 1 of KEEPER its check value and those of the audited change are left (R100, R128). -/
theorem keysetPart1_packet_checks {first : BitVec 64}
    (stage : ((found (.host p) 24 s).sec.sessions[(whoOf (.host p) s).sid.toNat]).stage = some (immBits f.imm 0 3, first))
    (nonzero : (first ++ p.a ++ p.b : Block) ≠ 0) :
    (bodyKeysetPart1 (ctxOf (.host p) (fix15 f true) s) s.mem (found (.host p) 24 s)).checks =
      [(false, .denied), (false, .range), (false, .state),
        (decide ((keyCheck (first ++ p.a ++ p.b)).extractLsb' 96 32 ≠ p.c), .refused)] ++
        (found (.host p) 24 s).auditRefusals (whoOf (.host p) s) 1 := by
  have whole : (some (first ++ p.a ++ p.b : Block) == some 0) = false := by simpa using nonzero
  have range : (keysetRange (ctxOf (.host p) (fix15 f true) s) || some (first ++ p.a ++ p.b : Block) == some 0) = false := by
    rw [keysetRange_packet imm conf named, whole]; rfl
  have denied : (!(whoOf (.host p) s).isSeat 0) = false := congrArg Bool.not keeper
  rw [keysetPart1_checks (stage.trans (by rw [ctxOf_imm, fix15_seat]))]
  exact congrArg₂ List.cons (Prod.ext denied rfl) (congrArg₂ List.cons (Prod.ext range rfl) rfl)

variable (d : f.d = 0) (a : f.a = 0) (m : f.m = 0)
include d a m

/-- KEYSET part 0 stages its key bytes in the session (R100). -/
theorem runKeysetPart0_accepted (ready : Ready (.host p) 0x3A (fix15 f false) 24 s) (zero : p.c = 0) :
    runKeysetPart0 (.host p) f s = answered (.host p) (reply .done
      ((begun (.host p) 24 s).modSession (whoOf (.host p) s).sid.toFin fun x =>
        { x with stage := some (immBits f.imm 0 3, (p.a ++ p.b : BitVec 64)) })) s := by
  have range : (keysetRange (ctxOf (.host p) (fix15 f false) s) || decide (p.c ≠ 0)) = false := by
    rw [keysetRange_packet imm conf named, zero]; rfl
  refine issue_hostOnly_accepted ready (noFields_eq d a m) (clear_pair.2 ⟨congrArg Bool.not keeper, range⟩) ?_ rfl
  simp only [bodyKeysetPart0, ctxOf_imm, fix15_seat]
  rfl

variable (ready : Ready (.host p) 0x3A (fix15 f true) 24 s) {first : BitVec 64}
  (stage : ((found (.host p) 24 s).sec.sessions[(whoOf (.host p) s).sid.toNat]).stage = some (immBits f.imm 0 3, first))
  (nonzero : (first ++ p.a ++ p.b : Block) ≠ 0)
include ready stage nonzero

/-- KEYSET part 1 with another check value drops the stage and is answered REFUSED (R100). -/
theorem runKeysetPart1_refused (keys : (found (.host p) 24 s).keysGone = false)
    (differs : (keyCheck (first ++ p.a ++ p.b)).extractLsb' 96 32 ≠ p.c) :
    runKeysetPart1 (.host p) f s = refusedPacket p .refused
      ((begun (.host p) 24 s).modSession (whoOf (.host p) s).sid.toFin fun x => { x with stage := none }) s := by
  refine issue_hostOnly_refused ready (noFields_eq d a m) ?_ rfl rfl
  rw [keysetPart1_packet_checks keeper imm conf named stage nonzero, decide_eq_true differs]
  refine refusal_eq_of_first (by simp) ?_
  simp only [Chip.auditRefusals, Chip.auditChecks, keys, List.cons_append, List.nil_append, List.forall_mem_cons]
  exact ⟨nofun, nofun, nofun, fun _ => le_rfl, fun _ => by decide, nofun, fun _ => by decide, fun _ => by decide, fun _ => by decide,
    fun _ => by decide, fun _ => by decide, nofun⟩

/-- KEYSET part 1 with a good check value queues the new key as an audited change (R100, R101). -/
theorem runKeysetPart1_queued {j : Fin 7} (seat : (immBits f.imm 0 3).toNat = j.val)
    (good : (keyCheck (first ++ p.a ++ p.b)).extractLsb' 96 32 = p.c)
    (clear : Clear ((found (.host p) 24 s).auditRefusals (whoOf (.host p) s) 1)) :
    runKeysetPart1 (.host p) f s = answered (.host p) (reply .queued
      (((begun (.host p) 24 s).modSession (whoOf (.host p) s).sid.toFin fun x => { x with stage := none }).audit (whoOf (.host p) s).sid
        (whoOf (.host p) s).seat (.keyset j (first ++ p.a ++ p.b)) ((begun (.host p) 24 s).wouldBreak && (j.val = 1 || j.val = 2)) none
        [(193, (immBits f.imm 0 3).setWidth 8 :: bytesBE ((keyCheck (first ++ p.a ++ p.b)).extractLsb' 112 16) 2)])) s := by
  refine issue_hostOnly_accepted ready (noFields_eq d a m) ?_ ?_ rfl
  · rw [keysetPart1_packet_checks keeper imm conf named stage nonzero, decide_eq_false (not_not_intro good)]
    exact clear_cons.2 ⟨rfl, clear_cons.2 ⟨rfl, clear_cons.2 ⟨rfl, clear_cons.2 ⟨rfl, clear⟩⟩⟩⟩
  · have named_ : (immBits (ctxOf (.host p) (fix15 f true) s).f.imm 0 3).toNat = j.val := by rw [ctxOf_imm, fix15_seat]; exact seat
    rw [keysetPart1_act (stage.trans (by rw [ctxOf_imm, fix15_seat])) named_, ctxOf_imm, fix15_seat]
    rfl

end

/-- Settles O25: part 0 stages, and part 1 meets its check value ahead of what else may refuse it. -/
theorem keyIsSetInTwoParts : Obligations.KeyIsSetInTwoParts := by
  intro p f s d a m i who c b seat keeper imm conf named
  refine ⟨fun ready zero => congrArg _ (runKeysetPart0_accepted keeper imm conf named d a m ready zero),
    fun first j ready number stage => ⟨fun keys nonzero differs => ?_, fun nonzero good clear _ => ?_⟩⟩
  · exact congrArg _ (runKeysetPart1_refused keeper imm conf named d a m ready stage nonzero keys differs)
  · exact congrArg _ (runKeysetPart1_queued keeper imm conf named d a m ready stage nonzero number good clear)

end Sys2Proof.Machine
end

section
/-! The sessions through a tick boundary: what closes at it, and what is left of the others (R110, R114, R195). -/

namespace Sys2Proof.Machine

section

variable (c : Chip)

/-! ### Ahead of the sessions' own part -/

/-- What a boundary leaves of a session until those that are to close have closed. -/
def Session.seated (x : Session) : Bool × BitVec 3 × Block × BitVec 20 × Option Byte :=
  (x.isOpen, x.seat, x.kMacDown, x.idle, x.closing)

/-- A trip leaves the sessions (R81). -/
theorem trip_sessions (cause : BitVec 5) (syndrome : Word) (cycle : BitVec 14) :
    (c.trip cause syndrome cycle).sec.sessions = c.sec.sessions := by
  refine trip_keeps (fun c : Chip => c.sec.sessions) (fun _ _ => rfl) (fun _ _ => rfl) (fun _ _ => rfl) (fun _ => rfl) (fun c => ?_)
    (fun _ _ => rfl) c cause syndrome cycle
  obtain ⟨credits, h⟩ := dropPowerCredits_eq c
  rw [h]

theorem scanTo_sessions (m : Mems) (cycle : Nat) : (c.scanTo m cycle).sec.sessions = c.sec.sessions := by
  unfold Chip.scanTo
  split
  · rfl
  · dsimp only
    split
    · rw [Chip.noteReads_sec]
      rfl
    · rw [Chip.eccFail, if_neg (spaceMemory_ne _), trip_sessions, Chip.noteReads_sec]
      rfl

theorem scanProgress_sessions (m : Mems) : (c.scanProgress m).sec.sessions = c.sec.sessions := by
  unfold Chip.scanProgress
  split
  · rfl
  · exact scanTo_sessions ..

/-- A stream selection moves the journal pointer of a session at most (R195). -/
theorem streamBoundary_seated (n : SessionId) : (c.streamBoundary.sec.sessions[n.val]).seated = (c.sec.sessions[n.val]).seated := by
  unfold Chip.streamBoundary
  split
  · rfl
  · dsimp only
    split
    · exact upd_kept c.sec.sessions _ (fun x => { x with readPtr := _, readTorn := 0 }) Session.seated (fun _ => rfl) n
    · rfl
    · rfl
    · rfl

theorem linkBoundary_seated (n : SessionId) : (c.linkBoundary.sec.sessions[n.val]).seated = (c.sec.sessions[n.val]).seated := by
  obtain ⟨lnk, free, h, -⟩ := framed_eq c
  have framed : (c.framed.sec.sessions[n.val]).seated = (c.sec.sessions[n.val]).seated := by rw [h]
  unfold Chip.linkBoundary
  exact (streamBoundary_seated _ n).trans framed

theorem threadsOpened_seated (x : TickInputs) (wasRunning : Bool) (n : SessionId) :
    ((c.threadsOpened x wasRunning).sec.sessions[n.val]).seated = (c.sec.sessions[n.val]).seated := by
  unfold Chip.threadsOpened
  exact linkBoundary_seated c.captureBoundary n

/-! ### The sessions' part -/

/-- A session that closes is as a fresh one, and every other stands (R114). -/
theorem closeSession_session (n m : SessionId) (reason : Byte) : (c.closeSession n reason).sec.sessions[m.val] =
    if m = n ∧ (c.sec.sessions[n.val]).isOpen = true then Session.init else c.sec.sessions[m.val] := by
  have ended : (c.endSession n).sec.sessions = upd c.sec.sessions n fun _ => Session.init := rfl
  unfold Chip.closeSession
  split
  · next open_ => simp only [Chip.record_sec, ended, upd_at, open_, and_true]
  · next closed => exact (if_neg fun h => closed h.2).symm

/-- A session closes at a boundary where it has been asked to (R114). -/
def Chip.closeAsked (n : SessionId) (c : Chip) : Chip :=
  match (c.sec.sessions[n.val]).closing with
  | none => c
  | some reason => c.closeSession n reason

theorem closeAsked_session (n m : SessionId) : (c.closeAsked n).sec.sessions[m.val] =
    if m = n ∧ (c.sec.sessions[n.val]).isOpen = true ∧ (c.sec.sessions[n.val]).closing ≠ none then Session.init
    else c.sec.sessions[m.val] := by
  unfold Chip.closeAsked
  cases closing : (c.sec.sessions[n.val]).closing with
  | none => exact (if_neg fun h => h.2.2 rfl).symm
  | some reason => simp only [closeSession_session, ne_eq, reduceCtorEq, not_false_eq_true, and_true]

/-- Of the sessions those close that are open and have been asked to (R114). -/
theorem sessionsClosed_session (n : SessionId) : c.sessionsClosed.sec.sessions[n.val] =
    if (c.sec.sessions[n.val]).isOpen = true ∧ (c.sec.sessions[n.val]).closing ≠ none then Session.init else c.sec.sessions[n.val] := by
  obtain ⟨r, same, last⟩ := foldFin_at (fun c : Chip => c.sec.sessions[n.val]) Chip.closeAsked n
    (fun m apart c => by rw [closeAsked_session, if_neg fun h => apart h.1.symm]) c
  have fold : c.sessionsClosed = foldFin 16 Chip.closeAsked c := by
    unfold Chip.sessionsClosed
    rfl
  rw [fold, last, closeAsked_session, same]
  simp only [true_and]

/-- Idle times grow behind the closing of sessions (R114). -/
theorem sessionBoundary_session (n : SessionId) (keyed : n.val ≠ 0) : c.sessionBoundary.sec.sessions[n.val] =
    if (c.sessionsClosed.sec.sessions[n.val]).isOpen then
      { c.sessionsClosed.sec.sessions[n.val] with idle := satInc (c.sessionsClosed.sec.sessions[n.val]).idle }
    else c.sessionsClosed.sec.sessions[n.val] := by
  have grown : c.sessionBoundary.sec.sessions =
      vmap (fun n s => if s.isOpen || n.val = 0 then { s with idle := satInc s.idle } else s) c.sessionsClosed.sec.sessions := by
    unfold Chip.sessionBoundary
    extract_lets c1
    have closed : c1 = c.sessionsClosed := by
      unfold Chip.sessionsClosed
      rfl
    rw [← closed]
    clear_value c1
    rfl
  simp only [grown, vmap_at, keyed, decide_false, Bool.or_false]

/-! ### Behind it -/

theorem beginPhase_sec (phase : BitVec 4) : (c.beginPhase phase).sec = c.sec := by
  unfold Chip.beginPhase
  dsimp only
  split <;> rfl

theorem endStep_sec (m : Mems) : (c.endStep m).sec = c.sec := by
  unfold Chip.endStep
  dsimp only
  split
  case h_3 =>
    split
    · exact beginPhase_sec ..
    · split <;> exact beginPhase_sec ..
  case h_6 => rfl
  all_goals exact beginPhase_sec ..

/-- Admission at a boundary leaves the security block (R76 to R78). -/
theorem admissionBoundary_sec (m : Mems) : (c.admissionBoundary m).sec = c.sec := by
  unfold Chip.admissionBoundary
  split
  · rfl
  · extract_lets ended c1
    have stepped : c1.sec = c.sec := by
      unfold c1
      split
      · exact endStep_sec ..
      · split
        · exact beginPhase_sec ..
        · rfl
    split
    · exact (beginPhase_sec ..).trans stepped
    · exact stepped

theorem powerBoundary_sessions (x : TickInputs) : (c.powerBoundary x).sec.sessions = c.sec.sessions := by
  obtain ⟨pwr, journal, h, -⟩ := monitored_eq c x
  rw [powerBoundary_eq]
  split
  · rw [trip_sessions, h]
  · rw [h]

/-! ### The cars -/

theorem sessions_apart (j : CarId) : Apart j fun c : Chip => c.sec.sessions where
  car _ _ := rfl
  door _ _ _ _ _ := rfl
  axis _ _ _ _ := rfl
  fbk _ _ _ _ _ := rfl
  loop _ _ _ _ _ := rfl
  fe _ _ _ _ _ := rfl
  cal _ _ := rfl
  tap _ _ _ _ := rfl
  thread _ _ _ _ _ := rfl
  events _ _ _ := rfl
  shared _ _ _ _ := rfl

theorem endCapture_sessions (i : CkId) (r : Capture) (fault : Bool) : (c.endCapture i r fault).sec.sessions = c.sec.sessions := by
  have freed : ∀ d : Chip, (((d.release r.item.credit).jobDone r.item.producer).placeFreed .traces).sec.sessions = d.sec.sessions :=
    fun d => by rw [Chip.placeFreed_sec, Chip.jobDone_sec, Chip.release_sessions]
  unfold Chip.endCapture
  dsimp only
  split
  · split <;> exact freed _
  · exact freed _

theorem dropQueue_sessions (a : AxisId) : (c.dropQueue a).sec.sessions = c.sec.sessions := by
  unfold Chip.dropQueue
  dsimp only
  split
  · rfl
  · rw [Chip.raise_sec, Chip.placeFreed_sec]
    exact Apart.fold (g := fun c : Chip => c.sec.sessions) _ _ _ fun c m _ => Chip.release_sessions ..

theorem emptied_sessions (k : CarId) : (c.emptied k).sec.sessions = c.sec.sessions := by
  let g : Chip → Vector Session 16 := fun c => c.sec.sessions
  unfold Chip.emptied
  extract_lets dropped items returned
  have same : g returned = g c := by
    have drop : g dropped = g c := Apart.fold (g := g) _ _ _ fun c a _ => dropQueue_sessions c a
    exact (Apart.fold (g := g) _ _ _ fun c i _ => by simp only [g, Chip.jobDone_sec, Chip.release_sessions]).trans drop
  split
  · exact same
  · rw [Chip.placeFreed_sec]
    exact same

theorem resetCar_sessions (k : CarId) : (c.resetCar k).sec.sessions = c.sec.sessions := by
  let g : Chip → Vector Session 16 := fun c => c.sec.sessions
  have door (c : Chip) (d : DoorId) : g (c.doorReset d) = g c := doorReset_keeps c g d fun _ _ _ => rfl
  have reset : g (c.resetCar k) = g (((c.mastReset k).doorReset (frontDoor k)).doorReset (rearDoor k)) :=
    resetCar_keeps c k g (fun _ _ _ => rfl) (fun _ _ _ => rfl) (fun _ _ _ => rfl) (fun _ _ _ => rfl) fun _ _ => rfl
  rw [door, door] at reset
  exact reset

theorem endCarCaptures_sessions (k : CarId) : (c.endCarCaptures k).sec.sessions = c.sec.sessions := by
  unfold Chip.endCarCaptures
  refine foldFin_keeps (fun c : Chip => c.sec.sessions) _ (fun i c => ?_) c
  split
  · rfl
  · split
    · exact endCapture_sessions ..
    · rfl

/-- A switch-off returns credits and leaves the sessions (R90, R161, R193). -/
theorem switchOff_sessions (k : CarId) : (c.switchOff k).sec.sessions = c.sec.sessions := by
  have reset : ((((c.emptied k).setService k .islandOff).resetCar k)).sec.sessions = c.sec.sessions := by
    rw [resetCar_sessions, Chip.setService_sec, emptied_sessions]
  rw [switchOff_eq]
  exact (darkenFold_keeps (fun c : Chip => c.sec.sessions) (fun _ _ _ => rfl) _ _).trans reset

theorem powerOffStep_sessions (k : CarId) : (c.powerOffStep k).sec.sessions = c.sec.sessions := by
  unfold Chip.powerOffStep
  split
  · rw [switchOff_sessions, endCarCaptures_sessions]
  · rfl

theorem carBoundary_sessions (k : CarId) (x : TickInputs) : (c.carBoundary k x).sec.sessions = c.sec.sessions := by
  have apart := sessions_apart k
  have opened : ((((c.latchPositions k).powerOffStep k).modCar k fun x => { x with powerFresh := false }) : Chip).sec.sessions =
      c.sec.sessions :=
    (powerOffStep_sessions ..).trans (apart.latchPositions c)
  unfold Chip.carBoundary
  dsimp only
  split
  · exact (apart.carConfigure _).trans ((apart.carLatch _ x).trans opened)
  · exact (apart.serviceStep _).trans opened

/-! ### The whole -/

/-- A tick makes of a keyed session what the sessions' part of its boundary makes of it. -/
theorem tickBoundary_session (m : Mems) (x : TickInputs) (n : SessionId) (keyed : n.val ≠ 0)
    (open_ : (c.sec.sessions[n.val]).isOpen = true) :
    ((c.sec.sessions[n.val]).closing ≠ none → (c.tickBoundary m x).sec.sessions[n.val] = Session.init) ∧
    ((c.sec.sessions[n.val]).closing = none → ((c.tickBoundary m x).sec.sessions[n.val]).seated =
      (true, (c.sec.sessions[n.val]).seat, (c.sec.sessions[n.val]).kMacDown, satInc (c.sec.sessions[n.val]).idle, none)) := by
  let b := (c.scanProgress m).threadsOpened x c.running
  have seated : (b.sec.sessions[n.val]).seated = (c.sec.sessions[n.val]).seated := by
    rw [← scanProgress_sessions c m]
    exact threadsOpened_seated ..
  have through : (c.tickBoundary m x).sec.sessions = b.sessionBoundary.sec.sessions := by
    rw [tickBoundary_eq]
    refine (foldFin_keeps (fun c : Chip => c.sec.sessions) _ (fun k c => carBoundary_sessions c k x) _).trans ?_
    refine (powerBoundary_sessions ..).trans ?_
    unfold Chip.opened
    rw [admissionBoundary_sec]
  simp only [Session.seated, Prod.mk.injEq] at seated
  obtain ⟨isOpen, seat, mac, idle, closing⟩ := seated
  simp only [through, sessionBoundary_session _ n keyed, sessionsClosed_session, isOpen, open_, closing, true_and]
  refine ⟨fun asked => ?_, fun stays => ?_⟩
  · rw [if_pos asked]
    rfl
  · simp only [stays, ne_eq, not_true_eq_false, if_false, isOpen, open_, if_true, Session.seated, seat, mac, idle, closing]

end

end Sys2Proof.Machine
end

section
/-! Events of sessions, seats, challenges and witnesses (R103, R112 to R114, R133). -/

namespace Sys2Proof.Machine

/-! ### Sessions that are to close -/

/-- A session that is asked to close takes the reason where none but IDLE stands (R114). -/
theorem toClose_closing (reason : Byte) : (fun x : Session => x.toClose reason) = fun x =>
    { x with closing := if x.closing = none ∨ x.closing = some 2 then some reason else x.closing } := by
  funext x
  unfold Session.toClose
  congr 1
  split
  · next idle => rw [if_pos (.inr idle)]
  · next none_ => rw [if_pos (.inl none_)]
  · next r later stands =>
    rw [if_neg (by rw [stands]; exact fun h => h.elim nofun fun two => later (Option.some.inj two)), stands]

section

variable {s : State} {n : SessionId} (sck : s.chip.lnk.sckRunning = true) (keyed : n.val ≠ 0)
  (open_ : (s.chip.sec.sessions[n.val]).isOpen = true)
include sck keyed open_

theorem runSessionIdleTimeout_due (idle : s.chip.sec.sessTo.toNat ≤ (s.chip.sec.sessions[n.val]).idle.toNat) :
    runSessionIdleTimeout n s = s.act fun c => c.toClose n 2 :=
  clock_if_pos sck (by simp [keyed, open_, idle])

theorem runSessionMaclimit_due
    (limit : s.chip.sec.macMaxSession.toNat ≤ (recent 1024 s.chip.dev.tick (s.chip.sec.sessions[n.val]).macTicks).length) :
    runSessionMaclimit n s = s.act fun c => c.toClose n 3 :=
  clock_if_pos sck (by simp [keyed, open_, limit])

end

theorem runSessionIdleTimeout_early {s : State} {n : SessionId}
    (early : (s.chip.sec.sessions[n.val]).idle.toNat < s.chip.sec.sessTo.toNat) : runSessionIdleTimeout n s = s :=
  clock_if_neg (by simp [Nat.not_le.2 early])

theorem runSessionMaclimit_below {s : State} {n : SessionId}
    (below : (recent 1024 s.chip.dev.tick (s.chip.sec.sessions[n.val]).macTicks).length < s.chip.sec.macMaxSession.toNat) :
    runSessionMaclimit n s = s :=
  clock_if_neg (by simp [Nat.not_le.2 below])

/-- An open session that closes leaves its record, and nothing else of keys, cars and threads changes (R114). -/
theorem sessionEnded_closeSession {s : State} {n : SessionId} (open_ : (s.chip.sec.sessions[n.val]).isOpen = true) (reason : Byte) :
    SessionEnded n reason s (s.act fun c => c.closeSession n reason) := by
  have closed : s.chip.closeSession n reason =
      (s.chip.endSession n).record 133 none [BitVec.ofNat 8 n.val, (s.chip.sec.sessions[n.val]).seat.setWidth 8, reason] := if_pos open_
  have sec : (s.chip.closeSession n reason).sec = (s.chip.endSession n).sec := by rw [closed, Chip.record_sec]
  refine ⟨rfl, rfl, ?_, fun m apart => ?_, ?_, ?_, ?_, ?_, ?_, ?_, fun room => ?_⟩
  · exact (closeSession_session s.chip n n reason).trans (if_pos ⟨rfl, open_⟩)
  · exact (closeSession_session s.chip n m reason).trans (if_neg fun h => apart h.1)
  · exact (congrArg Sec.keys sec).trans rfl
  · exact (congrArg Sec.table sec).trans rfl
  · exact (congrArg Sec.sealSt sec).trans rfl
  · exact (congrArg Chip.cars closed).trans (Chip.record_cars ..)
  · exact (congrArg Chip.threads closed).trans (Chip.record_threads ..)
  · exact (congrArg Chip.dev closed).trans (Chip.record_dev ..)
  · exact (congrArg Chip.listed closed).trans (record_listed (s.chip.endSession n) 133 _ room)

/-! ### A seat at its limit -/

/-- The lock of a seat with its record; KEEPER is not locked (R86, R113). -/
def Chip.seatMarked (c : Chip) (i : Fin 7) : Chip :=
  if i.val = 0 then c
  else
    (c.modSec fun x =>
      if c.warning then { x with lockDue := x.lockDue ||| BitVec.ofNat 7 (2 ^ i.val) }
      else { x with locked := x.locked ||| BitVec.ofNat 7 (2 ^ i.val) }).record 139 none [(BitVec.ofNat 3 i.val).setWidth 8]

theorem runSeatLockout_due {s : State} {i : Fin 7} (sck : s.chip.lnk.sckRunning = true)
    (limit : s.chip.sec.macMaxSeat.toNat ≤ s.chip.seatCount i) (locked : s.chip.sec.locked.getLsbD i.val = false)
    (due : s.chip.sec.lockDue.getLsbD i.val = false) :
    runSeatLockout i s = s.act fun c => (c.seatMarked i).toCloseSeat (BitVec.ofNat 3 i.val) 4 := by
  have free : (s.chip.sec.locked ||| s.chip.sec.lockDue).getLsbD i.val = false := by rw [BitVec.getLsbD_or, locked, due]; rfl
  refine (clock_if_pos sck (by rw [free, decide_eq_true limit]; rfl)).trans (act_congr ?_)
  unfold Chip.seatMarked
  dsimp only
  split <;> rfl

theorem runSeatLockout_idle {s : State} {i : Fin 7} (idle : s.chip.seatCount i < s.chip.sec.macMaxSeat.toNat ∨
    s.chip.sec.locked.getLsbD i.val = true ∨ s.chip.sec.lockDue.getLsbD i.val = true) : runSeatLockout i s = s := by
  refine clock_if_neg ?_
  rcases idle with below | locked | due
  · simp [Nat.not_le.2 below]
  · simp [locked]
  · simp [due]

section

variable (c : Chip) (i : Fin 7)

/-- What the lock of a seat changes of the security block (R86, R113). -/
theorem seatMarked_sec : (c.seatMarked i).sec = { c.sec with
    locked := if i = 0 ∨ c.warning = true then c.sec.locked else c.sec.locked ||| BitVec.ofNat 7 (2 ^ i.val)
    lockDue := if i ≠ 0 ∧ c.warning = true then c.sec.lockDue ||| BitVec.ofNat 7 (2 ^ i.val) else c.sec.lockDue } := by
  unfold Chip.seatMarked
  by_cases keeper : i = 0
  · subst keeper
    rfl
  · have named : ¬ i.val = 0 := fun h => keeper (Fin.ext h)
    rw [if_neg named, Chip.record_sec, Chip.modSec_sec]
    cases warning : c.warning <;> simp [keeper]

theorem seatMarked_cars : (c.seatMarked i).cars = c.cars := by
  unfold Chip.seatMarked
  split
  · rfl
  · exact Chip.record_cars ..

/-- A seat other than KEEPER's leaves its record (R113). -/
theorem seatMarked_listed (room : c.journal.queue.length < c.journal.places) :
    (c.seatMarked i).listed = c.listed ++ if i = 0 then [] else [(139, [BitVec.ofNat 8 i.val])] := by
  have seat : (BitVec.ofNat 3 i.val).setWidth 8 = BitVec.ofNat 8 i.val := by
    revert i
    decide
  unfold Chip.seatMarked
  by_cases keeper : i = 0
  · subst keeper
    exact (List.append_nil _).symm
  · have named : ¬ i.val = 0 := fun h => keeper (Fin.ext h)
    rw [if_neg named, if_neg keeper, seat]
    exact record_listed _ 139 _ room

/-- The open sessions of a seat that are to close (R112). -/
theorem toCloseSeat_session (reason : Byte) (n : SessionId) :
    (c.toCloseSeat (BitVec.ofNat 3 i.val) reason).sec.sessions[n.val] =
      if n.val ≠ 0 ∧ (c.sec.sessions[n.val]).isOpen = true ∧ (c.sec.sessions[n.val]).seat.toNat = i.val
      then (c.sec.sessions[n.val]).toClose reason else c.sec.sessions[n.val] := by
  have seat (x : BitVec 3) : x = BitVec.ofNat 3 i.val ↔ x.toNat = i.val := by
    rw [← BitVec.toNat_inj, BitVec.toNat_ofNat, Nat.mod_eq_of_lt (by omega)]
  simp only [Chip.toCloseSeat, Chip.modSec_sec, vmap_at, seat, ne_eq, Bool.and_eq_true, decide_eq_true_eq, and_assoc, decide_not,
    Bool.not_eq_eq_eq_not, Bool.not_true, decide_eq_false_iff_not]

end

/-! ### Challenges and witnesses -/

section

variable {s : State} {n : SessionId}

theorem runChallengeExpiry_past {h : Challenge} (sck : s.chip.lnk.sckRunning = true)
    (pending : s.chip.sec.challenges[n.val] = some h) (old : 255 < h.age.toNat) :
    runChallengeExpiry n s = s.act fun c => c.modSec fun x => { x with challenges := upd x.challenges n fun _ => none } := by
  refine (State.clock_of_running sck _).trans (act_congr ?_)
  simp only [pending, if_pos old]

theorem runChallengeExpiry_young {h : Challenge} (sck : s.chip.lnk.sckRunning = true)
    (pending : s.chip.sec.challenges[n.val] = some h) (young : h.age.toNat ≤ 255) : runChallengeExpiry n s = s := by
  refine (State.clock_of_running sck _).trans ((act_congr (g := id) ?_).trans rfl)
  simp only [pending, if_neg (Nat.not_lt.2 young)]
  rfl

theorem runWitnessExpiry_past {w : Witness} (sck : s.chip.lnk.sckRunning = true) (first : s.chip.sec.witness = some w)
    (old : s.chip.sec.witnessTo.toNat < w.age.toNat) :
    runWitnessExpiry s = s.act fun c => c.modSec fun x => { x with witness := none } := by
  refine (State.clock_of_running sck _).trans (act_congr ?_)
  simp only [first, if_pos old]

theorem runWitnessExpiry_young {w : Witness} (sck : s.chip.lnk.sckRunning = true) (first : s.chip.sec.witness = some w)
    (young : w.age.toNat ≤ s.chip.sec.witnessTo.toNat) : runWitnessExpiry s = s := by
  refine (State.clock_of_running sck _).trans ((act_congr (g := id) ?_).trans rfl)
  simp only [first, if_neg (Nat.not_lt.2 young)]
  rfl

end

/-! ### The obligation -/

/-- Settles O45: each event asks, locks or discards where its condition holds, and the boundary closes what has been asked to. -/
theorem sessionEventsClose : Obligations.SessionEventsClose := by
  intro s sck c leaving
  refine ⟨fun n keyed open_ => ⟨fun idle => ?_, fun early => congrArg _ (runSessionIdleTimeout_early early), fun limit => ?_,
      fun below => congrArg _ (runSessionMaclimit_below below), sessionEnded_closeSession open_, fun x link settled => ?_⟩,
    fun i idle => congrArg _ (runSeatLockout_idle idle), fun i limit locked due => ?_,
    fun n h pending => ⟨fun old => congrArg _ (runChallengeExpiry_past sck pending old),
      fun young => congrArg _ (runChallengeExpiry_young sck pending young)⟩,
    fun w first => ⟨fun old => congrArg _ (runWitnessExpiry_past sck first old),
      fun young => congrArg _ (runWitnessExpiry_young sck first young)⟩⟩
  · refine congrArg _ ((runSessionIdleTimeout_due sck keyed open_ idle).trans ?_)
    simp only [Chip.toClose, toClose_closing, leaving]
  · refine congrArg _ ((runSessionMaclimit_due sck keyed open_ limit).trans ?_)
    simp only [Chip.toClose, toClose_closing, leaving]
  · obtain ⟨closes, stays⟩ := tickBoundary_session s.chip s.mem x n keyed open_
    refine ⟨_, congrArg Host.Outcome.next (runTickStart_due x link settled), ?_⟩
    rw [State.act_chip]
    generalize s.chip.tickBoundary s.mem x = t at closes stays
    refine ⟨closes, fun none_ => ?_⟩
    have seated := stays none_
    simp only [Session.seated, Prod.mk.injEq] at seated
    obtain ⟨isOpen, seat, mac, idle, -⟩ := seated
    exact ⟨isOpen, seat, mac, idle⟩
  · intro mark
    have sec := seatMarked_sec c i
    refine ⟨_, congrArg Host.Outcome.next (runSeatLockout_due sck limit locked due), rfl, rfl, ?_, ?_, fun n => ?_, fun room => ?_, ?_,
      ?_⟩
    · exact congrArg Sec.locked sec
    · exact congrArg Sec.lockDue sec
    · have sessions : (c.seatMarked i).sec.sessions = c.sec.sessions := (congrArg Sec.sessions sec).trans rfl
      refine (toCloseSeat_session (c.seatMarked i) i 4 n).trans ?_
      rw [show leaving 4 = fun x => x.toClose 4 from (toClose_closing 4).symm]
      simp only [sessions]
    · exact seatMarked_listed c i room
    · exact (congrArg Sec.keys sec).trans rfl
    · exact seatMarked_cars c i

end Sys2Proof.Machine
end

section
/-! An audited change: its records at the end of the journal queue, their slots reserved, and its place behind the changes accepted
before it (R128, R347). -/

namespace Sys2Proof.Machine

/-- A record of an audited change, at a place of the change, as the journal queue holds it with its number: the record of the last
place holds the packet credit (R128, R161). -/
def auditEntry (source flags : Byte) (last : Nat) (credit : Option Nat) (r : (Byte × List Byte) × Nat) (id : Nat) : JRecord :=
  ⟨id, r.1.1, source, flags, r.1.2, if r.2 = last then credit else none, none⟩

/-- Records that enter one after the other stand at the queue's end in their order, numbered from the next number on (R347). -/
theorem foldl_enqueueRecord (source flags : Byte) (last : Nat) (credit : Option Nat) (l : List ((Byte × List Byte) × Nat)) (c : Chip) :
    l.foldl (fun c r => c.enqueueRecord r.1.1 source flags r.1.2 (if r.2 = last then credit else none) none) c = c.modJournal fun j =>
      { j with
        queue := j.queue ++ (l.zipIdx j.nextId).map fun r => auditEntry source flags last credit r.1 r.2
        nextId := j.nextId + l.length } := by
  induction l generalizing c with
  | nil => simp [Chip.modJournal]
  | cons r l ih =>
    rw [List.foldl_cons, ih]
    simp [Chip.enqueueRecord, Chip.modJournal, auditEntry, Nat.add_assoc, Nat.add_comm 1]

/-- Taking a packet credit changes the credits alone of the security block (R161). -/
theorem takeCredit_sec (c : Chip) (sid : BitVec 4) (seat : BitVec 3) :
    ∃ credits, (c.takeCredit sid seat).sec = { c.sec with credits := credits } := by
  unfold Chip.takeCredit
  split <;> exact ⟨_, rfl⟩

section

variable (c : Chip) (sid : BitVec 4) (seat : BitVec 3) (ch : Change) (brk : Bool) (car : Option CarId)
  (records : List (Byte × List Byte))

/-- What an accepted change does to the journal (R128, R347). -/
theorem audit_journal : ∃ credit, (c.audit sid seat ch brk car records).journal =
    { c.journal with
      queue := c.journal.queue ++ (records.zipIdx.zipIdx c.journal.nextId).map fun r =>
        auditEntry (hostSource sid seat) (recordFlags true false false brk car) (records.length - 1) credit r.1 r.2
      nextId := c.journal.nextId + records.length
      auditReserved := c.journal.auditReserved + BitVec.ofNat 13 records.length } := by
  refine ⟨if (c.sec.creditKind sid seat).isSome then some c.nextCredit else none, ?_⟩
  simp only [Chip.audit, foldl_enqueueRecord, Chip.modSec_journal, Chip.modJournal_journal, Chip.takeCredit_journal, List.length_zipIdx]

/-- What it does to the security block (R128, R161). -/
theorem audit_sec : ∃ credits, (c.audit sid seat ch brk car records).sec =
    { c.sec with
      credits := credits
      audits := c.sec.audits ++ [⟨ch, (List.range records.length).map (c.journal.nextId + ·), 0, false⟩] } := by
  obtain ⟨credits, taken⟩ := takeCredit_sec c sid seat
  refine ⟨credits, ?_⟩
  simp only [Chip.audit, foldl_enqueueRecord, Chip.modSec_sec, Chip.modJournal_sec, taken]

theorem audit_sps : (c.audit sid seat ch brk car records).sps = c.sps := by
  simp only [Chip.audit, foldl_enqueueRecord, Chip.modSec_sps, Chip.modJournal_sps, Chip.takeCredit_sps]

/-- The numbers, types and bodies of the records of a change, in their order. -/
theorem auditEntry_listed (source flags : Byte) (last next : Nat) (credit : Option Nat) :
    ((records.zipIdx.zipIdx next).map fun r => auditEntry source flags last credit r.1 r.2).map (fun r => (r.id, r.type, r.body)) =
      records.zipIdx.map fun r => (next + r.2, r.1.1, r.1.2) := by
  refine List.ext_getElem (by simp) fun n _ _ => ?_
  simp [auditEntry]

end

/-- Settles O29: of the journal a change takes the queue's end and the reserved slots, and of the security block the end of the list
of accepted changes. -/
theorem auditedChangeWaitsForRecords : Obligations.AuditedChangeWaitsForRecords := by
  intro c sid seat ch brk car records d
  obtain ⟨credit, journal⟩ : ∃ credit, d.journal = _ := audit_journal c sid seat ch brk car records
  obtain ⟨credits, sec⟩ : ∃ credits, d.sec = _ := audit_sec c sid seat ch brk car records
  rw [journal, sec]
  refine ⟨?_, rfl, rfl, rfl, rfl, rfl, audit_sps c sid seat ch brk car records⟩
  rw [List.map_append, auditEntry_listed]

end Sys2Proof.Machine
end

section
/-! TBLEDIT and TBLPRESS of KEEPER: accepted (R126 to R128). -/

namespace Sys2Proof.Machine

section

variable {x : Ctx} {m : Mems} {c : Chip} {st : TableStage} (stage : c.sec.stage = some st)
include stage

/-- The refusals of a TBLPRESS while a stage exists (R127, R128). -/
theorem tblpress_checks : (bodyTblpress x m c).checks =
    [(!x.who.isSeat 0, .denied), (decide (x.opA ≠ c.sec.tblGen), .state),
      (decide (head8 (tableDigest st.rows) ≠ (x.opB ++ x.opC : BitVec 64)), .refused),
      (st.pressed || decide (st.owner ≠ x.who.sid), .busy)] ++ if st.rows = c.sec.table then [] else c.auditRefusals x.who 1 := by
  simp only [bodyTblpress, stage]

/-- The table in force drops the stage (R127). -/
theorem tblpress_act_same (same : st.rows = c.sec.table) (b : Chip) :
    (bodyTblpress x m c).act b = reply .done (b.modSec fun s => { s with stage := none }) := by
  simp only [bodyTblpress, stage, if_pos same]

/-- Another table is pressed as an audited change (R127, R128, R134). -/
theorem tblpress_act_differs (differs : st.rows ≠ c.sec.table) (b : Chip) : (bodyTblpress x m c).act b =
    (b.modSec fun s => { s with stage := some { st with pressed := true } }).acceptAudit x.who .tblpress
      (b.wouldBreak && pressBreaks b.sec.table st.rows) none
      [(192, bytesBE (b.sec.tblGen + 1) 4 ++ bytesBE (head8 (tableDigest b.sec.table)) 8 ++ bytesBE (head8 (tableDigest st.rows)) 8)] := by
  simp only [bodyTblpress, stage, if_neg differs]

end

section

variable {p : Packet} {f : Enc} {s : State} (d : f.d = 0) (a : f.a = 0) (m : f.m = 0) (keeper : (whoOf (.host p) s).isSeat 0 = true)
include d a m keeper

/-- TBLEDIT changes the bits of its mask in one word of the stage (R126). -/
theorem runTbledit_accepted (ready : Ready (.host p) 0x38 f 8 s) (bit3 : f.imm.getLsbD 3 = false) (high : immBits f.imm 7 9 = 0)
    (zero : p.c = 0) {old new : Row} (stands : old = (found (.host p) 8 s).sec.staged[(immBits f.imm 0 3).toNat])
    (edited : new = old.set (immBits f.imm 4 3).toNat ((old[(immBits f.imm 4 3).toNat] &&& ~~~p.b) ||| (p.a &&& p.b)))
    (allowed : rowAllowed (immBits f.imm 0 3) new = true)
    (free : ∀ st, (found (.host p) 8 s).sec.stage = some st → st.pressed = false ∧ st.owner = (whoOf (.host p) s).sid) :
    runTbledit (.host p) f s = answered (.host p) (reply .done ((begun (.host p) 8 s).modSec fun x =>
      { x with stage := some ⟨x.staged.set (immBits f.imm 0 3).toNat new, (whoOf (.host p) s).sid, false⟩ })) s := by
  have range : (f.imm.getLsbD 3 || decide (immBits f.imm 7 9 ≠ 0) || decide (p.c ≠ 0) ||
      !rowAllowed (immBits f.imm 0 3) new) = false := by
    rw [bit3, high, zero, allowed]; rfl
  subst stands edited
  refine issue_hostOnly_accepted ready (noFields_eq d a m)
    (clear_cons.2 ⟨congrArg Bool.not keeper, clear_pair.2 ⟨range, ?_⟩⟩) rfl rfl
  cases stage : (found (.host p) 8 s).sec.stage with
  | none => rfl
  | some st =>
    obtain ⟨unpressed, owner⟩ := free st stage
    simp [unpressed, owner, ctxOf]

variable (ready : Ready (.host p) 0x39 f 12 s) {st : TableStage} (stage : (found (.host p) 12 s).sec.stage = some st)
  (generation : p.a = (found (.host p) 12 s).sec.tblGen) (digest : (p.b ++ p.c : BitVec 64) = head8 (tableDigest st.rows))
  (unpressed : st.pressed = false) (owner : st.owner = (whoOf (.host p) s).sid)
include ready stage generation digest unpressed owner

/-- A TBLPRESS of the stage by its owner takes effect where nothing refuses the change that it is: none for the table in force, and
an audited one otherwise (R127, R128). -/
theorem runTblpress_accepted {r : Reply} (ok : r.status.ok = true)
    (audited : st.rows ≠ (found (.host p) 12 s).sec.table → Clear ((found (.host p) 12 s).auditRefusals (whoOf (.host p) s) 1))
    (effect : (bodyTblpress (ctxOf (.host p) f s) s.mem (found (.host p) 12 s)).act (begun (.host p) 12 s) = r) :
    runTblpress (.host p) f s = answered (.host p) r s := by
  have busy : (st.pressed || decide (st.owner ≠ (whoOf (.host p) s).sid)) = false := by simp [unpressed, owner]
  refine issue_hostOnly_accepted ready ?_ ?_ effect ok
  · simp only [bodyTblpress, stage]
    exact noFields_eq d a m
  · rw [tblpress_checks stage]
    refine (clear_append _ _).2 ⟨clear_cons.2 ⟨congrArg Bool.not keeper, clear_cons.2 ⟨decide_eq_false (not_not_intro generation),
      clear_pair.2 ⟨decide_eq_false (not_not_intro digest.symm), busy⟩⟩⟩, ?_⟩
    split
    · exact nofun
    · next differs => exact audited differs

end

/-- Settles O24: TBLEDIT passes its checks, and TBLPRESS those of the table in force or of an audited change. -/
theorem tableIsStaged : Obligations.TableIsStaged := by
  intro p f s d a m i who keeper
  refine ⟨fun old new ready bit3 high zero stands edited allowed free =>
      congrArg _ (runTbledit_accepted d a m keeper ready bit3 high zero stands edited allowed free),
    fun st ready stage generation digest unpressed owner => ?_⟩
  have press {r : Reply} := runTblpress_accepted (r := r) d a m keeper ready stage generation digest unpressed owner
  exact ⟨fun same => congrArg Host.Outcome.next (press rfl (absurd same) (tblpress_act_same stage same _)),
    fun differs clear => congrArg Host.Outcome.next (press rfl (fun _ => clear) (tblpress_act_differs stage differs _))⟩

end Sys2Proof.Machine
end

section
/-! STARCH and UNSTARCH: accepted (R132, R133, R135). -/

namespace Sys2Proof.Machine

section

variable {p : Packet} {f : Enc} {s : State} (fields : f = ⟨0, 0, 0, 0⟩) (a : p.a = 0) (b : p.b = 0) (c : p.c = 0)
include fields a b c

theorem sealRange_packet : sealRange (ctxOf (.host p) f s) = false := by
  subst fields
  simp [sealRange, ctxOf, operandsOf, Ctx.opA, Ctx.opB, Ctx.opC, a, b, c]

/-- STARCH of INSPECTOR queues the seal as an audited change whose record shows the set that it will seal (R132, R135). -/
theorem runStarch_queued (ready : Ready (.host p) 0x3B f 8 s) (inspector : (whoOf (.host p) s).isSeat 1 = true)
    (unsealed : (found (.host p) 8 s).sec.sealSt ≠ .sealed_)
    (clear : Clear ((found (.host p) 8 s).auditRefusals (whoOf (.host p) s) 1)) :
    runStarch (.host p) f s = answered (.host p) (reply .queued
      ((begun (.host p) 8 s).audit (whoOf (.host p) s).sid (whoOf (.host p) s).seat .starch false none
        [(197, bytesBE ((found (.host p) 8 s).projected.sps.digest.extractLsb' 128 128) 16 ++
          [(found (.host p) 8 s).projected.sec.breaks])])) s := by
  have legal : noFields f = false := by rw [fields]; rfl
  exact issue_hostOnly_accepted ready legal (clear_cons.2 ⟨congrArg Bool.not inspector,
    clear_cons.2 ⟨sealRange_packet fields a b c, clear_cons.2 ⟨decide_eq_false unsealed, clear⟩⟩⟩) rfl rfl

variable (party : (whoOf (.host p) s).isSeat 1 = true ∨ (whoOf (.host p) s).isSeat 2 = true)
  (closed : (found (.host p) 8 s).projected.sec.sealSt ≠ .open_)
include party closed

/-- The refusals that both UNSTARCH packets of the two seats share, with the seal not open (R133, R135). -/
theorem unstarch_clear : Clear [(!(whoOf (.host p) s).isSeat 1 && !(whoOf (.host p) s).isSeat 2, Status.denied),
    (sealRange (ctxOf (.host p) f s), .range), (decide ((found (.host p) 8 s).projected.sec.sealSt = .open_), .state)] := by
  refine clear_cons.2 ⟨?_, clear_pair.2 ⟨sealRange_packet fields a b c, decide_eq_false closed⟩⟩
  rcases party with h | h <;> simp [h]

variable (ready : Ready (.host p) 0x3C f 8 s)
include ready

/-- The first UNSTARCH records its witness (R133). -/
theorem runUnstarch_witnessed
    (alone : (found (.host p) 8 s).projected.sec.liveWitness (found (.host p) 8 s).sec.witnessTo = none) :
    runUnstarch (.host p) f s = answered (.host p) (reply .done
      (((begun (.host p) 8 s).modSec fun x => { x with witness := some ⟨(whoOf (.host p) s).seat, 0⟩ }).record 134 none
        [(whoOf (.host p) s).seat.setWidth 8])) s := by
  refine issue_hostOnly_accepted ready ?_ ?_ ?_ rfl
  · simp only [bodyUnstarch, alone]
    rw [fields]; rfl
  · simp only [bodyUnstarch, alone]
    exact unstarch_clear fields a b c party closed
  · simp only [bodyUnstarch, alone]
    rfl

/-- The second, of the other seat, queues the opening of the seal as an audited change whose record names the first (R133, R135). -/
theorem runUnstarch_queued {w : Witness}
    (first : (found (.host p) 8 s).projected.sec.liveWitness (found (.host p) 8 s).sec.witnessTo = some w)
    (other : w.seat ≠ (whoOf (.host p) s).seat) (clear : Clear ((found (.host p) 8 s).auditRefusals (whoOf (.host p) s) 1)) :
    runUnstarch (.host p) f s = answered (.host p) (reply .queued
      ((begun (.host p) 8 s).audit (whoOf (.host p) s).sid (whoOf (.host p) s).seat (.unseal (whoOf (.host p) s).seat) false none
        [(198, w.seat.setWidth 8 :: bytesBE (w.age.setWidth 16) 2)])) s := by
  refine issue_hostOnly_accepted ready ?_ ?_ ?_ rfl
  · simp only [bodyUnstarch, first]
    rw [fields]; rfl
  · simp only [bodyUnstarch, first]
    have shared := unstarch_clear fields a b c party closed
    exact (clear_append _ _).2 ⟨(clear_append _ _).2 ⟨shared, clear_cons.2 ⟨decide_eq_false other, nofun⟩⟩, clear⟩
  · simp only [bodyUnstarch, first]
    rfl

end

/-- Settles O26: STARCH passes its checks, and UNSTARCH those of a first witness or of the completing one. -/
theorem sealIsClosedAndOpened : Obligations.SealIsClosedAndOpened := by
  intro p f s fields a b c
  exact ⟨fun ready inspector unsealed clear => congrArg _ (runStarch_queued fields a b c ready inspector unsealed clear),
    fun ready party closed => ⟨fun alone => congrArg _ (runUnstarch_witnessed fields a b c party closed ready alone),
      fun w first other clear => congrArg _ (runUnstarch_queued fields a b c party closed ready first other clear)⟩⟩

end Sys2Proof.Machine
end

section
/-! YIELD and WAIT of a thread (R153, R154, R180), and the instructions that only the host may issue, in a thread (R146). -/

namespace Sys2Proof.Machine

/-! ### YIELD and WAIT -/

/-- An instruction leaves what its change makes of its own thread, whose cycles count (R152). -/
theorem ranThread_congr {t : ThreadId} {cycles : Nat} {s : State} {g h : Thread → Thread}
    (same : g ((s.chip.threads[t.val]).charge cycles) = h ((s.chip.threads[t.val]).charge cycles)) :
    ranThread t cycles g s = ranThread t cycles h s := by
  have started : (s.chip.starts t cycles).threads[t.val] = (s.chip.threads[t.val]).charge cycles := upd_same ..
  simp only [ranThread, Chip.modThread, upd, started, same]

/-- A legal plain instruction whose change of its thread is known there. -/
theorem threadPlain_legal {t : ThreadId} {cycles : Nat} {illegal : Bool} {s : State} {g h : Thread → Thread} (fits : SlotFits t cycles s)
    (legal : illegal = false)
    (same : g ((s.chip.threads[t.val]).charge cycles) = h ((s.chip.threads[t.val]).charge cycles)) :
    threadPlain t cycles illegal g s = ranThread t cycles h s := by
  subst legal
  exact (threadPlain_fits g fits).trans (ranThread_congr same)

/-- A WAIT with its fields 0, its reserved bits clear, and something to wait for is legal (R172, R180). -/
theorem wait_legal {f : Enc} {count : Word} (d : f.d = 0) (m : f.m = 0) (bit14 : f.imm.getLsbD 14 = false)
    (bit15 : f.imm.getLsbD 15 = false) (waits : waitMask f.imm ≠ 0 ∨ count ≠ 0) :
    (decide (f.d ≠ 0) || decide (f.m ≠ 0) || f.imm.getLsbD 14 || f.imm.getLsbD 15 || (decide (waitMask f.imm = 0) && decide (count = 0)))
      = false := by
  have nothing : (decide (waitMask f.imm = 0) && decide (count = 0)) = false := by
    rw [Bool.and_eq_false_iff, decide_eq_false_iff_not, decide_eq_false_iff_not]
    exact waits
  rw [d, m, bit14, bit15, nothing]
  rfl

/-- A WAIT that no deadline ends writes its matched events alone to W15 (R154). -/
theorem completeWait_untimed (x : Thread) (matched : BitVec 16) :
    x.completeWait matched 0 =
      { x with
        st := .ready, pend := x.pend &&& ~~~matched, w := setReg x.w 15 (matched.setWidth 32), deadline := none, progressed := true } := by
  simp [Thread.completeWait]

/-- Settles O14: a legal YIELD or WAIT changes its thread alone, and the events pending there decide what a WAIT does. -/
theorem yieldAndWait : Obligations.YieldAndWait := by
  intro t f s mask count matched
  refine ⟨fun fits fields => congrArg _ (threadPlain_legal fits (by rw [fields]; rfl) rfl),
    fun fits d m bit14 bit15 waits => ?_⟩
  have legal := wait_legal d m bit14 bit15 waits
  refine ⟨fun some_ => congrArg _ (threadPlain_legal fits legal ?_), fun none_ => congrArg _ (threadPlain_legal fits legal ?_)⟩
  · have matches_ : ((s.chip.threads[t.val]).charge 2).pend &&& waitMask f.imm ≠ 0 := some_
    simp only [if_pos matches_, completeWait_untimed]
    rfl
  · have unmatched : ¬ ((s.chip.threads[t.val]).charge 2).pend &&& waitMask f.imm ≠ 0 := not_not_intro none_
    simp only [if_neg unmatched]
    rfl

/-! ### Instructions of the host alone -/

/-- In a thread a plan for the host alone is an illegal encoding, whatever its fields (R146). -/
theorem threadIssue_hostOnly {t : ThreadId} {f : Enc} {cycles : Nat} {body : Body} {s : State} (fits : SlotFits t cycles s) :
    threadIssue t f cycles (hostOnly body) s = ranThread t cycles (fun x => x.fault 2) s := by
  have illegal : ∀ (w : Vector Word 16) (m : Mems) (c : Chip), (hostOnly body ⟨.thread t, f, w⟩ m c).illegal = true :=
    fun _ _ _ => Bool.or_true _
  simp only [threadIssue, threadRun_fits _ fits, illegal, Bool.or_true, if_true, ranThread]

/-- Settles O12: each of them is issued as a plan for the host alone. -/
theorem hostOnlyInstructionsFaultInThreads : Obligations.HostOnlyInstructionsFaultInThreads := by
  intro t f s i faults
  have illegal {f : Enc} {cycles : Nat} (body : Body) (fits : SlotFits t cycles s) :
      Host.Outcome.next (threadIssue t f cycles (hostOnly body) s) = (.next (ranThread t cycles (fun x => x.fault 2) s) : Out) :=
    congrArg _ (threadIssue_hostOnly fits)
  exact ⟨fun fits => ⟨illegal _ fits, illegal _ fits, illegal _ fits, illegal _ fits⟩,
    fun fits => ⟨illegal _ fits, illegal _ fits⟩,
    fun fits => ⟨illegal _ fits, illegal _ fits, illegal _ fits, illegal _ fits, illegal _ fits, illegal _ fits⟩,
    fun fits => ⟨illegal _ fits, illegal _ fits, illegal _ fits⟩,
    fun fits => ⟨illegal _ fits, illegal _ fits⟩,
    fun fits => ⟨illegal _ fits, illegal _ fits⟩⟩

end Sys2Proof.Machine
end

section
/-! Motion instructions on a named axis, and the moves that MOVE, MOVEQ and HOME queue (R159, R161, R184, R186, R205, R215, R282,
R286). -/

namespace Sys2Proof.Machine

/-! ### An instruction on a named axis -/

/-- On a named axis a motion instruction is its plan for that axis behind the checks that all of them share (R184). -/
theorem onAxis_named {x : Ctx} {c : Chip} {illegal : Bool} {reserved : BitVec 16} {g : AxisId → Plan} {pre : Checks} {a : AxisId}
    (named : axisOperand x.who x.f.imm = some a) :
    onAxis x c illegal reserved g pre =
      { g a with
        illegal := illegal, checks := pre ++ (decide (x.f.imm &&& reserved ≠ 0), .range) :: (axisChecks x c a ++ (g a).checks) } := by
  simp only [onAxis, named]

/-- A unit that is in no fault state changes no plan (R186). -/
theorem orFault_sound {c : Chip} {a : AxisId} {x : Ctx} {p : Plan} (sound : c.axisFault a = false) : orFault c a x p = p := by
  rw [orFault, sound]
  exact if_neg Bool.false_ne_true

section

variable {i : Issuer} {op : BitVec 6} {f : Enc} {cycles : Nat} {reserved : BitVec 16} {a : AxisId} {s : State}
  (acts : ActsOnAxis i f cycles reserved a s)
include acts

/-- None of the shared checks refuses an issuer that may act on the axis (R121, R184, R272). -/
theorem axisChecks_clear : Clear (axisChecks (ctxOf i f s) (found i cycles s) a) := by
  obtain ⟨-, -, right, may, lit, inUse⟩ := acts
  exact clear_cons.2 ⟨right, clear_cons.2 ⟨congrArg Bool.not may, clear_pair.2 ⟨congrArg Bool.not lit, inUse⟩⟩⟩

/-- A motion instruction whose plan for the axis refuses nothing takes that plan's effect (R11, R184). -/
theorem issue_onAxis {body : Body} {illegal : Bool} {g : AxisId → Plan} {r : Reply} (ready : Ready i op f cycles s)
    (plan : body (ctxOf i f s) s.mem (found i cycles s) = onAxis (ctxOf i f s) (found i cycles s) illegal reserved g)
    (legal : illegal = false) (clear : Clear (g a).checks) (effect : (g a).act (begun i cycles s) = r) (ok : r.status.ok = true) :
    issue i op f cycles body s = answered i r s := by
  obtain ⟨named, fields, -⟩ := id acts
  refine issue_plan ready (plan.trans (onAxis_named named)) legal ?_ effect ok
  exact clear_cons.2 ⟨decide_eq_false (not_not_intro fields), (clear_append _ _).2 ⟨axisChecks_clear acts, clear⟩⟩

end

/-! ### The queue of an axis -/

/-- A move that enters the queue of an axis: a host's takes a packet credit and holds it (R159, R161). -/
theorem enqueueMove_begun (i : Issuer) (cycles : Nat) (s : State) (a : AxisId) (kind : MoveKind) (target : Word) (cap : Option Word) :
    (begun i cycles s).enqueueMove (whoOf i s) a kind target cap = (withCredit i s (begun i cycles s)).modAxis a fun x =>
      { x with queue := x.queue ++ [⟨kind, target, cap, creditOf i (begun i cycles s)⟩] } := by
  cases i <;> rfl

/-- The cap of a move: operand A where M names one and it is not 0 (R205). -/
theorem moveCap_eq (m : BitVec 2) (w : Word) :
    (if (decide (m = 1) && decide (w ≠ 0)) = true then some w else none) = if m = 1 ∧ w ≠ 0 then some w else none := by
  simp only [Bool.and_eq_true, decide_eq_true_eq]

section

variable {i : Issuer} {f : Enc} {s : State} {a : AxisId} (acts : ActsOnAxis i f 6 0xFF80 a s)
  (sound : (found i 6 s).axisFault a = false) (limits : (found i 6 s).limitsZero a = false)
  (unready : (found i 6 s).doorUnready a = false) (room : (found i 6 s).movesFull (whoOf i s) a = false)
include acts sound limits unready room

/-- An accepted MOVE, or MOVEQ of an axis with a seam, queues its move (R186, R205, R282, R286). -/
theorem issue_move_queued {seam : Bool} {op : BitVec 6} (ready : Ready i op f 6 s) (form : (f.m = 0 ∧ f.a = 0) ∨ f.m = 1)
    (inside : (found i 6 s).inRange a (regOf (operandsOf i s) f.d) = true)
    (positive : f.m = 1 → 0 ≤ (regOf (operandsOf i s) f.a).toInt) (service : (found i 6 s).serviceIn a [.inspect, .in_] = true)
    (joins : seam = true → 12 ≤ a.val ∧ ((found i 6 s).axes[a.val]).seam = true) (range : (found i 6 s).noRange a = false)
    (homed : ((found i 6 s).axes[a.val]).homed = true) (free : (found i 6 s).doorBusy a = false) :
    issue i op f 6 (bodyMove seam) s = answered i (reply .queued ((withCredit i s (begun i 6 s)).modAxis a fun x =>
      { x with queue := x.queue ++ [⟨if seam then .moveq else .move, regOf (operandsOf i s) f.d,
        if f.m = 1 ∧ regOf (operandsOf i s) f.a ≠ 0 then some (regOf (operandsOf i s) f.a) else none,
        creditOf i (begun i 6 s)⟩] })) s := by
  have legal : (decide (1 < f.m.toNat) || (decide (f.m = 0) && decide (f.a ≠ 0))) = false := by
    rcases form with ⟨m, a0⟩ | m <;> simp [*]
  have cap : (decide (f.m = 1) && decide ((regOf (operandsOf i s) f.a).toInt < 0)) = false := by
    rw [Bool.and_eq_false_imp]
    exact fun m => decide_eq_false (not_lt.2 (positive (of_decide_eq_true m)))
  have joined : (seam && (decide (a.val < 12) || !((found i 6 s).axes[a.val]).seam)) = false := by
    cases seam
    · rfl
    · obtain ⟨door, seam⟩ := joins rfl
      rw [decide_eq_false (not_lt.2 door), seam]
      rfl
  refine issue_onAxis acts ready rfl legal ?_ ?_ rfl
  · rw [orFault_sound sound]
    refine clear_cons.2 ⟨?_, clear_cons.2 ⟨?_, clear_pair.2 ⟨?_, room⟩⟩⟩
    · exact Bool.or_eq_false_iff.2 ⟨congrArg Bool.not inside, cap⟩
    · exact Bool.or_eq_false_iff.2 ⟨congrArg Bool.not service, joined⟩
    · rw [range, homed, limits, unready, free]
      rfl
  · rw [orFault_sound sound, moveCap_eq]
    exact congrArg _ (enqueueMove_begun ..)

/-- An accepted HOME queues the homing that it captures (R215, R286). -/
theorem issue_home_queued (ready : Ready i 0x28 f 6 s) (d : f.d = 0) (a0 : f.a = 0) (m : f.m = 0)
    (suits : (found i 6 s).homeUnsuited a = false) (kind : ((found i 6 s).homingOf a).kind ≠ 0)
    (service : (found i 6 s).serviceIn a [.out, .inspect] = true)
    (untested : a.val < 12 → (found i 6 s).testRunning (carOfAxis a) = false)
    (rests : ∀ d, doorOfAxis a = some d → ((found i 6 s).axes[a.val]).projected.st = .idle ∧
      (((found i 6 s).doors[d.val]).st = .closedLocked ∨ ((found i 6 s).doors[d.val]).st = .closed ∨
        ((found i 6 s).doors[d.val]).st = .open_ ∨ ((found i 6 s).doors[d.val]).st = .stopped)) :
    issue i 0x28 f 6 bodyHome s = answered i (reply .queued ((withCredit i s (begun i 6 s)).modAxis a fun x =>
      { x with queue := x.queue ++ [⟨.home ((found i 6 s).homingOf a), 0, none, creditOf i (begun i 6 s)⟩] })) s := by
  have legal : (decide (f.d ≠ 0) || decide (f.a ≠ 0) || decide (f.m ≠ 0)) = false := by rw [d, a0, m]; rfl
  have busy : (decide (a.val < 12) && (found i 6 s).testRunning (carOfAxis a)) = false := by
    rw [Bool.and_eq_false_imp]
    exact fun car => untested (of_decide_eq_true car)
  refine issue_onAxis acts ready rfl legal ?_ ?_ rfl
  · rw [orFault_sound sound]
    refine clear_cons.2 ⟨suits, clear_cons.2 ⟨?_, clear_cons.2 ⟨Bool.or_eq_false_iff.2 ⟨limits, unready⟩, clear_pair.2 ⟨busy, room⟩⟩⟩⟩
    rw [service, decide_eq_false kind]
    cases door : doorOfAxis a with
    | none => rfl
    | some d =>
      obtain ⟨idle, st⟩ := rests d door
      rcases st with st | st | st | st <;> simp [idle, st]
  · rw [orFault_sound sound]
    exact congrArg _ (enqueueMove_begun ..)

end

/-- Settles O18: each of them passes the checks of its axis and its own. -/
theorem moveInstructionsEnqueue : Obligations.MoveInstructionsEnqueue := by
  intro i f s a acts c who target capW home queued sound limits unready room
  refine ⟨fun form inside positive service range homed free => ⟨fun ready => ?_, fun ready door seam => ?_⟩,
    fun ready d a0 m suits kind service untested rests =>
      congrArg _ (issue_home_queued acts sound limits unready room ready d a0 m suits kind service untested rests)⟩
  · exact congrArg _ (issue_move_queued (seam := false) acts sound limits unready room ready form inside positive service nofun range
      homed free)
  · exact congrArg _ (issue_move_queued (seam := true) acts sound limits unready room ready form inside positive service
      (fun _ => ⟨door, seam⟩) range homed free)

end Sys2Proof.Machine
end

section
/-! The engine instructions: CRCJOB, CAL, TRACE and LOG at the end of their queues (R159 to R162, R190, R331, R336). -/

namespace Sys2Proof.Machine

/-! ### What a beginning leaves, and what FULL asks -/

/-- Beginning an instruction changes no access table (R110). -/
theorem begun_table (i : Issuer) (cycles : Nat) (s : State) : (begun i cycles s).sec.table = (found i cycles s).sec.table := by
  cases i with
  | thread => rfl
  | host p =>
    simp only [begun, Chip.countGate]
    split <;> rfl

/-- Nor therefore who sees secured landings. -/
theorem begun_whoSecured (i : Issuer) (cycles : Nat) (s : State) (who : Who) :
    (begun i cycles s).whoSecured who = (found i cycles s).whoSecured who := by
  cases who with
  | thread => rfl
  | host => simp only [Chip.whoSecured, Chip.secured, Chip.row, begun_table]

/-- A queue with a place, and a packet credit to be had, do not answer FULL (R159, R161). -/
theorem full_eq_false {free : Nat} {short : Bool} (place : free ≠ 0) (credit : short = false) : (decide (free = 0) || short) = false := by
  rw [decide_eq_false place, credit]
  rfl

/-! ### What each instruction checks -/

section

variable {x : Ctx} {m : Mems} {c : Chip}

/-- A CRCJOB of bytes that lie in its space and that its issuer may name meets no refusal (R335, R336). -/
theorem crcjob_clear {ck : CkId} {space : BitVec 2} {a n total : Nat} (named : ck = (immBits x.f.imm 0 3).toFin)
    (inSpace : space = immBits x.f.imm 4 2) (start : a = (regOf x.w x.f.d).toNat) (count : n = (regOf x.w x.f.a).toNat)
    (all : total = n + (c.scan.cks[ck.val]).cfg.extraRead + (c.scan.cks[ck.val]).cfg.appended) (known : space ≠ 3)
    (reserved : x.f.imm &&& 0xFFC8 = 0) (some_ : n ≠ 0) (fits : a + total ≤ spaceSize space)
    (mode : (c.scan.cks[ck.val]).cfg.mode = 1 → space = 0)
    (host : space = 0 → x.who.isHost = true → hostScanRange a total = true)
    (thread : space = 0 → ∀ t, x.who = .thread t → ∀ j < (c.scan.cks[ck.val]).cfg.appended, threadMayWrite t (a + n + j) = true)
    (right : c.lacks x.who 3 = false) (place : c.queueFree .scan ≠ 0) (credit : c.noCredit x.who = false) :
    Clear (bodyCrcjob x m c).checks := by
  subst named inSpace start count all
  refine clear_cons.2 ⟨right, clear_pair.2 ⟨?_, full_eq_false place credit⟩⟩
  simp only [Bool.or_eq_false_iff, Bool.and_eq_false_imp, decide_eq_true_eq]
  refine ⟨⟨⟨⟨⟨decide_eq_false known, decide_eq_false (not_not_intro reserved)⟩, decide_eq_false some_⟩,
    decide_eq_false (not_lt.2 fits)⟩, fun h => decide_eq_false (not_not_intro (mode h))⟩, fun ram => ?_⟩
  cases who : x.who with
  | host => exact congrArg Bool.not (host ram (by rw [who]; rfl))
  | thread t => exact congrArg Bool.not (List.all_eq_true.2 fun j inside => thread ram t who j (List.mem_range.1 inside))

/-- A CAL of a channel whose car is on, at rest from excitation tests, and of a kind that suits its type meets no refusal (R326). -/
theorem cal_clear {ch : FeId} (named : (immBits x.f.imm 0 6).toNat = ch.val) (reserved : x.f.imm &&& 0xFCC0 = 0)
    (suits : ((immBits x.f.imm 8 2).toNat = 0 ∧ regOf x.w x.f.d = 0 ∧
        ((c.fes[ch.val]).act.type = .bridge ∨ (c.fes[ch.val]).act.type = .tc)) ∨
      ((immBits x.f.imm 8 2).toNat = 1 ∧ regOf x.w x.f.d ≠ 0 ∧ (c.fes[ch.val]).act.type = .bridge))
    (right : c.lacks x.who 4 = false) (may : c.mayAct x.who (carOfFe ch) = true) (on_ : (c.cars[(carOfFe ch).val]).on = true)
    (quiet : c.exciteTest (carOfFe ch) = false) (place : c.queueFree (.cals (carOfFe ch)) ≠ 0) (credit : c.noCredit x.who = false) :
    Clear (bodyCal x m c).checks := by
  have used : (c.fes[ch.val]).act.type ≠ .off := by
    rcases suits with ⟨-, -, type | type⟩ | ⟨-, -, type⟩ <;> rw [type] <;> decide
  simp only [bodyCal, fin?_eq named]
  refine clear_cons.2 ⟨right, clear_cons.2 ⟨congrArg Bool.not may, clear_cons.2 ⟨?_, clear_pair.2
    ⟨?_, full_eq_false place credit⟩⟩⟩⟩
  · refine Bool.or_eq_false_iff.2 ⟨decide_eq_false (not_not_intro reserved), ?_⟩
    rcases suits with ⟨kind, ref, type | type⟩ | ⟨kind, ref, type⟩
    · simp only [kind, ref, type]
      rfl
    · simp only [kind, ref, type]
      rfl
    · simp only [kind, decide_eq_false ref, type]
      rfl
  · rw [on_, decide_eq_false used, quiet]
    rfl

/-- A TRACE of a source that its issuer may see meets no refusal (R138, R243, R244). -/
theorem trace_clear {src : Source} (source : sourceOf (regOf x.w x.f.d) = some src) (right : c.lacks x.who 5 = false)
    (seen : ∀ k, src.car = some k → c.maySee x.who k = true)
    (unveiled : src.veiled (c.whoLevel x.who) (c.whoSecured x.who) = false) (reserved : immBits x.f.imm 3 13 = 0)
    (trigger : slice (regOf x.w x.f.a) 16 4 = (0 : BitVec 4)) (owned : trigMode (regOf x.w x.f.a) = 3 → src.car.isSome = true)
    (lit : c.sourceDark src = false) (place : c.queueFree .traces ≠ 0) (credit : c.noCredit x.who = false) :
    Clear (bodyTrace x m c).checks := by
  simp only [bodyTrace, source]
  refine clear_cons.2 ⟨right, clear_cons.2 ⟨?_, clear_cons.2 ⟨unveiled, clear_cons.2 ⟨?_, clear_cons.2 ⟨?_, clear_pair.2
    ⟨lit, full_eq_false place credit⟩⟩⟩⟩⟩⟩
  · cases car : src.car with
    | none => rfl
    | some k => exact congrArg Bool.not (seen k car)
  · rw [decide_eq_false (not_not_intro reserved), decide_eq_false (not_not_intro trigger)]
    rfl
  · rw [Bool.and_eq_false_imp]
    intro mode
    rw [← Option.not_isSome, owned (of_decide_eq_true mode)]
    rfl

/-- The type of a record stands in the low byte of the immediate (R190). -/
theorem recordType_bit {imm : BitVec 16} {n : Nat} (low : n < 8) : (immBits imm 0 8).getLsbD n = imm.getLsbD n := by
  simp [immBits, low]

/-- A LOG whose W(D) to W(D + 2) its issuer has is legal (R169, R172, R190). -/
theorem log_legal (a : x.f.a = 0) (m0 : x.f.m = 0) (last : x.f.d.toNat ≤ 12) (one : x.who.isHost = true → x.f.d = 1) :
    (bodyLog x m c).illegal = false := by
  have fields : (decide (x.f.a ≠ 0) || decide (x.f.m ≠ 0)) = false := by rw [a, m0]; rfl
  refine Bool.or_eq_false_iff.2 ⟨Bool.or_eq_false_iff.2 ⟨fields, decide_eq_false (not_lt.2 last)⟩, ?_⟩
  rw [Bool.and_eq_false_imp]
  intro host
  rw [one host]
  rfl

/-- A LOG with room in the journal queue meets no refusal (R160, R190). -/
theorem log_clear (right : c.lacks x.who 6 = false) (low : x.f.imm.getLsbD 7 = false) (high : immBits x.f.imm 8 8 = 0)
    (quiet : c.warning = false) (place : c.journal.queue.length < 28) (credit : c.noCredit x.who = false)
    (sound : c.journal.fault = false) : Clear (bodyLog x m c).checks := by
  have low : (immBits x.f.imm 0 8).getLsbD 7 = false := (recordType_bit (by decide)).trans low
  refine clear_cons.2 ⟨right, clear_cons.2 ⟨?_, clear_cons.2 ⟨quiet, clear_pair.2 ⟨?_, sound⟩⟩⟩⟩
  · rw [low, decide_eq_false (not_not_intro high)]
    rfl
  · rw [decide_eq_false (not_le.2 place), credit]
    rfl

end

/-! ### The immediate of a row that fixes a kind -/

/-- The kind replaces bits 9 and 8 (R169). -/
theorem fixKind_imm (f : Enc) (kind : BitVec 16) : (fixKind f kind).imm = (f.imm &&& (0xFCFF : BitVec 16)) ||| (kind <<< 8) := rfl

/-- Bits outside the kind are those of the immediate. -/
theorem fixKind_and {f : Enc} {kind mask : BitVec 16} (kept : (0xFCFF : BitVec 16) &&& mask = mask) (apart : kind <<< 8 &&& mask = 0) :
    (fixKind f kind).imm &&& mask = f.imm &&& mask := by
  have split : (fixKind f kind).imm &&& mask = (f.imm &&& ((0xFCFF : BitVec 16) &&& mask)) ||| (kind <<< 8 &&& mask) := by
    ext n
    simp only [fixKind_imm, BitVec.getElem_and, BitVec.getElem_or, Bool.and_or_distrib_right, Bool.and_assoc]
  rw [split, kept, apart]
  exact BitVec.or_zero

/-- A field is that of the masked immediate with the kind in its place. -/
theorem immBits_fixKind (f : Enc) (kind : BitVec 16) (k w : Nat) :
    immBits (fixKind f kind).imm k w = (immBits f.imm k w &&& immBits 0xFCFF k w) ||| immBits (kind <<< 8) k w := by
  simp only [immBits, fixKind_imm, BitVec.extractLsb'_or, BitVec.extractLsb'_and]

/-- The channel stands as in the immediate. -/
theorem fixKind_channel {f : Enc} {kind : BitVec 16} (apart : immBits (kind <<< 8) 0 6 = 0) :
    immBits (fixKind f kind).imm 0 6 = immBits f.imm 0 6 := by
  have kept : immBits 0xFCFF 0 6 = BitVec.allOnes 6 := by decide
  rw [immBits_fixKind, apart, kept, BitVec.and_allOnes]
  exact BitVec.or_zero

/-- The kind stands in bits 9 and 8. -/
theorem fixKind_kind (f : Enc) (kind : BitVec 16) : immBits (fixKind f kind).imm 8 2 = immBits (kind <<< 8) 8 2 := by
  have cleared : immBits 0xFCFF 8 2 = 0 := by decide
  rw [immBits_fixKind, cleared]
  exact (congrArg (· ||| immBits (kind <<< 8) 8 2) BitVec.and_zero).trans BitVec.zero_or

/-- An accepted CAL queues a calibration of its kind (R326). -/
theorem issue_cal_queued {i : Issuer} {f : Enc} {s : State} {ch : FeId} {kind : BitVec 16} (a : f.a = 0) (m : f.m = 0)
    (named : (immBits f.imm 0 6).toNat = ch.val) (channel : immBits (kind <<< 8) 0 6 = 0)
    (ready : Ready i 0x32 (fixKind f kind) 6 s)
    (clear : Clear (bodyCal (ctxOf i (fixKind f kind) s) s.mem (found i 6 s)).checks) :
    issue i 0x32 (fixKind f kind) 6 bodyCal s =
      answered i (reply .queued ((withCredit i s (begun i 6 s)).modCal (carOfFe ch) fun g =>
        { g with
          queue := g.queue ++ [⟨ch, (immBits (kind <<< 8) 8 2).toNat = 1, regOf (operandsOf i s) f.d, (whoOf i s).producer,
            creditOf i (begun i 6 s)⟩] })) s := by
  have named : (immBits (ctxOf i (fixKind f kind) s).f.imm 0 6).toNat = ch.val := by rw [ctxOf_imm, fixKind_channel channel, named]
  refine issue_plan ready rfl ?_ clear ?_ rfl
  · simp only [bodyCal, fin?_eq named]
    exact Bool.or_eq_false_iff.2 ⟨decide_eq_false (not_not_intro a), decide_eq_false (not_not_intro m)⟩
  · simp only [bodyCal, fin?_eq named]
    rw [ctxOf_imm, fixKind_kind]
    cases i <;> rfl

/-! ### The obligation -/

/-- Settles O22: each of them meets no refusal, and its item, with the credit of its issuer, enters the queue. -/
theorem engineInstructionsEnqueue : Obligations.EngineInstructionsEnqueue := by
  intro i f s m c who w b credit queued
  refine ⟨fun ready known reserved some_ fits mode may right place free => congrArg Host.Outcome.next ?_,
    fun ch a named reserved right may on_ quiet place free =>
      ⟨fun ready zero suits => congrArg Host.Outcome.next ?_, fun ready nonzero bridge => congrArg Host.Outcome.next ?_⟩,
    fun src ready source right seen unveiled reserved trigger owned lit place free => congrArg Host.Outcome.next ?_,
    fun ready a last one right low high warning room free fault => congrArg Host.Outcome.next ?_⟩
  · refine issue_plan ready rfl (decide_eq_false (not_not_intro m)) ?_ (by cases i <;> rfl) rfl
    refine crcjob_clear rfl rfl rfl rfl rfl known reserved some_ fits mode ?_ ?_ right place free
    · intro ram host
      cases i with
      | thread => cases host
      | host => exact may ram
    · intro ram t thread
      cases i with
      | thread u =>
        obtain rfl : u = t := Who.thread.inj thread
        exact may ram
      | host => cases thread
  · refine issue_cal_queued a m named (by decide) ready (cal_clear ?_ ?_ (.inl ⟨?_, zero, suits⟩) right may on_ quiet place free)
    · rw [ctxOf_imm, fixKind_channel (by decide), named]
    · rw [ctxOf_imm, fixKind_and (by decide) (by decide), reserved]
    · rw [ctxOf_imm, fixKind_kind]
      rfl
  · refine issue_cal_queued a m named (by decide) ready (cal_clear ?_ ?_ (.inr ⟨?_, nonzero, bridge⟩) right may on_ quiet place free)
    · rw [ctxOf_imm, fixKind_channel (by decide), named]
    · rw [ctxOf_imm, fixKind_and (by decide) (by decide), reserved]
    · rw [ctxOf_imm, fixKind_kind]
      rfl
  · have source : sourceOf (regOf (ctxOf i f s).w (ctxOf i f s).f.d) = some src := source
    refine issue_plan ready rfl ?_ (trace_clear source right seen unveiled reserved trigger owned lit place free) ?_ rfl
    · simp only [bodyTrace, source]
      exact decide_eq_false (not_not_intro m)
    · simp only [bodyTrace, source, begun_whoSecured]
      cases i <;> rfl
  · refine issue_plan ready rfl ?_ (log_clear right low high warning room free fault) ?_ rfl
    · exact log_legal a m last one
    · rw [← recordType_bit (imm := f.imm) (n := 6) (by decide)]
      cases i <;> rfl

end Sys2Proof.Machine
end

section
/-! SUPPORT. What leaves the four memories as they were: work of a thread that stores nothing, and an instruction whose answer holds no
memory write (R147, R179). -/

namespace Sys2Proof.Machine

/-! ### Work at its place in the tick -/

theorem behindScan_mem {s : State} {cycle : Nat} {go : State → State} (h : (go s).mem = s.mem) :
    (s.behindScan cycle go).mem = s.mem := by
  unfold State.behindScan
  split
  · rfl
  · exact h

theorem reading_mem {s : State} {m : Fin 6} {words : Nat → Bool} {cycle : Nat} {go : State → State}
    (h : ∀ x : State, (go x).mem = x.mem) : (s.reading m words cycle go).mem = s.mem := by
  unfold State.reading
  split
  · rfl
  · exact h _

theorem atSlotStart_mem (s : State) (t : ThreadId) (holds : Bool) (f : Chip → Chip) : (s.atSlotStart t holds f).mem = s.mem := by
  unfold State.atSlotStart
  split
  · exact behindScan_mem rfl
  · rfl

theorem threadRun_mem {t : ThreadId} {cycles : Nat} {s : State} {go : State → State} (h : ∀ x : State, (go x).mem = x.mem) :
    (threadRun t cycles s go).mem = s.mem := by
  unfold threadRun State.threadNow
  split
  · refine behindScan_mem ?_
    split
    · rfl
    · exact h _
  · rfl

theorem threadPlain_mem (t : ThreadId) (cycles : Nat) (illegal : Bool) (go : Thread → Thread) (s : State) :
    (threadPlain t cycles illegal go s).mem = s.mem :=
  threadRun_mem fun _ => rfl

theorem threadLd_mem (t : ThreadId) (f : Enc) (s : State) : (threadLd t f s).mem = s.mem :=
  threadRun_mem fun x => by
    dsimp only
    split
    · split
      · rfl
      · exact reading_mem fun _ => rfl
    · split
      · split
        · exact reading_mem fun _ => rfl
        · rfl
      · rfl

/-! ### Instructions whose answer writes no memory -/

/-- Nothing that a plan answers writes a memory. -/
structure Plan.WritesNothing (p : Plan) : Prop where
  mem_act : ∀ c, (p.act c).mem = []

theorem Plan.WritesNothing.answer {p : Plan} (h : p.WritesNothing) (pre : List (Bool × Status)) (c : Chip) :
    (p.answer pre c).mem = [] := by
  unfold Plan.answer
  split
  · rfl
  · exact h.mem_act c

theorem Plan.WritesNothing.reads {p : Plan} (h : p.WritesNothing) {c : Chip} {who : Who} {cycles : Nat} {m : Fin 6}
    {words : Nat → Bool} {content : List (Bool × Status)} : (p.reads c who cycles m words content).WritesNothing := by
  unfold Plan.reads
  split
  · exact ⟨fun _ => rfl⟩
  · exact ⟨fun _ => h.mem_act _⟩

/-- A plan for the host alone has the effect of the plan (R146). -/
theorem hostOnly_writesNothing {body : Body} {x : Ctx} {m : Mems} {c : Chip} (h : (body x m c).WritesNothing) :
    (hostOnly body x m c).WritesNothing :=
  ⟨h.mem_act⟩

theorem threadIssue_mem {t : ThreadId} {f : Enc} {cycles : Nat} {body : Body} (s : State)
    (h : ∀ x m c, x.f = f → (body x m c).WritesNothing) : (threadIssue t f cycles body s).mem = s.mem :=
  threadRun_mem fun x => by
    dsimp only
    split
    · rfl
    · rw [State.with_mem, (h _ _ _ rfl).answer, ite_self, Mems.apply_nil]

theorem evaluate_mem {p : Plan} (h : p.WritesNothing) (c : Chip) (k : Packet) (op : BitVec 6) (f : Enc) (illegal : Bool) :
    (c.evaluate k op f illegal p).1 = [] := by
  simp only [Chip.evaluate]
  cases illegal with
  | true => rfl
  | false => rw [if_neg Bool.false_ne_true, h.answer, ite_self]

theorem hostIssue_mem {p : Packet} {op : BitVec 6} {f : Enc} {cycles : Nat} {body : Body} (s : State)
    (h : ∀ x m c, x.f = f → (body x m c).WritesNothing) : (hostIssue p op f cycles body s).mem = s.mem := by
  unfold hostIssue
  dsimp only
  split
  · rfl
  · split
    · rfl
    · split
      case h_4 => rw [State.with_mem, evaluate_mem (h _ _ _ rfl), Mems.apply_nil]
      all_goals rfl

/-- An instruction whose plans for its fields write nothing leaves the memories to either issuer. -/
theorem issue_mem {i : Issuer} {op : BitVec 6} {f : Enc} {cycles : Nat} {body : Body} {s : State}
    (h : ∀ x m c, x.f = f → (body x m c).WritesNothing) : (issue i op f cycles body s).mem = s.mem := by
  cases i with
  | thread t => exact threadIssue_mem s h
  | host p => exact hostIssue_mem s h

theorem runLd_mem (i : Issuer) (f : Enc) (s : State) : (runLd i f s).mem = s.mem := by
  cases i with
  | thread t => exact threadLd_mem t f s
  | host p => exact hostIssue_mem s fun _ _ _ _ => Plan.WritesNothing.reads ⟨fun _ => rfl⟩

/-! ### Motion, stops and interlocks -/

section

variable (x : Ctx) (m : Mems) (c : Chip)

theorem onAxis_writesNothing {x : Ctx} {c : Chip} {illegal : Bool} {reserved : BitVec 16} {g : AxisId → Plan} {pre : Checks}
    (h : ∀ a, (g a).WritesNothing) : (onAxis x c illegal reserved g pre).WritesNothing := by
  unfold onAxis
  split
  · exact ⟨fun _ => rfl⟩
  · exact ⟨(h _).mem_act⟩

theorem orFault_writesNothing {c : Chip} {a : AxisId} {x : Ctx} {p : Plan} (h : p.WritesNothing) : (orFault c a x p).WritesNothing := by
  unfold orFault
  split
  · exact ⟨h.mem_act⟩
  · exact h

theorem bodyMove_writesNothing (seam : Bool) : (bodyMove seam x m c).WritesNothing :=
  onAxis_writesNothing fun _ => orFault_writesNothing ⟨fun _ => rfl⟩

theorem bodyStopat_writesNothing : (bodyStopat x m c).WritesNothing :=
  onAxis_writesNothing fun _ => by
    dsimp only
    split
    · exact ⟨fun _ => rfl⟩
    · exact orFault_writesNothing ⟨fun _ => rfl⟩

theorem bodyResume_writesNothing : (bodyResume x m c).WritesNothing :=
  onAxis_writesNothing fun _ => orFault_writesNothing ⟨fun _ => rfl⟩

theorem bodyEngage_writesNothing : (bodyEngage x m c).WritesNothing :=
  onAxis_writesNothing fun _ => by
    dsimp only
    split
    · exact ⟨fun _ => rfl⟩
    · exact Plan.WritesNothing.reads ⟨fun _ => rfl⟩

theorem bodyHome_writesNothing : (bodyHome x m c).WritesNothing :=
  onAxis_writesNothing fun _ => orFault_writesNothing ⟨fun _ => rfl⟩

theorem onCar_writesNothing {x : Ctx} {c : Chip} {right : Nat} {illegal : Bool} {pre : Checks} {g : CarId → Plan}
    (h : ∀ k, (g k).WritesNothing) : (onCar x c right illegal pre g).WritesNothing := by
  unfold onCar
  split
  · exact ⟨fun _ => rfl⟩
  · exact ⟨(h _).mem_act⟩

theorem bodyCall_writesNothing (set : Bool) : (bodyCall set x m c).WritesNothing :=
  onCar_writesNothing fun _ => ⟨fun _ => by
    dsimp only
    split <;> rfl⟩

/-! ### Islands, self-tests and engines -/

theorem islandOnPlan_writesNothing (who : Who) (k : CarId) (checks : Checks) : (islandOnPlan who c k checks).WritesNothing := by
  refine ⟨fun d => ?_⟩
  simp only [islandOnPlan]
  split <;> rfl

theorem islandOffPlan_writesNothing (k : CarId) (checks : Checks) : (islandOffPlan c k checks).WritesNothing := by
  refine ⟨fun d => ?_⟩
  simp only [islandOffPlan]
  split <;> rfl

theorem bodyIsland_writesNothing (on : Bool) : (bodyIsland on x m c).WritesNothing := by
  unfold bodyIsland
  dsimp only
  split
  · exact ⟨fun _ => rfl⟩
  · refine ⟨fun d => ?_⟩
    dsimp only
    split
    · exact (islandOnPlan_writesNothing ..).mem_act d
    · exact (islandOffPlan_writesNothing ..).mem_act d

theorem bodySelftest_writesNothing (code : Byte) : (bodySelftest code x m c).WritesNothing := by
  unfold bodySelftest
  dsimp only
  split <;> exact ⟨fun _ => rfl⟩

theorem bodyCal_writesNothing : (bodyCal x m c).WritesNothing := by
  unfold bodyCal
  dsimp only
  split <;> exact ⟨fun _ => rfl⟩

theorem bodyTrace_writesNothing : (bodyTrace x m c).WritesNothing := by
  unfold bodyTrace
  dsimp only
  split <;> exact ⟨fun _ => rfl⟩

/-! ### Sessions, keys, the table and the seal -/

theorem bodyChal_writesNothing : (bodyChal x m c).WritesNothing := by
  refine ⟨fun d => ?_⟩
  simp only [bodyChal]
  split <;> rfl

theorem sessionOpenPlan_writesNothing : (sessionOpenPlan x m c).WritesNothing := by
  refine ⟨fun d => ?_⟩
  simp only [sessionOpenPlan]
  split <;> rfl

theorem bodySessionOpen_writesNothing : (bodySessionOpen x m c).WritesNothing := by
  refine Plan.WritesNothing.reads ?_
  exact ⟨fun d => (sessionOpenPlan_writesNothing x m c).mem_act d⟩

theorem bodyTblpress_writesNothing : (bodyTblpress x m c).WritesNothing := by
  unfold bodyTblpress
  split
  · exact ⟨fun _ => rfl⟩
  · refine ⟨fun d => ?_⟩
    dsimp only
    split <;> rfl

theorem bodyKeysetPart1_writesNothing : (bodyKeysetPart1 x m c).WritesNothing := by
  refine ⟨fun d => ?_⟩
  simp only [bodyKeysetPart1]
  split <;> rfl

theorem bodyUnstarch_writesNothing : (bodyUnstarch x m c).WritesNothing := by
  unfold bodyUnstarch
  dsimp only
  split <;> exact ⟨fun _ => rfl⟩

/-! ### Program load, DARN and GET -/

theorem bodyPloadSeal_writesNothing : (bodyPloadSeal x m c).WritesNothing := by
  unfold bodyPloadSeal
  dsimp only
  split <;> exact ⟨fun _ => rfl⟩

theorem bodyDarn_writesNothing : (bodyDarn x m c).WritesNothing := Plan.WritesNothing.reads ⟨fun _ => rfl⟩

theorem bodyGet_writesNothing : (bodyGet x m c).WritesNothing := by
  unfold bodyGet
  split <;> exact ⟨fun _ => rfl⟩

end

end Sys2Proof.Machine
end

section
/-! PUTs outside the cam tables, and the commands that leave every byte of the four memories (R147, R164, R179, R213, R337, R349). -/

namespace Sys2Proof.Machine

/-! ### PUT -/

theorem putPlan_writesNothing (checks : Checks) (g : Chip → Chip) : (putPlan checks g).WritesNothing := ⟨fun _ => rfl⟩

theorem putNone_writesNothing : putNone.WritesNothing := ⟨fun _ => rfl⟩

theorem putAdmit_writesNothing (who : Who) (c : Chip) (v : Word) : (putAdmit who c v).WritesNothing := by
  unfold putAdmit
  dsimp only
  split <;> exact ⟨fun _ => rfl⟩

theorem putLnk_writesNothing (c : Chip) (i : Nat) (v : Word) : (putLnk c i v).WritesNothing := by
  unfold putLnk
  dsimp only
  split <;> exact putPlan_writesNothing ..

theorem putSec_writesNothing (who : Who) (c : Chip) (r : RegRef) (v : Word) : (putSec who c r v).WritesNothing := by
  unfold putSec
  dsimp only
  split <;> exact ⟨fun _ => rfl⟩

theorem putThr_writesNothing (c : Chip) (i : Nat) (t : ThreadId) (v : Word) : (putThr c i t v).WritesNothing := by
  unfold putThr
  dsimp only
  split
  case h_4 => split <;> exact putPlan_writesNothing ..
  all_goals exact putPlan_writesNothing ..

theorem putCar_writesNothing (who : Who) (m : Mems) (c : Chip) (i : Nat) (k : CarId) (v : Word) :
    (putCar who m c i k v).WritesNothing := by
  unfold putCar putLandingTable putMode
  dsimp only
  split
  case h_1 => exact ⟨fun _ => rfl⟩
  case h_3 => exact (putPlan_writesNothing ..).reads
  case h_5 => split; exacts [putPlan_writesNothing .., (putPlan_writesNothing ..).reads]
  all_goals exact putPlan_writesNothing ..

theorem putDoor_writesNothing (c : Chip) (i : Nat) (d : DoorId) (v : Word) : (putDoor c i d v).WritesNothing := by
  unfold putDoor putDoorReq putLearn
  dsimp only
  split
  case h_1 | h_18 => split <;> exact putPlan_writesNothing ..
  all_goals exact putPlan_writesNothing ..

theorem putFbk_writesNothing (c : Chip) (i : Nat) (f : FbkId) (v : Word) : (putFbk c i f v).WritesNothing := by
  unfold putFbk
  dsimp only
  split
  case h_7 => split <;> exact putPlan_writesNothing ..
  all_goals exact putPlan_writesNothing ..

theorem putLoop_writesNothing (c : Chip) (i : Nat) (l : LoopId) (v : Word) : (putLoop c i l v).WritesNothing := by
  unfold putLoop
  dsimp only
  split
  case h_12 => split <;> exact putPlan_writesNothing ..
  all_goals exact putPlan_writesNothing ..

/-- Of the profile registers PRF_CAMSEL alone writes a memory (R213). -/
theorem putPrf_writesNothing (who : Who) (m : Mems) (c : Chip) {i : Nat} (a : AxisId) (v : Word) (other : i ≠ 0x0C) :
    (putPrf who m c i a v).WritesNothing := by
  unfold putPrf
  dsimp only
  split
  case h_7 => exact absurd rfl other
  all_goals exact putPlan_writesNothing ..

theorem putFe_writesNothing (who : Who) (m : Mems) (c : Chip) (i : Nat) (y : FeId) (v : Word) : (putFe who m c i y v).WritesNothing := by
  unfold putFe
  extract_lets q held set
  clear_value held
  split
  case h_8 => exact (putPlan_writesNothing ..).reads
  all_goals exact putPlan_writesNothing ..

theorem putIlk_writesNothing (i : Nat) (k : CarId) (v : Word) : (putIlk i k v).WritesNothing := by
  unfold putIlk
  split <;> exact putPlan_writesNothing ..

theorem putCrc_writesNothing (c : Chip) (r : RegRef) (v : Word) : (putCrc c r v).WritesNothing := by
  unfold putCrc
  dsimp only
  split
  · split <;> exact putPlan_writesNothing ..
  · split
    · exact putNone_writesNothing
    · split <;> exact putPlan_writesNothing ..

theorem putJnl_writesNothing (who : Who) (r : RegRef) (v : Word) : (putJnl who r v).WritesNothing := by
  unfold putJnl
  dsimp only
  split <;> exact putPlan_writesNothing ..

theorem putPwr_writesNothing (who : Who) (c : Chip) (r : RegRef) (v : Word) : (putPwr who c r v).WritesNothing := by
  unfold putPwr
  dsimp only
  split
  case h_1 =>
    split
    · exact putNone_writesNothing
    · split
      · exact islandOnPlan_writesNothing ..
      · exact islandOffPlan_writesNothing ..
  all_goals exact putPlan_writesNothing ..

/-- A PUT to any register but PRF_CAMSEL writes no memory. -/
theorem putAt_writesNothing (who : Who) (m : Mems) (c : Chip) {r : RegRef} (v : Word) (other : ¬(r.b = 8 ∧ r.i = 0x0C)) :
    (putAt who m c r v).WritesNothing := by
  unfold putAt
  split
  · exact ⟨fun _ => rfl⟩
  · split
    case h_1 => split; exacts [putAdmit_writesNothing .., putNone_writesNothing]
    case h_2 => exact putLnk_writesNothing ..
    case h_3 => exact putSec_writesNothing ..
    case h_4 => exact putThr_writesNothing ..
    case h_5 => split; exacts [putNone_writesNothing, putCar_writesNothing ..]
    case h_6 => exact putDoor_writesNothing ..
    case h_7 => exact putFbk_writesNothing ..
    case h_8 => exact putLoop_writesNothing ..
    case h_9 block => exact putPrf_writesNothing _ _ _ _ _ fun index => other ⟨block, index⟩
    case h_10 => exact putFe_writesNothing ..
    case h_11 => split; exacts [putNone_writesNothing, putIlk_writesNothing ..]
    case h_12 => exact putCrc_writesNothing ..
    case h_13 => exact putJnl_writesNothing ..
    case h_14 => exact putPwr_writesNothing ..

/-! ### The register that a row names -/

/-- The immediate names the block and index of a register, whatever names its channel (R181). -/
theorem regRef_named {who : Who} {w : Vector Word 16} {f : Enc} {r : RegRef} (h : regRef who w f = some r) :
    r.b = (immBits f.imm 12 4).toNat ∧ r.i = (immBits f.imm 6 6).toNat := by
  simp only [regRef] at h
  split at h
  · cases h
  · split at h
    · cases h
    · split at h
      · cases h
        exact ⟨rfl, rfl⟩
      · cases h

theorem regImm_block (f : Enc) (b : BitVec 4) (i : BitVec 6) : immBits (regImm f b i).imm 12 4 = b :=
  (BitVec.extractLsb'_append_eq_of_le (xhi := b ++ i) (start := 12) (by decide)).trans BitVec.extractLsb'_append_eq_left

theorem regImm_index (f : Enc) (b : BitVec 4) (i : BitVec 6) : immBits (regImm f b i).imm 6 6 = i :=
  calc
    immBits (regImm f b i).imm 6 6 = (b ++ i).extractLsb' 0 6 := BitVec.extractLsb'_append_eq_of_le (xhi := b ++ i) (start := 6) (by decide)
    _ = i.extractLsb' 0 6 := BitVec.extractLsb'_append_eq_of_add_le (by decide)
    _ = i := BitVec.extractLsb'_eq_self

/-- A row that is a PUT to another register than PRF_CAMSEL leaves the memories. -/
theorem putRow_mem (u : Issuer) (f : Enc) (s : State) {b : BitVec 4} {i : BitVec 6} (other : ¬(b = 8 ∧ i = 0x0C)) :
    (issue u 0x1D (regImm f b i) 4 bodyPut s).mem = s.mem := by
  refine issue_mem fun x m c fields => ?_
  unfold bodyPut
  split
  · exact ⟨fun _ => rfl⟩
  · next r named =>
    obtain ⟨block, index⟩ := regRef_named named
    rw [fields, regImm_block] at block
    rw [fields, regImm_index] at index
    have plain := putAt_writesNothing x.who m c (r := r) (regOf x.w x.f.d) fun ⟨hb, hi⟩ =>
      other ⟨BitVec.eq_of_toNat_eq (block.symm.trans hb), BitVec.eq_of_toNat_eq (index.symm.trans hi)⟩
    exact ⟨plain.mem_act⟩

/-! ### Every command that stores nothing -/

/-- A command outside the list of storers leaves the memories. -/
theorem exec_mem (i : Instr) (s : State) (h : stores i = false) : ∃ t, exec i s = .next t ∧ t.mem = s.mem := by
  cases i with
  | st | put | camselHalf0 | camselHalf1 | spsPut | keeperSecWrite | registerWrite | ploadData | illegalPacket | threadSlot | scanJobDone
  | auditedChangeEffect | admissionStep | journalRecordStart | journalCommit | rstNAssert | supplyPorLoss => cases h
  | add | sub | and | or | xor | shl | shr | sar | mul | mac | sat | cmp | ldi | ldih | br | call | ret | yield | wait | assert =>
    exact ⟨_, rfl, threadPlain_mem ..⟩
  | ld => exact ⟨_, rfl, runLd_mem ..⟩
  | get => exact ⟨_, rfl, issue_mem fun x m c _ => bodyGet_writesNothing x m c⟩
  | move | moveq => exact ⟨_, rfl, issue_mem fun x m c _ => bodyMove_writesNothing x m c _⟩
  | stopat => exact ⟨_, rfl, issue_mem fun x m c _ => bodyStopat_writesNothing x m c⟩
  | resume => exact ⟨_, rfl, issue_mem fun x m c _ => bodyResume_writesNothing x m c⟩
  | camsetEngage => exact ⟨_, rfl, issue_mem fun x m c _ => bodyEngage_writesNothing x m c⟩
  | home => exact ⟨_, rfl, issue_mem fun x m c _ => bodyHome_writesNothing x m c⟩
  | stop | flush | limit | camsetRelease => exact ⟨_, rfl, issue_mem fun _ _ _ _ => onAxis_writesNothing fun _ => ⟨fun _ => rfl⟩⟩
  | callset | callclr => exact ⟨_, rfl, issue_mem fun x m c _ => bodyCall_writesNothing x m c _⟩
  | nextstop | reach | deoreq => exact ⟨_, rfl, issue_mem fun _ _ _ _ => onCar_writesNothing fun _ => ⟨fun _ => rfl⟩⟩
  | islandOn | islandOff => exact ⟨_, rfl, issue_mem fun x m c _ => hostOnly_writesNothing (bodyIsland_writesNothing x m c _)⟩
  | selftestRamScrub | selftestProgScrub | selftestReference | selftestEntropy | selftestEnablePulse | selftestGateDriver
  | selftestBridgeExcitation => exact ⟨_, rfl, issue_mem fun x m c _ => bodySelftest_writesNothing x m c _⟩
  | calZero | calSpan => exact ⟨_, rfl, issue_mem fun x m c _ => bodyCal_writesNothing x m c⟩
  | trace => exact ⟨_, rfl, issue_mem fun x m c _ => bodyTrace_writesNothing x m c⟩
  | crcjob | log | streamNone | streamReplay | streamTrace | streamJournal | sessionClose | tbledit | keysetPart0 | starch | ploadBegin =>
    exact ⟨_, rfl, issue_mem fun _ _ _ _ => ⟨fun _ => rfl⟩⟩
  | chal => exact ⟨_, rfl, issue_mem fun x m c _ => hostOnly_writesNothing (bodyChal_writesNothing x m c)⟩
  | sessionOpen => exact ⟨_, rfl, issue_mem fun x m c _ => hostOnly_writesNothing (bodySessionOpen_writesNothing x m c)⟩
  | tblpress => exact ⟨_, rfl, issue_mem fun x m c _ => hostOnly_writesNothing (bodyTblpress_writesNothing x m c)⟩
  | keysetPart1 => exact ⟨_, rfl, issue_mem fun x m c _ => hostOnly_writesNothing (bodyKeysetPart1_writesNothing x m c)⟩
  | unstarch => exact ⟨_, rfl, issue_mem fun x m c _ => hostOnly_writesNothing (bodyUnstarch_writesNothing x m c)⟩
  | ploadSeal => exact ⟨_, rfl, issue_mem fun x m c _ => hostOnly_writesNothing (bodyPloadSeal_writesNothing x m c)⟩
  | darn => exact ⟨_, rfl, issue_mem fun x m c _ => hostOnly_writesNothing (bodyDarn_writesNothing x m c)⟩
  | devAdmitGo | keeperReadmit | pwrIslandreqWrite | secZeroize | seatUnlock | securemaskWrite | tapctlWrite | threadRestartCmd
  | threadHaltCmd | carReqOut | carReqIn | carReqInspect | carReqClear | landingTableLoad | scheduleLoad | doorReqReopen | doorReqNudge
  | doorReqClear | sintabWrite | learnGo | loopIreset | loopFaultClear | cmpbaseArm | polybaseLoad | crcValWrite | stickyClear =>
    exact ⟨_, rfl, putRow_mem _ _ _ (by decide)⟩
  | tickStart | downFrame | huntSyncLock | upSlot | linkDarkTrip | slotDeferTrip | eqTrial | sckGapTrip | sckResume | enableDecay
  | leaveDark | scrubVisit | journalScrub | traceCaptureStart | traceSample | tapTck =>
    exact ⟨_, rfl, State.act_mem ..⟩
  | supplyWarning | supplyWarningClear | brownoutTrip | overtempTrip | avsDecision | lockstepTrip | entropyInterval | enterRun
  | islandPowerupStart | islandPowerupDone | sessionIdleTimeout | sessionMaclimit | seatLockout | challengeExpiry | witnessExpiry
  | profileAdvance | moveTake | homeReference | quadEdge | zIndex | ssiReadStart | ssiReadDone | feedbackFault | loopRun
  | loopModelFault | loopSatFault | driveCommand | driveReply | driveReplyMissing | driveportFault | drivespeedFault | carArrival
  | runlimExpiry | hallEdge | commutationFault | doorKeFault | opentExpiry | closetExpiry | doorStall | matrixEval | readbackFault
  | safePulseReadbackFault | chopSample | offsetTrim | feResult | referenceTrip | calStart | calDecide | calTimeout | scanJobStart
  | scanJobTimeout | scrubPassEnd | selftestComplete | traceComplete | traceTimeout | ploadSealDone =>
    exact ⟨_, rfl, State.clock_mem ..⟩
  | threadWake | threadStall | threadRestart | threadHaltLimit => exact ⟨_, rfl, atSlotStart_mem ..⟩

/-- Settles O6: a command that stores nothing answers with the memories that it found. -/
theorem memoryChangesByStorersAlone : Obligations.MemoryChangesByStorersAlone := by
  intro i s t next h a
  obtain ⟨u, answer, same⟩ := exec_mem i s h
  obtain rfl : u = t := Host.Outcome.next.inj (answer.symm.trans next)
  rw [same]
  exact ⟨rfl, rfl, rfl, rfl⟩

end Sys2Proof.Machine
end

section
/-! The ALU, compare, multiply and load-immediate instructions of a thread (R174, R176 to R178, Table 8-3). -/

namespace Sys2Proof.Machine

/-! ### Flags and shift counts -/

/-- The unsigned value of the lowest bits of a word. -/
theorem slice_low_toNat (x : Word) (w : Nat) : (slice x 0 w).toNat = x.toNat % 2 ^ w := by
  rw [slice, BitVec.extractLsb'_toNat, Nat.shiftRight_zero]

theorem shiftCount_eq (b : Word) : shiftCount b = b.toNat % 32 := slice_low_toNat b 5

/-- An integer wraps in 32 bits exactly outside the signed range. -/
theorem bmod_ne_iff {n : Int} : n.bmod (2 ^ 32) ≠ n ↔ n ≥ 2 ^ 31 ∨ n < -2 ^ 31 := by
  rw [Ne, Int.bmod_eq_iff (by decide)]
  omega

/-- An addition overflows where the sum of the signed values is no signed word (R174). -/
theorem addOverflow_eq (a b : Word) : addOverflow a b = decide ((a + b).toInt ≠ a.toInt + b.toInt) :=
  calc
    addOverflow a b = a.saddOverflow b := (BitVec.saddOverflow_eq a b).symm
    _ = decide ((a + b).toInt ≠ a.toInt + b.toInt) := by simp only [BitVec.toInt_add, bmod_ne_iff, Bool.decide_or]; rfl

/-- A subtraction overflows where the difference of the signed values is no signed word (R174). -/
theorem subOverflow_eq (a b : Word) : subOverflow a b = decide ((a - b).toInt ≠ a.toInt - b.toInt) :=
  calc
    subOverflow a b = a.ssubOverflow b := by
      rw [BitVec.ssubOverflow_eq, subOverflow]
      cases a.msb <;> cases b.msb <;> cases (a - b).msb <;> rfl
    _ = decide ((a - b).toInt ≠ a.toInt - b.toInt) := by simp only [BitVec.toInt_sub, bmod_ne_iff, Bool.decide_or]; rfl

/-! ### ADD to SAR -/

section

variable {t : ThreadId} {f : Enc} {s : State} (fits : SlotFits t 1 s) (legal : operandBIllegal f = false)
include fits legal

/-- An ALU instruction writes the result and the flags of its operands, keeps LIM, and goes on to the next word (R174, R176). -/
theorem alu_result {op : Flags → Word → Word → Word × Flags} {r : Word → Word → Word} {c v : Word → Word → Bool}
    (result : ∀ fl a b, op fl a b = (r a b, aluFlags fl (r a b) (c a b) (v a b))) :
    alu t f op s = ranThread t 1 (fun x =>
      let a := regOf x.w f.a
      let b := operandB x.w f
      { x with
        w := setReg x.w f.d (r a b), pc := x.pc + 1,
        flags := { z := decide (r a b = 0), n := (r a b).msb, c := c a b, v := v a b, lim := x.flags.lim } }) s :=
  threadPlain_legal fits legal (by rw [result]; rfl)

/-- A shift is by B[4:0] and clears V (Table 8-3). -/
theorem alu_shift {op : Flags → Word → Word → Word × Flags} {r : Word → Nat → Word} {c : Word → Nat → Bool}
    (result : ∀ fl a b, op fl a b =
      (r a (shiftCount b), aluFlags fl (r a (shiftCount b)) (decide (shiftCount b ≠ 0) && c a (shiftCount b)) false)) :
    alu t f op s = ranThread t 1 (fun x =>
      let a := regOf x.w f.a
      let n := (operandB x.w f).toNat % 32
      { x with
        w := setReg x.w f.d (r a n), pc := x.pc + 1,
        flags := { z := decide (r a n = 0), n := (r a n).msb, c := decide (n ≠ 0) && c a n, v := false, lim := x.flags.lim } }) s :=
  alu_result fits legal (r := fun a b => r a (b.toNat % 32)) (c := fun a b => decide (b.toNat % 32 ≠ 0) && c a (b.toNat % 32))
    (v := fun _ _ => false) fun fl a b => by rw [result, shiftCount_eq]

end

/-- Settles O8: each of them is an ALU instruction, whose result and flags follow from its operands. -/
theorem aluResultsAndFlags : Obligations.AluResultsAndFlags := by
  refine ⟨fun t f s fits legal => ?_, fun t f s fits legal => ?_⟩
  · have plain (r : Word → Word → Word) :=
      alu_result fits legal (r := r) (c := fun _ _ => false) (v := fun _ _ => false) fun _ _ _ => rfl
    refine ⟨congrArg Host.Outcome.next ?_, congrArg Host.Outcome.next ?_, congrArg _ (plain (· &&& ·)), congrArg _ (plain (· ||| ·)),
      congrArg _ (plain (· ^^^ ·))⟩
    · exact alu_result fits legal (r := (· + ·)) (c := addCarry) (v := fun a b => decide ((a + b).toInt ≠ a.toInt + b.toInt))
        fun _ a b => by rw [addOverflow_eq]
    · exact alu_result fits legal (r := (· - ·)) (c := subBorrow) (v := fun a b => decide ((a - b).toInt ≠ a.toInt - b.toInt))
        fun _ a b => by rw [subOverflow_eq]
  · refine ⟨congrArg Host.Outcome.next ?_, congrArg Host.Outcome.next ?_, congrArg Host.Outcome.next ?_⟩
    · exact alu_shift fits legal (r := fun a n => a <<< n) (c := fun a n => a.getLsbD (32 - n)) fun _ _ _ => rfl
    · exact alu_shift fits legal (r := fun a n => a >>> n) (c := fun a n => a.getLsbD (n - 1)) fun _ _ _ => rfl
    · exact alu_shift fits legal (r := fun a n => a.sshiftRight n) (c := fun a n => a.getLsbD (n - 1)) fun _ _ _ => rfl

/-! ### MUL, MAC and SAT -/

/-- A value is kept by its clamp exactly inside the signed range of the width (R177). -/
theorem satTo_ne_iff {w : Nat} {x : Int} : satTo w x ≠ x ↔ x < -2 ^ (w - 1) ∨ 2 ^ (w - 1) - 1 < x := by
  have wide : (0 : Int) < 2 ^ (w - 1) := by positivity
  unfold satTo
  omega

/-- Settles O9: each of them changes its thread alone, and LIM is set exactly where a clamp changes its value. -/
theorem multiplyResults : Obligations.MultiplyResults := by
  intro t f s legal done
  have encoded {fields : Bool} (clear : fields = false) : (operandBIllegal f || fields) = false := by rw [legal, clear]; rfl
  refine ⟨fun fits => congrArg Host.Outcome.next (threadPlain_legal fits (encoded rfl) ?_),
    fun fits => congrArg Host.Outcome.next (threadPlain_legal fits (encoded rfl) ?_),
    fun fits a0 => congrArg Host.Outcome.next (threadPlain_legal fits (encoded (decide_eq_false (not_not_intro a0))) ?_)⟩
  · simp only [satTo_ne_iff]
    rfl
  · simp only [satTo_ne_iff (w := 32), ← Bool.decide_or, or_assoc]
    rfl
  · simp only [satTo_ne_iff, slice_low_toNat]
    rfl

/-! ### CMP, LDI and LDIH -/

/-- LDI loads by M: signed, unsigned, or the upper half over D[15:0] (R178). -/
theorem ldiValue_eq {f : Enc} (m : f.m ≠ 0) (old : Word) :
    ldiValue old f = if f.m = 1 then f.imm.signExtend 32 else if f.m = 2 then f.imm.setWidth 32 else f.imm ++ old.extractLsb' 0 16 := by
  have low : old.setWidth 16 = old.extractLsb' 0 16 := BitVec.setWidth_eq_extractLsb' (by decide)
  unfold ldiValue
  obtain m1 | m2 | m3 : f.m = 1 ∨ f.m = 2 ∨ f.m = 3 := by revert m; generalize f.m = k; revert k; decide
  · rw [m1]; rfl
  · rw [m2]; rfl
  · rw [m3, low]; rfl

/-- Settles O10: a difference is 0 exactly where its operands are equal, and an LDI of M = 00b or with an A field is illegal. -/
theorem compareAndLoadImmediate : Obligations.CompareAndLoadImmediate := by
  intro t f s fits
  refine ⟨fun legal d => congrArg _ (threadPlain_legal fits ?_ ?_), fun bad => congrArg _ (threadPlain_illegal _ fits ?_),
    fun m a => congrArg _ (threadPlain_legal fits ?_ ?_), rfl⟩
  · rw [legal, decide_eq_false (not_not_intro d)]
    rfl
  · simp only [aluFlags, subOverflow_eq, sub_eq_zero]
    rfl
  · rwa [Bool.or_eq_true, decide_eq_true_eq, decide_eq_true_eq]
  · rw [decide_eq_false m, decide_eq_false (not_not_intro a)]
    rfl
  · rw [ldiValue_eq m]

end Sys2Proof.Machine
end

section
/-! BR, CALL, RET and ASSERT of a thread (R175, R180, Table 8-4). -/

namespace Sys2Proof.Machine

/-- A branch with a condition of Table 8-2 and its target in the immediate, or in a register with IMM 0, is legal (R172, R175). -/
theorem branch_legal {f : Enc} (d : f.d ≠ 15) (target : f.m = 0 ∨ (f.m = 1 ∧ f.imm = 0)) : branchIllegal f = false := by
  rw [branchIllegal, decide_eq_false d]
  rcases target with m | ⟨m, imm⟩
  · rw [m]; rfl
  · rw [m, imm]; rfl

theorem branchTarget_eq (w : Vector Word 16) (f : Enc) :
    branchTarget w f = if f.m = 0 then f.imm else (regOf w f.a).extractLsb' 0 16 := by
  rw [branchTarget, BitVec.setWidth_eq_extractLsb' (by decide)]

section

variable {t : ThreadId} {f : Enc} {s : State} (fits : SlotFits t 2 s) (legal : branchIllegal f = false)
include fits legal

theorem runBr_legal : runBr t f s = ranThread t 2 (fun x =>
    { x with pc := if condHolds x.flags f.d then branchTarget x.w f else x.pc + 1 }) s :=
  threadPlain_legal fits legal rfl

/-- With room for a return address a taken CALL pushes the next word (R180). -/
theorem runCall_room (room : (s.chip.threads[t.val]).stack.length < 8) : runCall t f s = ranThread t 2 (fun x =>
    if condHolds x.flags f.d then { x with pc := branchTarget x.w f, stack := (x.pc + 1) :: x.stack }
    else { x with pc := x.pc + 1 }) s := by
  refine threadPlain_legal fits legal ?_
  have short : ¬ 8 ≤ ((s.chip.threads[t.val]).charge 2).stack.length := Nat.not_le.2 room
  cases condHolds ((s.chip.threads[t.val]).charge 2).flags f.d with
  | false => rfl
  | true => exact if_neg short

/-- With 8 return addresses a taken CALL faults with STACK (R180). -/
theorem runCall_full (taken : condHolds (s.chip.threads[t.val]).flags f.d = true) (full : 8 ≤ (s.chip.threads[t.val]).stack.length) :
    runCall t f s = ranThread t 2 (fun x => x.fault 3) s := by
  refine threadPlain_legal fits legal ?_
  have taken : condHolds ((s.chip.threads[t.val]).charge 2).flags f.d = true := taken
  have full : 8 ≤ ((s.chip.threads[t.val]).charge 2).stack.length := full
  simp only [taken, if_pos full, Bool.not_true, Bool.false_eq_true, if_false]

end

/-- RET goes to the return address on top of the stack (R180). -/
theorem runRet_pops {t : ThreadId} {s : State} {p : BitVec 16} {rest : List (BitVec 16)} (fits : SlotFits t 2 s)
    (top : (s.chip.threads[t.val]).stack = p :: rest) :
    runRet t ⟨0, 0, 0, 0⟩ s = ranThread t 2 (fun x => { x with pc := p, stack := rest }) s := by
  refine threadPlain_legal fits rfl ?_
  have top : ((s.chip.threads[t.val]).charge 2).stack = p :: rest := top
  simp only [top]

/-- RET without a return address faults with STACK (R180). -/
theorem runRet_empty {t : ThreadId} {s : State} (fits : SlotFits t 2 s) (empty : (s.chip.threads[t.val]).stack = []) :
    runRet t ⟨0, 0, 0, 0⟩ s = ranThread t 2 (fun x => x.fault 3) s := by
  refine threadPlain_legal fits rfl ?_
  have empty : ((s.chip.threads[t.val]).charge 2).stack = [] := empty
  simp only [empty]

theorem assert_legal {f : Enc} (d : f.d ≠ 15) (a : f.a = 0) (m : f.m = 0) (imm : f.imm = 0) :
    (decide (f.d = 15) || decide (f.a ≠ 0) || decide (f.m ≠ 0) || decide (f.imm ≠ 0)) = false := by
  rw [decide_eq_false d, a, m, imm]
  rfl

/-- Settles O13: the condition and the depth of the call stack decide each of them. -/
theorem branchesCallsAndAsserts : Obligations.BranchesCallsAndAsserts := by
  refine ⟨fun t f s fits => ⟨fun d form => ⟨congrArg Host.Outcome.next ?_, fun room => congrArg Host.Outcome.next ?_⟩, ?_⟩,
    fun t f s => ⟨fun fits d form taken full => congrArg Host.Outcome.next ?_, ?_,
      fun fits d a m imm => ⟨fun fails => congrArg Host.Outcome.next ?_, fun holds => congrArg Host.Outcome.next ?_⟩⟩⟩
  · simpa only [branchTarget_eq] using runBr_legal fits (branch_legal d form)
  · simpa only [branchTarget_eq] using runCall_room fits (branch_legal d form) room
  · rintro p rest rfl top
    exact congrArg _ (runRet_pops fits top)
  · exact runCall_full fits (branch_legal d form) taken full
  · rintro fits rfl empty
    exact congrArg Host.Outcome.next (runRet_empty fits empty)
  · exact threadPlain_legal fits (assert_legal d a m imm) (if_neg (ne_true_of_eq_false fails))
  · exact threadPlain_legal fits (assert_legal d a m imm) (if_pos holds)

end Sys2Proof.Machine
end

section
/-! GET and PUT of a register that the immediate names: what GET answers, and the settings that a PUT stores (R181 to R183, R386). -/

namespace Sys2Proof.Machine

/-! ### GET -/

/-- Settles O16: a GET of a register that its issuer may read meets no refusal. -/
theorem getReadsRegister : Obligations.GetReadsRegister := by
  intro i f s r ready names c who denied unveiled lit
  obtain ⟨named, legal, stray⟩ := names
  have named : regRef (ctxOf i f s).who (ctxOf i f s).w (ctxOf i f s).f = some r := named
  refine congrArg Host.Outcome.next (issue_plan ready rfl ?_ ?_ ?_ rfl) <;> simp only [bodyGet, named]
  · exact legal
  · exact clear_cons.2 ⟨denied, clear_cons.2 ⟨unveiled, clear_pair.2 ⟨stray, lit⟩⟩⟩
  · rfl

/-! ### PUT -/

/-- An accepted PUT, under either of its rows, has the effect of its register's plan (R183, R386). -/
theorem put_answered {i : Issuer} {f : Enc} {s : State} {r : RegRef} {checks : Checks} {g : Chip → Chip} (ready : Ready i 0x1D f 4 s)
    (may : MayPut i f r s) (plan : putAt (whoOf i s) s.mem (found i 4 s) r (putValue i f s) = putPlan checks g) (clear : Clear checks) :
    exec (.put i f) s = .next (answered i (reply .done (g (begun i 4 s))) s) ∧
      exec (.registerWrite i f) s = .next (answered i (reply .done (g (begun i 4 s))) s) := by
  obtain ⟨⟨named, legal, stray⟩, denied, lit⟩ := may
  have named : regRef (ctxOf i f s).who (ctxOf i f s).w (ctxOf i f s).f = some r := named
  have plan : putAt (ctxOf i f s).who s.mem (found i 4 s) r (regOf (ctxOf i f s).w (ctxOf i f s).f.d) = putPlan checks g := plan
  have issued : issue i 0x1D f 4 bodyPut s = answered i (reply .done (g (begun i 4 s))) s := by
    refine issue_plan ready rfl ?_ ?_ ?_ rfl <;> simp only [bodyPut, named, plan]
    · exact legal
    · exact clear_cons.2 ⟨denied, clear_cons.2 ⟨stray, clear_cons.2 ⟨lit, clear⟩⟩⟩
    · rfl
  exact ⟨congrArg _ issued, congrArg _ issued⟩

/-- A channel is the one of its number. -/
theorem fin?_getD {n : Nat} [NeZero n] (i : Fin n) : (fin? n i.val).getD 0 = i := by rw [fin?_eq rfl, Option.getD_some]

theorem clear_nil : Clear [] := List.forall_mem_nil _

theorem outside_eq_false {lo hi x : Nat} (low : lo ≤ x) (high : x ≤ hi) : outside lo hi x = false :=
  Bool.or_eq_false_iff.2 ⟨decide_eq_false (not_lt.2 low), decide_eq_false (not_lt.2 high)⟩

/-- A field in its range answers no RANGE. -/
theorem slice_outside {v : Word} {w lo hi : Nat} (low : lo ≤ v.toNat % 2 ^ w) (high : v.toNat % 2 ^ w ≤ hi) :
    outside lo hi (slice v 0 w).toNat = false := by
  rw [slice_low_toNat]
  exact outside_eq_false low high

/-- A car in OUT takes its settings. -/
theorem notOut_eq_false {c : Chip} {k : CarId} (out : (c.cars[k.val]).service = .out) :
    decide ((c.cars[k.val]).service ≠ .out) = false := decide_eq_false (not_not_intro out)

/-- CRC_INIT stores its value for the channel that it names (R336). -/
theorem putCrc_init (c : Chip) (k : CkId) (v : Word) :
    putCrc c ⟨0xB, 0x01, k.val⟩ v = putPlan [] fun c => c.modCk k fun x => { x with cfg := { x.cfg with init := v } } := by
  simp only [putCrc, fin?_eq (i := k) rfl]
  rfl

/-- Settles O37: each of these PUTs is the plan that stores its field, and nothing refuses it. -/
theorem twelveSettingsAreStored : Obligations.TwelveSettingsAreStored := by
  intro i f s r ready may c b v both
  refine ⟨fun block index low high => ?_, ?_, ?_, ?_, ?_, ?_, ?_, ?_, ?_, ?_, ?_, ?_⟩
  · obtain ⟨_, _, ch⟩ := r
    obtain rfl : _ = 1 := block
    obtain rfl : _ = 5 := index
    exact put_answered ready may rfl (clear_cons.2 ⟨slice_outside low high, clear_nil⟩)
  · rintro t rfl low high
    exact put_answered ready may (congrArg (putThr c 0x06 · v) (fin?_getD t)) (clear_cons.2 ⟨slice_outside low high, clear_nil⟩)
  · rintro k rfl out low high
    exact put_answered ready may (congrArg (putCar (whoOf i s) s.mem c 0x06 · v) (fin?_getD k))
      (clear_cons.2 ⟨notOut_eq_false out, clear_cons.2 ⟨slice_outside low high, clear_nil⟩⟩)
  · rintro d rfl out
    exact put_answered ready may (congrArg (putDoor c 0x0D · v) (fin?_getD d)) (clear_cons.2 ⟨notOut_eq_false out, clear_nil⟩)
  · rintro n rfl out
    exact put_answered ready may (congrArg (putFbk c 0x11 · v) (fin?_getD n)) (clear_cons.2 ⟨notOut_eq_false out, clear_nil⟩)
  · rintro l rfl gain
    exact put_answered ready may (congrArg (putLoop c 0x02 · v) (fin?_getD l)) (clear_cons.2 ⟨gain, clear_nil⟩)
  · rintro a rfl small
    have inside : decide (1000000 < (slice v 0 20).toNat) = false := by
      rw [slice_low_toNat]
      exact decide_eq_false (not_lt.2 small)
    exact put_answered ready may (congrArg (putPrf (whoOf i s) s.mem c 0x0B · v) (fin?_getD a)) (clear_cons.2 ⟨inside, clear_nil⟩)
  · rintro y rfl out idle
    exact put_answered ready may (congrArg (putFe (whoOf i s) s.mem c 0x0C · v) (fin?_getD y))
      (clear_pair.2 ⟨notOut_eq_false out, idle⟩)
  · rintro k rfl
    exact put_answered ready may (putCrc_init c k v) clear_nil
  · rintro rfl
    have own : decide ((whoOf i s).sid.toNat ≠ (whoOf i s).sid.toNat) = false := decide_eq_false (not_not_intro rfl)
    have session : (BitVec.ofNat 4 (whoOf i s).sid.toNat).toFin = (whoOf i s).sid.toFin := by rw [BitVec.ofNat_toNat, BitVec.setWidth_eq]
    simpa only [session] using put_answered ready may rfl (clear_cons.2 ⟨own, clear_nil⟩)
  · rintro rfl
    exact put_answered ready may rfl clear_nil
  · rintro rfl
    exact put_answered ready may rfl clear_nil

end Sys2Proof.Machine
end

section
/-! STOP, STOPAT, RESUME, FLUSH, LIMIT and CAMSET on a named axis (R185, R203, R206 to R209, R214, R258). -/

namespace Sys2Proof.Machine

/-! ### What their encodings and operands name -/

theorem noOperandA_eq {f : Enc} (a : f.a = 0) (m : f.m = 0) : (decide (f.a ≠ 0) || decide (f.m ≠ 0)) = false := by
  rw [a, m]
  rfl

theorem fix12_imm (f : Enc) (b : Bool) : (fix12 f b).imm = (f.imm &&& 0xEFFF) ||| (if b then 0x1000 else 0) := rfl

/-- The cam table of a CAMSET stands below the bit that its row fixes (R214). -/
theorem fix12_table (f : Enc) (b : Bool) : immBits (fix12 f b).imm 8 4 = immBits f.imm 8 4 := by
  have kept : immBits 0xEFFF 8 4 = BitVec.allOnes 4 := by decide
  have clear : immBits (if b then 0x1000 else 0) 8 4 = 0 := by cases b <;> decide
  rw [fix12_imm, immBits, BitVec.extractLsb'_or, BitVec.extractLsb'_and]
  change (immBits f.imm 8 4 &&& immBits 0xEFFF 8 4) ||| immBits (if b then 0x1000 else 0) 8 4 = _
  rw [kept, clear, BitVec.and_allOnes]
  exact BitVec.or_zero

/-- A word that is the number of an axis names it as the master of a CAMSET (R214). -/
theorem masterWord_eq (a : AxisId) :
    (if slice (BitVec.ofNat 32 a.val) 6 26 = 0 then fin? 36 (slice (BitVec.ofNat 32 a.val) 0 6).toNat else none) = some a := by
  revert a
  decide

theorem doorOfAxis_doorAxis (d : DoorId) : doorOfAxis (doorAxis d) = some d := by
  have door : 12 ≤ (doorAxis d).val := Nat.le_add_right ..
  rw [doorOfAxis, dif_pos door]
  exact congrArg some (Fin.ext (Nat.add_sub_cancel_left ..))

theorem doorAxis_ne {d e : DoorId} (apart : d ≠ e) : doorAxis d ≠ doorAxis e := fun same =>
  apart (Fin.ext (Nat.add_left_cancel (Fin.val_eq_of_eq same)))

/-- A car in IN serves the axis commands (Table 12-4). -/
theorem serviceIn_in {c : Chip} {a : AxisId} (service : (c.cars[(carOfAxis a).val]).service = .in_) : c.serviceIn a [.in_] = true := by
  rw [Chip.serviceIn, service]
  exact Bool.or_true _

/-- A landing is denied to no issuer that sees it as it is (R187). -/
theorem landing_seen {named secured sees : Bool} (seen : secured = true → sees = true) : (named && secured && !sees) = false := by
  rw [Bool.and_assoc, Bool.and_eq_false_iff, Bool.and_eq_false_imp]
  exact .inr fun secured => congrArg Bool.not (seen secured)

/-! ### A plan that reads a memory -/

/-- Reads that meet no uncorrectable word add their checks, and note what SECDED corrects (R25, R149). -/
theorem Plan.reads_good {p : Plan} {c : Chip} {who : Who} {cycles : Nat} {m : Fin 6} {words : Nat → Bool} {content : Checks}
    (good : c.badWord m words = none) :
    p.reads c who cycles m words content = { p with checks := p.checks ++ content, act := fun c => p.act (c.noteReads m words) } := by
  rw [Plan.reads, good]

/-- Issuing an instruction makes no word uncorrectable. -/
theorem found_badWord (i : Issuer) (cycles : Nat) (s : State) (m : Fin 6) (words : Nat → Bool) :
    (found i cycles s).badWord m words = s.chip.badWord m words := by
  cases i <;> rfl

/-! ### An instruction on a named axis -/

section

variable {i : Issuer} {op : BitVec 6} {f : Enc} {cycles : Nat} {reserved : BitVec 16} {a : AxisId} {s : State}
  (acts : ActsOnAxis i f cycles reserved a s)
include acts

/-- As `issue_onAxis`, behind refusals that need no axis (R11, R184). -/
theorem issue_onAxis_behind {body : Body} {illegal : Bool} {g : AxisId → Plan} {pre : Checks} {r : Reply} (ready : Ready i op f cycles s)
    (plan : body (ctxOf i f s) s.mem (found i cycles s) = onAxis (ctxOf i f s) (found i cycles s) illegal reserved g pre)
    (legal : illegal = false) (first : Clear pre) (clear : Clear (g a).checks) (effect : (g a).act (begun i cycles s) = r)
    (ok : r.status.ok = true) : issue i op f cycles body s = answered i r s := by
  obtain ⟨named, fields, -⟩ := id acts
  refine issue_plan ready (plan.trans (onAxis_named named)) legal ((clear_append _ _).2 ⟨first, ?_⟩) effect ok
  exact clear_cons.2 ⟨decide_eq_false (not_not_intro fields), (clear_append _ _).2 ⟨axisChecks_clear acts, clear⟩⟩

end

section

variable {i : Issuer} {f : Enc} {a : AxisId} {s : State}

/-- An accepted STOPAT sends its landing to the axis (R207, R209, R258). -/
theorem issue_stopat_sent {l : Landing} (ready : Ready i 0x23 f 8 s) (acts : ActsOnAxis i f 8 0xFF80 a s) (a0 : f.a = 0) (m : f.m = 0)
    (car : a.val < 12) (landing : ((found i 8 s).cars[(carOfAxis a).val]).landing? (regOf (operandsOf i s) f.d).toNat = some l)
    (sound : (found i 8 s).axisFault a = false)
    (seen : (found i 8 s).secure (regOf (operandsOf i s) f.d).toNat = true → (found i 8 s).whoSecured (whoOf i s) = true)
    (service : ((found i 8 s).cars[(carOfAxis a).val]).service = .in_)
    (moving : ((found i 8 s).axes[a.val]).projected.st = .moving)
    (reached : ((found i 8 s).reachMask (carOfAxis a)).getLsbD (regOf (operandsOf i s) f.d).toNat = true)
    (ahead : 0 ≤ ((found i 8 s).axes[a.val]).projected.dir * (((found i 8 s).axes[a.val]).projected.target.toInt - l.p.toInt)) :
    issue i 0x23 f 8 bodyStopat s =
      answered i (reply .done ((begun i 8 s).axisCmd a (.stopat ((regOf (operandsOf i s) f.d).setWidth 7) l.p))) s := by
  have row : (if a.val < 12 then ((found i 8 s).cars[(carOfAxis a).val]).landing? (regOf (ctxOf i f s).w (ctxOf i f s).f.d).toNat else none)
      = some l := (if_pos car).trans landing
  refine issue_onAxis_behind acts ready rfl (noOperandA_eq a0 m) (clear_cons.2 ⟨landing_seen seen, clear_nil⟩) ?_ ?_ rfl
  · simp only [row, orFault_sound sound]
    refine clear_pair.2 ⟨?_, ?_⟩
    · rw [serviceIn_in service, moving]
      rfl
    · exact Bool.or_eq_false_iff.2 ⟨congrArg Bool.not reached, decide_eq_false (not_lt.2 ahead)⟩
  · simp only [row, orFault_sound sound]
    rfl

/-- An accepted RESUME sends its command to the axis (R208, R209). -/
theorem issue_resume_sent (ready : Ready i 0x24 f 4 s) (acts : ActsOnAxis i f 4 0xFF80 a s) (d : f.d = 0) (a0 : f.a = 0) (m : f.m = 0)
    (car : a.val < 12) (sound : (found i 4 s).axisFault a = false)
    (service : ((found i 4 s).cars[(carOfAxis a).val]).service = .in_) (remain : ((found i 4 s).axes[a.val]).projected.remain ≠ 0)
    (st : ((found i 4 s).axes[a.val]).projected.st = .held ∨ ((found i 4 s).axes[a.val]).projected.st = .moving) :
    issue i 0x24 f 4 bodyResume s = answered i (reply .done ((begun i 4 s).axisCmd a .resume)) s := by
  refine issue_onAxis acts ready rfl (noFields_eq d a0 m) ?_ ?_ rfl
  · rw [orFault_sound sound]
    refine clear_cons.2 ⟨?_, clear_nil⟩
    rw [decide_eq_false (not_le.2 car), serviceIn_in service, decide_eq_false remain]
    rcases st with st | st <;> rw [st] <;> rfl
  · rw [orFault_sound sound]
    rfl

end

/-- Settles O19: each of them passes the checks of its axis and its own. -/
theorem axisCommandsAreAnswered : Obligations.AxisCommandsAreAnswered := by
  refine ⟨fun i f s a => ⟨fun ready acts d a0 m => congrArg Host.Outcome.next ?_,
    fun l ready acts a0 m car landing sound seen service moving reached ahead => congrArg Host.Outcome.next ?_,
    fun ready acts d a0 m car sound service remain st => congrArg Host.Outcome.next ?_,
    fun ready acts a0 m door => congrArg Host.Outcome.next ?_, ?_⟩,
    fun i f s a a0 m => ⟨fun ready acts => congrArg Host.Outcome.next ?_, fun ready acts v low => congrArg Host.Outcome.next ?_⟩⟩
  · exact issue_onAxis acts ready rfl (noFields_eq d a0 m) clear_nil rfl rfl
  · exact issue_stopat_sent ready acts a0 m car landing sound seen service moving reached ahead
  · exact issue_resume_sent ready acts d a0 m car sound service remain st
  · exact issue_onAxis acts ready rfl (noOperandA_eq a0 m) (clear_cons.2 ⟨decide_eq_false (not_lt.2 door), clear_nil⟩) rfl rfl
  · rintro d ready acts a0 m c master t x y rear named free shift idle empty st v still close good
    have word : regOf (ctxOf i (fix12 f true) s).w (ctxOf i (fix12 f true) s).f.d = BitVec.ofNat 32 master.val := named
    have table : immBits (ctxOf i (fix12 f true) s).f.imm 8 4 = t := fix12_table f true
    have door : doorOfAxis a = some d := rear ▸ doorOfAxis_doorAxis d
    have good : (found i 4 s).badWord 2 (s.mem.camReads t ((found i 4 s).axes[master.val]).p.toInt) = none :=
      (found_badWord ..).trans good
    refine congrArg Host.Outcome.next (issue_onAxis acts ready rfl (noOperandA_eq a0 m) ?_ ?_ rfl)
    all_goals simp only [word, masterWord_eq, table, Plan.reads_good good, door]
    · refine clear_cons.2 ⟨?_, clear_cons.2 ⟨?_, clear_cons.2 ⟨?_, clear_pair.2 ⟨congrArg Bool.not shift, ?_⟩⟩⟩⟩
      · have other : master ≠ a := rear ▸ doorAxis_ne (otherDoor_ne d)
        rw [decide_eq_false other, free]
        exact congrArg Bool.not (decide_eq_true rfl)
      · have high : ¬ a.val < 12 := rear ▸ Nat.not_lt.2 (Nat.le_add_right ..)
        rw [decide_eq_false high, idle, empty]
        rfl
      · rw [v, still]
        rcases st with st | st <;> rw [st] <;> rfl
      · have near : ((x.projected.p.toInt - (s.mem.camOutput t y.p.toInt).1).natAbs : Int) < unit := by
          rw [unit] at close ⊢
          omega
        exact decide_eq_false (not_le.2 near)
    · rfl
  · exact issue_onAxis acts ready rfl (noOperandA_eq a0 m) clear_nil rfl rfl
  · refine issue_onAxis acts ready rfl (noOperandA_eq a0 m) (clear_cons.2 ⟨?_, clear_nil⟩) rfl rfl
    exact Bool.or_eq_false_iff.2 ⟨decide_eq_false v, decide_eq_false (not_lt.2 low)⟩

end Sys2Proof.Machine
end

section
/-! CALLSET, CALLCLR, DEOREQ, NEXTSTOP and REACH on a named car (R187 to R189, R193, R254, R257). -/

namespace Sys2Proof.Machine

/-! ### An instruction on a named car -/

/-- On a named car a stop or interlock instruction is its plan for that car, behind the refusals that need no car (R187). -/
theorem onCar_named {x : Ctx} {c : Chip} {right : Nat} {illegal : Bool} {pre : Checks} {g : CarId → Plan} {k : CarId}
    (named : carOperand x.who x.f.imm = some k) :
    onCar x c right illegal pre g = { g k with illegal := illegal, checks := pre ++ (g k).checks } := by
  simp only [onCar, named]

section

variable {i : Issuer} {op : BitVec 6} {f : Enc} {cycles right : Nat} {active : Bool} {k : CarId} {s : State}
  (acts : ActsOnCar i f cycles right active k s)
include acts

/-- None of the shared checks refuses an issuer that may act on the car, or see it (R121, R187). -/
theorem carChecks_clear : Clear (carChecks (ctxOf i f s) (found i cycles s) right active k) := by
  obtain ⟨-, lacks, may, lit⟩ := acts
  exact clear_cons.2 ⟨lacks, clear_pair.2 ⟨congrArg Bool.not may, congrArg Bool.not lit⟩⟩

/-- A stop or interlock instruction that neither the shared checks nor its own refuse takes its plan's effect (R11, R187). -/
theorem issue_onCar {body : Body} {illegal : Bool} {g : CarId → Plan} {pre own : Checks} {r : Reply} (ready : Ready i op f cycles s)
    (plan : body (ctxOf i f s) s.mem (found i cycles s) = onCar (ctxOf i f s) (found i cycles s) right illegal pre g)
    (checks : (g k).checks = carChecks (ctxOf i f s) (found i cycles s) right active k ++ own)
    (legal : illegal = false) (first : Clear pre) (clear : Clear own) (effect : (g k).act (begun i cycles s) = r)
    (ok : r.status.ok = true) : issue i op f cycles body s = answered i r s := by
  obtain ⟨named, -⟩ := id acts
  refine issue_plan ready (plan.trans (onCar_named named)) legal ((clear_append _ _).2 ⟨first, ?_⟩) effect ok
  exact checks ▸ (clear_append _ _).2 ⟨carChecks_clear acts, clear⟩

end

/-! ### Calls -/

section

variable {i : Issuer} {f : Enc} {k : CarId} {l : Landing} {s : State}

/-- An accepted CALLSET or CALLCLR leaves a call that is already so, and else changes the stop table and raises CALLS (R187, R257). -/
theorem issue_call {op : BitVec 6} {set : Bool} (acts : ActsOnCar i f 4 1 true k s) (ready : Ready i op f 4 s) (a : f.a = 0) (m : f.m = 0)
    (reserved : f.imm &&& 0xF8B0 = 0) (kind : immBits f.imm 8 2 ≠ 3)
    (landing : ((found i 4 s).cars[k.val]).landing? (regOf (operandsOf i s) f.d).toNat = some l)
    (side : (if f.imm.getLsbD 10 then l.rear else l.front) = true)
    (seen : (found i 4 s).secure (regOf (operandsOf i s) f.d).toNat = true → (found i 4 s).whoSecured (whoOf i s) = true)
    (service : ((found i 4 s).cars[k.val]).service = .in_) :
    let car := (found i 4 s).cars[k.val]
    let call : Call := ⟨(regOf (operandsOf i s) f.d).setWidth 7, immBits f.imm 8 2, f.imm.getLsbD 10⟩
    issue i op f 4 (bodyCall set) s = answered i (reply .done
      (if car.calls.contains call = set then begun i 4 s
        else
          ((begun i 4 s).modCar k fun x =>
            { x with calls := if set then call :: car.calls else car.calls.erase call }).raiseSee k 12)) s := by
  intro car call
  have row : ((found i 4 s).cars[k.val]).landing? (regOf (ctxOf i f s).w (ctxOf i f s).f.d).toNat = some l := landing
  refine issue_onCar acts ready rfl rfl (noOperandA_eq a m) (clear_cons.2 ⟨landing_seen seen, clear_nil⟩)
    (clear_pair.2 ⟨?_, decide_eq_false (not_not_intro service)⟩) (apply_ite (reply .done) _ _ _).symm rfl
  refine Bool.or_eq_false_iff.2 ⟨Bool.or_eq_false_iff.2 ⟨decide_eq_false (not_not_intro reserved), decide_eq_false kind⟩, ?_⟩
  simp only [row]
  rw [Bool.and_eq_false_iff]
  exact .inr ((apply_ite Bool.not _ _ _).symm.trans (congrArg Bool.not side))

end

/-- Settles O21: each of them passes the checks of its car and its own. -/
theorem stopAndEnableInstructions : Obligations.StopAndEnableInstructions := by
  refine ⟨⟨fun i f s k l acts => ?_, fun i f s k ready acts d a m reserved => congrArg Host.Outcome.next ?_⟩,
    fun i f s k a m reserved => ⟨fun ready acts last level => congrArg Host.Outcome.next ?_,
      fun ready acts last level => congrArg Host.Outcome.next ?_⟩⟩
  · intro c w rear call held a m reserved kind landing side seen service
    refine ⟨fun ready => congrArg Host.Outcome.next ?_, fun ready => congrArg Host.Outcome.next ?_⟩
    · exact issue_call (set := true) acts ready a m reserved kind landing side seen service
    · refine (issue_call (set := false) acts ready a m reserved kind landing side seen service).trans ?_
      simp only [← Bool.not_eq_true, ite_not]
      rfl
  · exact issue_onCar acts ready rfl rfl (noFields_eq d a m) clear_nil
      (clear_cons.2 ⟨decide_eq_false (not_not_intro reserved), clear_nil⟩) rfl rfl
  · refine issue_onCar acts ready rfl rfl ?_ (clear_cons.2 ⟨decide_eq_false (not_le.2 level), clear_nil⟩)
      (clear_cons.2 ⟨decide_eq_false (not_not_intro reserved), clear_nil⟩) ?_ rfl
    · exact Bool.or_eq_false_iff.2 ⟨noOperandA_eq a m, decide_eq_false (not_lt.2 last)⟩
    · dsimp only
      cases (begun i 8 s).nextStop k <;> rfl
  · refine issue_onCar acts ready rfl rfl ?_ (clear_cons.2 ⟨decide_eq_false (not_le.2 level), clear_nil⟩)
      (clear_cons.2 ⟨decide_eq_false (not_not_intro reserved), clear_nil⟩) rfl rfl
    exact Bool.or_eq_false_iff.2 ⟨noOperandA_eq a m, decide_eq_false (not_lt.2 last)⟩

end Sys2Proof.Machine
end
